-- ==== Sys2Proof/Word.lean ====
section
/-! DEFINITION. The words of the Q1152 (00 R4: bit 0 is the least significant bit, values are little-endian) and
the plainest arithmetic over them. -/

namespace Sys2Proof

/-- A general register or a 64-bit CSR. -/
abbrev Word64 := BitVec 64
/-- An instruction word or a 32-bit register (03 R116, 00 R11). -/
abbrev Word32 := BitVec 32
/-- A byte. -/
abbrev Byte := BitVec 8
/-- A device physical address (21 R667). -/
abbrev DevAddr := BitVec 48
/-- A vector register (05 R194). -/
abbrev VReg := BitVec 1024

/-- Bits [hi:lo] of a natural number (00 R4). -/
def natBits (x hi lo : Nat) : Nat := x / 2 ^ lo % 2 ^ (hi + 1 - lo)

/-- `x` with bits [hi:lo] replaced by `v`. -/
def natSetBits (x hi lo v : Nat) : Nat :=
  x / 2 ^ (hi + 1) * 2 ^ (hi + 1) + v % 2 ^ (hi + 1 - lo) * 2 ^ lo + x % 2 ^ lo

/-- Bit `i` of a natural number. -/
def natBit (x i : Nat) : Bool := x / 2 ^ i % 2 == 1

end Sys2Proof
end

