-- ==== Sys2Proof/Machine/Operands.lean ====
section
/-! DEFINITION. The operand fields of the instruction formats (03 R116) and the extension of immediates. -/

namespace Sys2Proof.Machine

/-- The fields of an instruction word (03 R116). -/
def fld (w : Word32) (hi lo : Nat) : Nat := natBits w.toNat hi lo
/-- rd, [26:22]. -/
def rdOf (w : Word32) : Nat := fld w 26 22
/-- ra, [21:17]. -/
def raOf (w : Word32) : Nat := fld w 21 17
/-- rb, [16:12]. -/
def rbOf (w : Word32) : Nat := fld w 16 12
/-- minor, [11:0]. -/
def minorOf (w : Word32) : Nat := fld w 11 0
/-- The major opcode, [31:27]. -/
def majorOf (w : Word32) : Nat := fld w 31 27

/-- The low `n` bits of a number as a signed number, wrapped to 64 bits. -/
def sext (n v : Nat) : Word64 := (BitVec.ofNat n v).signExtend 64

/-- imm17, [16:0], sign-extended (03 R121). -/
def immS (w : Word32) : Word64 := sext 17 (fld w 16 0)
/-- imm17, [16:0], zero-extended (03 R121). -/
def immZ (w : Word32) : Word64 := BitVec.ofNat 64 (fld w 16 0)
/-- off14 of a branch, as a byte displacement (03 R125). -/
def off14 (w : Word32) : BitVec 48 := (BitVec.ofNat 14 (fld w 13 0)).signExtend 48 * 4
/-- off27 of a jump, as a byte displacement (03 R126). -/
def off27 (w : Word32) : BitVec 48 := (BitVec.ofNat 27 (fld w 26 0)).signExtend 48 * 4
/-- imm11 of a scalar access, sign-extended (03 R129). -/
def imm11 (w : Word32) : Word64 := sext 11 (fld w 10 0)

/-! ## Words that are no instruction's (03 R117, R118) -/

/-- Whether a function code of major 0x15 is reserved (05 R198-R200). -/
def reservedVec (f : Nat) : Bool :=
  f == 0x0F || decide (0x1A ≤ f ∧ f ≤ 0x1F) || decide (0x25 ≤ f ∧ f ≤ 0x27) || f == 0x2F

/-- Whether a word has a reserved major opcode, function or operation code. -/
def reservedWord (w : Word32) : Bool :=
  match majorOf w with
  | 0x00 => decide (0x17 ≤ fld w 5 0)
  | 0x0A => decide (6 ≤ fld w 16 14)
  | 0x0D => decide (2 ≤ minorOf w)
  | 0x0E => fld w 11 10 == 3
  | 0x0F => decide (5 ≤ minorOf w)
  | 0x10 => decide (7 ≤ fld w 3 0)
  | 0x12 => decide (5 ≤ fld w 11 9)
  | 0x13 => decide (6 ≤ fld w 4 2)
  | 0x14 => decide (7 ≤ minorOf w)
  | 0x15 => reservedVec (fld w 11 6)
  | 0x16 => if fld w 11 11 = 0 then decide (2 ≤ fld w 13 12) else decide (4 ≤ fld w 7 5)
  | 0x17 => decide (8 ≤ fld w 11 8)
  | 0x18 => decide (5 ≤ fld w 11 9)
  | 0x19 => decide (0xD ≤ fld w 11 8)
  | 0x1A => decide (4 ≤ fld w 11 8 ∧ fld w 11 8 ≤ 7) || decide (0xA ≤ fld w 11 8)
  | 0x1B => fld w 11 8 == 6 || fld w 11 8 == 7 || decide (0xB ≤ fld w 11 8)
  | 0x1C => decide (6 ≤ minorOf w)
  | 0x1D => !(decide (minorOf w ≤ 2) || minorOf w == 0x10 || minorOf w == 0x20 || minorOf w == 0x21 || minorOf w == 0x30)
  | 0x1E | 0x1F => true
  | _ => false

end Sys2Proof.Machine
end

