-- ==== Sys2Proof/Syntax.lean ====
section
/-! DEFINITION. The commands of the block: one constructor of `Instr` for each row of spec/opcode_table.json, in the
table's order. The table gives no row an operand; the operands are this model's (log entry 1): the object the step
happens on, an instruction's word (03 R116), a register write's value, and what an event measured or carried. -/

namespace Sys2Proof

/-- A compute core 0-1,151 or a service core SC0-SC3 as 1,152-1,155 (00 R8, 11 R396). -/
abbrev CoreId := Fin 1156
/-- A compute core (00 R8), a slice and its near-memory controller (09 R327), or a mesh router (10 R359). -/
abbrev TileId := Fin 1152
/-- A queue number e × 16 + q (02 R69). -/
abbrev QueueId := Fin 176
/-- A completion ring (02 R88). -/
abbrev RingId := Fin 64
/-- A far-memory port (01 R33). -/
abbrev PortId := Fin 32
/-- A bundle of a link (01 R37). -/
abbrev BundleId := Fin 3
/-- A sync object (12 R442). -/
abbrev ObjId := Fin 4096
/-- An agent that waits for a sync unit: a core 0-1,155, or queue n as 1,156 + n (12 R451). -/
abbrev WaiterId := Fin 1332

/-- What the code of a memory finds on an access, beside the locations already known uncorrectable
(08 R297-R298, 09 R332, R343, R358): nothing, one error in the first granule the access reads, or errors in those it
lists, counted from the first, uncorrectable where `true`; or, of a cache line, a parity error in its tag or state
(08 R318), in one of the two copies of its dirty bit where `copy`. The physical error is the sender's (log entry 6). -/
inductive Ecc where
  | clean
  | corrected
  | uncorrectable
  | each (finds : List (Nat × Bool))
  | parity (copy : Bool)
deriving DecidableEq, Repr

/-- What is found from granule k of an access on. -/
def Ecc.from (e : Ecc) (k : Nat) : Ecc :=
  match e with
  | .each l => .each ((l.filter (fun p => decide (k ≤ p.1))).map (fun p => (p.1 - k, p.2)))
  | _ => if k = 0 then e else .clean

/-- What is found in the first granule of an access. -/
def Ecc.first (e : Ecc) : Ecc :=
  match e with
  | .each l => match l.find? (fun p => p.1 == 0) with
    | some (_, true) => .uncorrectable
    | some (_, false) => .corrected
    | none => .clean
  | _ => e

/-- What the mesh's checks find of a packet on its way (10 R385): nothing, a word that they correct, or one that they
cannot and that poisons the packet; at the input of which router, and the sub-unit that the record names: 0x00 the router,
0x01-0x04 an output link, 0x20 the local port, 0x21 the bundle port. -/
inductive Transit where
  | clean
  | corrected (router : TileId) (sub : Byte)
  | poisoned (router : TileId) (sub : Byte)
deriving DecidableEq, Repr

/-- What the mesh's checks find of a packet, and of the answer to it (10 R385). -/
structure RoundTrip where
  out : Transit := .clean
  back : Transit := .clean
deriving DecidableEq, Repr

/-- What memory serves a command of an engine or the Kiln while it runs: bytes of host memory by device address, a byte
not listed being 0 (log entry 5); the host addresses whose read fails, each with the status of its CPLE, 3 being a
completion timeout (15 R516); what the code of device memory finds
(log entry 6); and what the mesh's checks find of the packets of its accesses to device memory, one entry for each access
in order (10 R385). -/
structure HostView where
  bytes : List (Nat × Byte) := []
  bad : List (Nat × BitVec 8) := []
  ecc : Ecc := .clean
  mesh : List RoundTrip := []
deriving DecidableEq, Repr

/-- A command that the Kiln or an engine holds (18 R594): its queue, the slot count of its list's header, and its index in
the list. -/
structure HeldCommand where
  queue : QueueId
  start : Word32
  idx : BitVec 12
deriving DecidableEq, Repr

/-- The queue of a COPY whose datapath has erred, and what the engine has read of an index list in host memory
(18 R602). -/
structure StoppedCopy where
  queue : QueueId
  index : List (Nat × Byte) := []
deriving DecidableEq, Repr

/-- The companion link or the mirror link (01 R37). -/
inductive LinkId where
  | vcl
  | mir
deriving DecidableEq, Repr

/-- What arrives wrong of one RS(544,514) codeword (15 R498): the numbers of symbols in error, and the lanes that deliver
nothing; and how many flits it carries that FLIT_RECEIVE tells of after it (log entry 33). -/
structure Codeword where
  errors : List (Fin 544) := []
  dead : BitVec 16 := 0
  flits : Nat := 0
deriving DecidableEq, Repr

/-- The agent of an MMIO access: the host over VCL bundle b, a service core, or a core at machine level through a
class-2 segment (15 R510, 19 R646, 21 R668). -/
inductive Accessor where
  | host (b : BundleId)
  | service
  | machine
deriving DecidableEq, Repr

/-- A flit of 256 bytes (15 R502): sequence, ack fields, kind, returned credits, its slots, and the CRC it carries. -/
structure Flit where
  seq : BitVec 12
  ack : BitVec 12
  ackValid : Bool
  nak : Bool
  kind : BitVec 8
  postedCredit : Byte
  nonPostedCredit : Byte
  slots : List Byte
  crc : Word64
deriving DecidableEq, Repr

/-- What the boot ROM or firmware finds of an image beside its bytes (`true` passes): the flash answers, each of the two
signatures of 19 R629 verifies, and the identity blob unseals. The cryptography of the signatures and of the blob is the
sender's (log entry 8). -/
structure ImageReport where
  flashOk : Bool
  ecdsaOk : Bool
  hssOk : Bool
  idOk : Bool
deriving DecidableEq, Repr

/-- A vendor-defined SPDM request (19 R641, R643): the HSS certificate, or an envelope, during whose signature the supply
droops (19 R650) or does not. -/
inductive VendorAsk where
  | hssCert
  | envelope (droop : Bool)
deriving DecidableEq, Repr

/-- What the units that a list used have charged in a frame: the list, by its queue and the slot count of its header, the
largest stolen time, and whether a unit reached its cap (02 R89, R106). -/
structure Charge where
  queue : QueueId
  start : Word32
  ns : BitVec 24 := 0
  cap : Bool := false
deriving DecidableEq, Repr

/-- What the units report at a tick: the unit class with the largest stolen time and that time in ns; for each list whose
units were used, what they charged (18 R620, 02 R106); and the process cones' counts (17 R587). Background timing is the
sender's (log entry 14). Of a primary also: whether the shadow's KLN_FRAME_STAT.locked is 1 (16 R529), and the blocks that
the resync stream has shipped since the tick before (16 R553, log entry 35). -/
structure TickReport where
  cls : BitVec 4 := 0
  ns : BitVec 24 := 0
  lists : List Charge := []
  counts : List (BitVec 24) := []
  peerLocked : Bool := true
  resync : Nat := 0
deriving DecidableEq, Repr

/-- What a platform event message that is acknowledged carried: a record by its number, or an event as a bit of
MGT_CTL.evt_mask (20 R657, R658). -/
inductive PldmAck where
  | record (seq : Word64)
  | event (bit : Fin 6)
deriving DecidableEq, Repr

/-- The bundle of a transaction and, where its sender sends it again there, the bundle and the flit number under which its
first copy came (15 R517, 16 R531); of a read, the requester's context, which its completion returns (15 R508). -/
structure Via where
  bundle : BundleId
  first : Option (BundleId × BitVec 12) := none
  ctx : BitVec 4 := 0
deriving DecidableEq, Repr

/-- The kind of a MACK, and how it comes (16 R531). -/
structure MackKind where
  kind : BitVec 2
  via : Via := { bundle := 0 }
deriving DecidableEq, Repr

/-- A request for the reset of engines or contexts, one bit each, and whether a wider reset is requested in its cycle
(00 R19). -/
structure ResetAsk (n : Nat) where
  mask : BitVec n
  wider : Bool := false
deriving DecidableEq, Repr

/-- The value of a register write, and the bits of it that hardware events reach in its cycle (00 R15). -/
structure RegValue where
  value : Word64
  hit : Word64 := 0
deriving DecidableEq, Repr

/-- The queue whose record is written, what its last frame stole from it: the largest stolen time of its units and
whether one reached its cap (02 R89, R106), what the code finds where the record covers a granule in part (09 R358), and
what the mesh's checks find of its packets (10 R385). -/
structure RecordTurn where
  queue : QueueId
  ns : BitVec 24 := 0
  cap : Bool := false
  ecc : Ecc := .clean
  mesh : List RoundTrip := []
deriving DecidableEq, Repr

/-- The word of an instruction that reads the core's copy of a handle entry, and whether the entry fails its parity
(08 R309). -/
structure HandleWord where
  word : Word32
  parity : Bool := false
deriving DecidableEq, Repr

/-- The word of an instruction that writes lines of the data cache back, and what their codes find: the 8-byte words of
the dirty lines in the order in which they go out, eight to a line (08 R318). -/
structure CleanWord where
  word : Word32
  ecc : Ecc := .clean
deriving DecidableEq, Repr

/-- Whether a line is one of instructions, and what is found of it (08 R319, R320). -/
structure LineReport where
  fetch : Bool := false
  ecc : Ecc := .clean
deriving DecidableEq, Repr

/-- What is found of a request on its way to its home, at the home, and of the answer on its way (10 R385). -/
structure HomeReport where
  ecc : Ecc := .clean
  inbound : Transit := .clean
  answer : Transit := .clean
deriving DecidableEq, Repr

/-- What is found of a contribution on its way, and whether its merge meets a residue mismatch (10 R385). -/
structure CombReport where
  transit : Transit := .clean
  mismatch : Bool := false
deriving DecidableEq, Repr

/-- A stop that a packet reaches, and what the mesh's checks find of the packet on its way (10 R385). -/
structure Hop (n : Nat) where
  stop : Fin n
  mesh : Transit := .clean
deriving DecidableEq, Repr

/-- An entry of a router's combine unit, and whether the merge by which it leaves meets a residue mismatch (10 R385). -/
structure CombExit where
  entry : Fin 32
  mismatch : Bool := false
deriving DecidableEq, Repr

/-- A value written to DBG_SYN_SET, and the issuers whose operations reach the object in the same cycle (12 R452). -/
structure SynSet where
  value : Word32
  issuers : List (Hop 1332) := []
deriving DecidableEq, Repr

/-- One command: a row of spec/opcode_table.json. -/
inductive Instr where
  | coldSequencing
  | railRegulated
  | railTimeout
  | railSequenceRetry
  | onDieFillDone
  | nearFillDone
  | modResetAssert
  | modResetRelease
  | rst (b : Via) (tag : BitVec 12) (value : Word64)
  | rstDelayExpiry
  | rstResetEnd
  | engineReset (ask : ResetAsk 11)
  | contextReset (ask : ResetAsk 16)
  | engineResetDone (ctx : Bool) (i : Fin 16)
  | registerWrite (who : Accessor) (off : BitVec 26) (wide : Bool) (v : RegValue)
  | rcRegisterRead (b : Via) (tag : BitVec 12) (off : BitVec 26) (wide : Bool)
  | mshDistSvcWrite (v : Word32)
  | kilnTick (r : TickReport)
  | frameSyncEdge (r : TickReport)
  | syncWindowExpiry (r : TickReport)
  | acquisitionTimeout (r : TickReport)
  | frameCtlWrite (v : Word32)
  | abortGraceExpiry (q : QueueId)
  | queueEnable (q : QueueId) (v : Word32)
  | queueDisable (q : QueueId)
  | doorbellWrite (q : QueueId) (t : Word32)
  | db (b : Via) (q : BitVec 16) (t : Word32)
  | headerFetch (q : QueueId) (hv : HostView)
  | nop (q : QueueId) (hv : HostView)
  | sigCommand (q : QueueId) (hv : HostView)
  | waitCommand (q : QueueId) (hv : HostView)
  | decCommand (q : QueueId) (hv : HostView)
  | launch (q : QueueId) (hv : HostView)
  | kernelLaunch (q : QueueId)
  | copy (q : QueueId) (hv : HostView)
  | completionRecordWrite (q : RecordTurn)
  | coalesceTimerExpiry (m : RingId)
  | ringEnable (m : RingId) (v : Word32)
  | ringDisable (m : RingId)
  | crheadWrite (m : RingId) (v : Word32)
  | repairGrant
  | add (c : CoreId) (w : Word32)
  | sub (c : CoreId) (w : Word32)
  | and (c : CoreId) (w : Word32)
  | or (c : CoreId) (w : Word32)
  | xor (c : CoreId) (w : Word32)
  | andn (c : CoreId) (w : Word32)
  | slt (c : CoreId) (w : Word32)
  | sltu (c : CoreId) (w : Word32)
  | sll (c : CoreId) (w : Word32)
  | srl (c : CoreId) (w : Word32)
  | sra (c : CoreId) (w : Word32)
  | slli (c : CoreId) (w : Word32)
  | srli (c : CoreId) (w : Word32)
  | srai (c : CoreId) (w : Word32)
  | min (c : CoreId) (w : Word32)
  | max (c : CoreId) (w : Word32)
  | minu (c : CoreId) (w : Word32)
  | maxu (c : CoreId) (w : Word32)
  | clz (c : CoreId) (w : Word32)
  | ctz (c : CoreId) (w : Word32)
  | popc (c : CoreId) (w : Word32)
  | sextw (c : CoreId) (w : Word32)
  | zextw (c : CoreId) (w : Word32)
  | addi (c : CoreId) (w : Word32)
  | andi (c : CoreId) (w : Word32)
  | ori (c : CoreId) (w : Word32)
  | xori (c : CoreId) (w : Word32)
  | lui (c : CoreId) (w : Word32)
  | lsi (c : CoreId) (w : Word32)
  | slti (c : CoreId) (w : Word32)
  | mul (c : CoreId) (w : Word32)
  | mulh (c : CoreId) (w : Word32)
  | mulhu (c : CoreId) (w : Word32)
  | div (c : CoreId) (w : Word32)
  | divu (c : CoreId) (w : Word32)
  | rem (c : CoreId) (w : Word32)
  | remu (c : CoreId) (w : Word32)
  | divideComplete (c : CoreId)
  | beq (c : CoreId) (w : Word32)
  | bne (c : CoreId) (w : Word32)
  | blt (c : CoreId) (w : Word32)
  | bge (c : CoreId) (w : Word32)
  | bltu (c : CoreId) (w : Word32)
  | bgeu (c : CoreId) (w : Word32)
  | j (c : CoreId) (w : Word32)
  | jal (c : CoreId) (w : Word32)
  | jr (c : CoreId) (w : Word32)
  | jalr (c : CoreId) (w : Word32)
  | ld (c : CoreId) (w : Word32) (e : Ecc)
  | st (c : CoreId) (w : Word32) (e : Ecc)
  | loadDataReturn (c : CoreId) (e : Ecc)
  | interruptTaken (c : CoreId)
  | nanTrapDeferred (c : CoreId)
  | cget (c : CoreId) (w : Word32)
  | cput (c : CoreId) (w : HandleWord)
  | cupd (c : CoreId) (w : HandleWord)
  | sys (c : CoreId) (w : Word32)
  | mark (c : CoreId) (w : Word32)
  | exit (c : CoreId) (w : CleanWord)
  | resume (c : CoreId) (w : HandleWord)
  | idle (c : CoreId) (w : Word32)
  | idleWake (c : CoreId)
  | sld (c : CoreId) (w : HandleWord)
  | snarrow (c : CoreId) (w : Word32)
  | sdrop (c : CoreId) (w : Word32)
  | srdb (c : CoreId) (w : Word32)
  | srdl (c : CoreId) (w : Word32)
  | srda (c : CoreId) (w : Word32)
  | swr (c : CoreId) (w : Word32)
  | lpset (c : CoreId) (w : Word32)
  | blkMov (c : CoreId) (w : Word32) (n : Nat) (e : Ecc)
  | blkFill (c : CoreId) (w : Word32) (n : Nat) (e : Ecc)
  | blkCmp (c : CoreId) (w : Word32) (n : Nat) (e : Ecc)
  | blkScan (c : CoreId) (w : Word32) (n : Nat) (e : Ecc)
  | blkMac (c : CoreId) (w : Word32) (n : Nat) (e : Ecc)
  | mac2mVector (c : CoreId) (w : Word32) (e : Ecc × Ecc) (mismatch : Bool)
  | mac2mTile (c : CoreId) (w : Word32) (ea eb : Ecc)
  | tkInit (c : CoreId) (w : Word32)
  | tkPush (c : CoreId) (w : Word32)
  | tkPushv (c : CoreId) (w : Word32)
  | tkRd (c : CoreId) (w : Word32)
  | tkCnt (c : CoreId) (w : Word32)
  | tkThr (c : CoreId) (w : Word32)
  | skHam (c : CoreId) (w : Word32)
  | skHam2 (c : CoreId) (w : Word32)
  | skHam4 (c : CoreId) (w : Word32)
  | skSign (c : CoreId) (w : Word32)
  | hsCrc (c : CoreId) (w : Word32)
  | hsCrcw (c : CoreId) (w : Word32)
  | hsMix (c : CoreId) (w : Word32)
  | vadd (c : CoreId) (w : Word32)
  | vsub (c : CoreId) (w : Word32)
  | vmul (c : CoreId) (w : Word32) (mismatch : Bool)
  | vfma (c : CoreId) (w : Word32) (mismatch : Bool)
  | vfms (c : CoreId) (w : Word32) (mismatch : Bool)
  | vmax (c : CoreId) (w : Word32)
  | vmin (c : CoreId) (w : Word32)
  | vabs (c : CoreId) (w : Word32)
  | vneg (c : CoreId) (w : Word32)
  | vand (c : CoreId) (w : Word32)
  | vor (c : CoreId) (w : Word32)
  | vxor (c : CoreId) (w : Word32)
  | vsll (c : CoreId) (w : Word32)
  | vsrl (c : CoreId) (w : Word32)
  | vsra (c : CoreId) (w : Word32)
  | vcmp (c : CoreId) (w : Word32)
  | vbsel (c : CoreId) (w : Word32)
  | vperm (c : CoreId) (w : Word32)
  | vslide (c : CoreId) (w : Word32)
  | vzip (c : CoreId) (w : Word32)
  | vuzp (c : CoreId) (w : Word32)
  | vsplat (c : CoreId) (w : Word32)
  | vext (c : CoreId) (w : Word32)
  | vins (c : CoreId) (w : Word32)
  | vmov (c : CoreId) (w : Word32)
  | vrsum (c : CoreId) (w : Word32)
  | vrmax (c : CoreId) (w : Word32)
  | vrmin (c : CoreId) (w : Word32)
  | vrmaxa (c : CoreId) (w : Word32)
  | vrarg (c : CoreId) (w : Word32)
  | vexp2 (c : CoreId) (w : Word32)
  | vlog2 (c : CoreId) (w : Word32)
  | vrcp (c : CoreId) (w : Word32)
  | vrsqrt (c : CoreId) (w : Word32)
  | vscl (c : CoreId) (w : Word32)
  | vitof (c : CoreId) (w : Word32)
  | vftoi (c : CoreId) (w : Word32)
  | vectorConversion (c : CoreId) (w : Word32)
  | vld (c : CoreId) (w : Word32) (e : Ecc)
  | vst (c : CoreId) (w : Word32) (e : Ecc)
  | vlds (c : CoreId) (w : Word32) (e : Ecc)
  | vsts (c : CoreId) (w : Word32) (e : Ecc)
  | vldt (c : CoreId) (w : Word32) (e : Ecc)
  | vstt (c : CoreId) (w : Word32) (e : Ecc)
  | tld (c : CoreId) (w : Word32) (n : Nat) (e : Ecc)
  | tst (c : CoreId) (w : Word32) (n : Nat) (e : Ecc)
  | tldt (c : CoreId) (w : Word32) (n : Nat) (e : Ecc)
  | tldz (c : CoreId) (w : Word32) (n : Nat) (e : Ecc)
  | tland (c : CoreId) (w : Word32)
  | landingComplete (c : CoreId) (t : Fin 8) (e : Ecc)
  | tmma (c : CoreId) (w : Word32)
  | tmmaExecute (c : CoreId) (mismatch : Bool)
  | aclr (c : CoreId) (w : Word32)
  | trel (c : CoreId) (w : Word32)
  | tacc2v (c : CoreId) (w : Word32)
  | tv2acc (c : CoreId) (w : Word32)
  | tocc (c : CoreId) (w : Word32)
  | tstat (c : CoreId) (w : Word32)
  | tcfg (c : CoreId) (w : Word32)
  | rxopen (c : CoreId) (w : Word32)
  | rxclose (c : CoreId) (w : Word32)
  | chopen (c : CoreId) (w : Word32)
  | chclose (c : CoreId) (w : Word32)
  | chsend (c : CoreId) (w : Word32) (e : Ecc)
  | chrecv (c : CoreId) (w : Word32)
  | chdone (c : CoreId) (w : Word32)
  | chsel (c : CoreId) (w : Word32)
  | dgring (c : CoreId) (w : Word32)
  | dgsend (c : CoreId) (w : Word32) (e : Ecc)
  | dgsendm (c : CoreId) (w : Word32) (e : Ecc)
  | mcwr (c : CoreId) (w : Word32) (e : Ecc)
  | cbsend (c : CoreId) (w : Word32) (e : Ecc)
  | openRequestArrival (src : TileId) (dst : Hop 1152)
  | openReplyArrival (src : TileId) (dst : Hop 1152)
  | messageArrival (src dst : TileId) (t : Transit)
  | spaceUpdateArrival (src : TileId) (dst : Hop 1152)
  | endMarkerArrival (src : TileId) (dst : Hop 1152)
  | closeNoticeArrival (src : TileId) (dst : Hop 1152)
  | datagramArrival (src dst : CoreId) (t : Transit)
  | datagramAnswerArrival (src : CoreId) (dst : Hop 1156)
  | combineDelivery (dst : Hop 1152)
  | amoAdd (c : CoreId) (w : Word32) (e : Ecc)
  | amoSwap (c : CoreId) (w : Word32) (e : Ecc)
  | amoCas (c : CoreId) (w : Word32) (e : Ecc)
  | amoAnd (c : CoreId) (w : Word32) (e : Ecc)
  | amoOr (c : CoreId) (w : Word32) (e : Ecc)
  | amoXor (c : CoreId) (w : Word32) (e : Ecc)
  | amoMax (c : CoreId) (w : Word32) (e : Ecc)
  | amoMin (c : CoreId) (w : Word32) (e : Ecc)
  | sig (c : CoreId) (w : CleanWord)
  | wait (c : CoreId) (w : Word32)
  | dec (c : CoreId) (w : Word32)
  | sread (c : CoreId) (w : Word32)
  | syncOpArrival (p : ObjId) (issuers : List (Hop 1332))
  | syncAnswerArrival (c : Hop 1156)
  | syncGrantArrival (a : Hop 1332)
  | fenceRel (c : CoreId) (w : CleanWord)
  | fenceAcq (c : CoreId) (w : CleanWord)
  | fenceAr (c : CoreId) (w : CleanWord)
  | dcInv (c : CoreId) (w : Word32)
  | dcClean (c : CoreId) (w : CleanWord)
  | dcFlush (c : CoreId) (w : CleanWord)
  | dcAll (c : CoreId) (w : CleanWord)
  | icAll (c : CoreId) (w : Word32)
  | pf (c : CoreId) (w : Word32)
  | cacheFillArrival (c : CoreId) (line : BitVec 42) (r : LineReport)
  | writeAckArrival (c : CoreId)
  | sweeperRead (c : TileId) (finds : List (Nat × Ecc))
  | scratchpadRemoteAccess (c : CoreId) (src : CoreId) (r : HomeReport)
  | nearMemoryRequest (n : TileId) (src : CoreId) (r : HomeReport)
  | farMemoryRequest (p : PortId) (src : CoreId) (r : HomeReport)
  | nearRefresh (n : TileId) (bank : Fin 16)
  | farRefresh (p : PortId) (rfm : Bool)
  | calibrationDue (p : PortId) (retrain : Bool)
  | oscTracking (p : PortId) (drift : Bool)
  | retrainSlice (p : PortId)
  | calDeadlineExpiry (p : PortId) (retrain : Bool)
  | nmcRepairGo (n : TileId) (v : Word64)
  | nearRowRepair (n : TileId)
  | fmcRepairGo (p : PortId) (v : Word64)
  | farRepairDone (p : PortId) (resource : Bool)
  | fmcMapStart (v : Word32)
  | farTrainingDone (p : PortId) (ok : Bool)
  | farFillDone (p : PortId)
  | farChannelFail (p : PortId)
  | farScrubGroup (p : PortId) (finds : List (Fin 15 × Ecc))
  | nearScrubRow (n : TileId) (finds : List (Fin 64 × Ecc))
  | swath (q : QueueId) (hv : HostView)
  | mowerScanDone (p : PortId) (finds : List (Nat × Ecc))
  | sieveResultArrival (p : PortId) (t : Transit)
  | readyWordWrite
  | snapshot (q : QueueId) (hv : HostView)
  | resync (q : QueueId) (hv : HostView)
  | resyncStreamEnd
  | multicastWriteArrival (src : CoreId) (dst : TileId) (e : Ecc) (t : RoundTrip)
  | combineArrival (router src : TileId) (r : CombReport)
  | combineHoldExpiry (router : TileId) (entry : CombExit)
  | detWaitExpiry (router : TileId) (entry : CombExit)
  | mshMonSelWrite (k : Fin 8) (v : Word32)
  | linkDetect (l : LinkId) (b : BundleId) (lanes : BitVec 16)
  | equalisationDone (l : LinkId) (b : BundleId)
  | alignmentDone (l : LinkId) (b : BundleId) (usable partner inverted : BitVec 16)
  | fecLock (l : LinkId) (b : BundleId) (ok : Bool)
  | flitInit (l : LinkId) (b : BundleId) (posted nonPosted : Nat) (peerLast : BitVec 12)
  | trainingTimeout (l : LinkId) (b : BundleId)
  | codewordReceive (l : LinkId) (b : BundleId) (r : Codeword)
  | flitReceive (l : LinkId) (b : BundleId) (f : Flit)
  | ackTimeout (l : LinkId) (b : BundleId)
  | bctlRetrain (l : LinkId) (b : BundleId)
  | bctlDisable (l : LinkId) (b : BundleId)
  | hrd (b : Via) (tag : BitVec 12) (window : Fin 4) (off : BitVec 48) (len : Nat) (ord : Bool) (e : HomeReport)
  | hwr (b : Via) (window : Fin 4) (off : BitVec 48) (data : List Byte) (ord poison : Bool) (e : HomeReport)
  | placed (b : BundleId) (of : BundleId) (count : Word64) (refused : List Nat)
  | cpl (tag : BitVec 12) (data : List Byte)
  | cple (tag : BitVec 12) (status : BitVec 8)
  | cplTimeout (tag : BitVec 12)
  | placedTimeout (b : BundleId) (n : Nat)
  | pairingStart
  | mpair (slot : BitVec 2) (map : Word32) (state : BitVec 4)
  | pairingTimeout
  | fsync (frame : BitVec 48) (timeNs : Word64) (r : TickReport)
  | closeMarkArrival (b : BundleId) (src : Hop 1184)
  | mfwd (b : Via) (addr : DevAddr) (kind : BitVec 2) (data : List Byte) (poison : Bool)
  | mepoch (b : Via) (frame : BitVec 48) (kind : BitVec 2) (sent : Nat) (openFrame : BitVec 48) (inUse : Byte)
  | mack (frame : BitVec 48) (kind : MackKind)
  | mhb (frame : BitVec 48) (state : BitVec 4) (risk : BitVec 2) (ack : BitVec 48)
  | heartbeatTimeout (r : TickReport)
  | witnessRead (hv : HostView) (r : TickReport)
  | mgasp (reason : BitVec 16) (r : TickReport)
  | hearthSample (vMv iMa : BitVec 16) (amps0 amps1 : Nat)
  | req38End
  | phaseShed (die : Fin 2) (amps : Nat)
  | vcoreTrim (die : Fin 2)
  | rippleWindow (h1 h2 h3 h4 : Bool)
  | waveArm (v : Word32)
  | waveSwTrig
  | waveCaptureDone
  | thermalConversion (temps : List (BitVec 16))
  | dramReading (temps : List (BitVec 16))
  | idleLatchTimer (counts : List (BitVec 24))
  | throttleRequestFall (dram : Bool)
  | droopTrip (k : Fin 64)
  | droopRequestEnd
  | riskHoldExpiry (input : Fin 5)
  | parityHalt (c : CoreId)
  | commandParityError (q : HeldCommand)
  | copyParityError (q : StoppedCopy)
  | replayStart (q : QueueId)
  | fallowSegment (c : TileId) (judged passed : Bool) (retestsFailed : Fin 4)
  | errorRecord
  | coalesceWindowExpiry (unit : Word32) (op : BitVec 16)
  | hostRingCopy
  | historyWrite
  | rasRetiredWrite (w : Fin 36) (v : Word32)
  | romStart
  | imageCheckDone (r : ImageReport)
  | ready
  | rcvGo (v : Word32) (r : ImageReport)
  | rcvAbort
  | reflashDone
  | fuseBurn
  | lmsReservation
  | newNonce
  | submit
  | tokenCheckDone (ecdsaOk hssOk : Bool)
  | relock
  | getVersion
  | getCapabilities
  | negotiateAlgorithms (p384 sha384 : Bool)
  | getDigests
  | getCertificate (slot : Byte) (off len : Nat)
  | challenge (slot : Byte)
  | getMeasurements (index : Byte)
  | vendorDefinedRequest (ask : VendorAsk)
  | spdmUnsupportedRequest (code : Byte)
  | entdaa (addr : BitVec 7)
  | setdasa (addr : BitVec 7)
  | setaasa
  | rstdaa
  | setEndpointId (eid : Byte)
  | getEndpointId
  | getMctpVersionSupport (msgType : Byte)
  | getMessageTypeSupport
  | getEndpointUuid
  | gettid
  | getpldmversion (pldmType : Byte)
  | getpldmtypes
  | getpldmcommands (pldmType : Byte)
  | seteventreceiver (eid : Byte)
  | pollforplatformeventmessage
  | platformeventmessageAck (a : PldmAck)
  | getpdr (handle : Nat)
  | sensorReading (sensor : BitVec 16)
  | firmwareDataReceive (data : List Byte) (last : Bool) (r : ImageReport)
  | activatefirmware
  | pctrWrap (c : CoreId) (k : Fin 8)
  | htabW0Write (ctx : Fin 16) (h : Fin 64) (v : Word64)
  | htabW1Write (ctx : Fin 16) (h : Fin 64) (v : Word64)
  | dbgHalt (c : CoreId)
  | dbgStep (c : CoreId)
  | dbgRegDataWrite (c : CoreId) (v : Word64)
  | mswi (c : CoreId)
  | sswi (c : CoreId)
  | dbgSynSet (v : SynSet)
  | meshLinkFail (router : TileId) (dir : Fin 4)
  | refclkPresent
  | nearRepairDone (n : TileId)
  | retrainSliceEnd (p : PortId) (cut : Bool)
  | ackIntervalExpiry (l : LinkId) (b : BundleId)
  | updateCancel
  | atomicReturn (c : CoreId)
deriving DecidableEq, Repr

end Sys2Proof
end

