-- ==== Sys2Proof/WellFormed.lean ====
section
/-! DEFINITION. Which commands spell what their row names: an instruction's word carries its own opcode (03 R118-R122,
R125, R126, R135, R138, R140, R142, R153, R159, R161, 05 R200, R207, R212, 06 R228, R241, 08 R322, 11 R393, 12 R428,
R438, R446), the sub-unit of a word in error is one of the mesh's (00 R22, 10 R385), and the lists of the other rows have
the lengths that their rules give (15 R502, R511, 16 R531, 17 R583, R587, 20 R656). -/

namespace Sys2Proof

open Sys2Proof.Machine

/-- Whether a word has this major opcode and no reserved function. -/
def isWord (w : Word32) (major : Nat) : Bool := majorOf w == major && !reservedWord w

/-- Whether what a packet met names a sub-unit of a router. -/
def Transit.named : Transit → Bool
  | .clean => true
  | .corrected _ x | .poisoned _ x => decide (x ≤ 4) || x == 0x20 || x == 0x21

/-- The same of a packet and of the answer to it. -/
def RoundTrip.named (t : RoundTrip) : Bool := t.out.named && t.back.named

/-- A well-formed command. -/
def Instr.wf : Instr → Bool
  | .coldSequencing => true
  | .railRegulated => true
  | .railTimeout => true
  | .railSequenceRetry => true
  | .onDieFillDone => true
  | .nearFillDone => true
  | .modResetAssert => true
  | .modResetRelease => true
  | .rst _ _ _ => true
  | .rstDelayExpiry => true
  | .rstResetEnd => true
  | .engineReset _ => true
  | .contextReset _ => true
  | .engineResetDone _ _ => true
  | .registerWrite _ _ _ _ => true
  | .rcRegisterRead _ _ _ _ => true
  | .mshDistSvcWrite _ => true
  | .kilnTick _ => true
  | .frameSyncEdge _ => true
  | .syncWindowExpiry _ => true
  | .acquisitionTimeout _ => true
  | .frameCtlWrite _ => true
  | .abortGraceExpiry _ => true
  | .queueEnable _ _ => true
  | .queueDisable _ => true
  | .doorbellWrite _ _ => true
  | .db _ _ _ => true
  | .headerFetch _ hv => hv.mesh.all (·.named)
  | .nop _ hv => hv.mesh.all (·.named)
  | .sigCommand _ hv => hv.mesh.all (·.named)
  | .waitCommand _ hv => hv.mesh.all (·.named)
  | .decCommand _ hv => hv.mesh.all (·.named)
  | .launch _ hv => hv.mesh.all (·.named)
  | .kernelLaunch _ => true
  | .copy _ hv => hv.mesh.all (·.named)
  | .completionRecordWrite q => q.mesh.all (·.named)
  | .coalesceTimerExpiry _ => true
  | .ringEnable _ _ => true
  | .ringDisable _ => true
  | .crheadWrite _ _ => true
  | .repairGrant => true
  | .add _ w => isWord w 0x00 && fld w 5 0 == 0x0
  | .sub _ w => isWord w 0x00 && fld w 5 0 == 0x1
  | .and _ w => isWord w 0x00 && fld w 5 0 == 0x2
  | .or _ w => isWord w 0x00 && fld w 5 0 == 0x3
  | .xor _ w => isWord w 0x00 && fld w 5 0 == 0x4
  | .andn _ w => isWord w 0x00 && fld w 5 0 == 0x5
  | .slt _ w => isWord w 0x00 && fld w 5 0 == 0x6
  | .sltu _ w => isWord w 0x00 && fld w 5 0 == 0x7
  | .sll _ w => isWord w 0x00 && fld w 5 0 == 0x8
  | .srl _ w => isWord w 0x00 && fld w 5 0 == 0x9
  | .sra _ w => isWord w 0x00 && fld w 5 0 == 0xA
  | .slli _ w => isWord w 0x00 && fld w 5 0 == 0xB
  | .srli _ w => isWord w 0x00 && fld w 5 0 == 0xC
  | .srai _ w => isWord w 0x00 && fld w 5 0 == 0xD
  | .min _ w => isWord w 0x00 && fld w 5 0 == 0xE
  | .max _ w => isWord w 0x00 && fld w 5 0 == 0xF
  | .minu _ w => isWord w 0x00 && fld w 5 0 == 0x10
  | .maxu _ w => isWord w 0x00 && fld w 5 0 == 0x11
  | .clz _ w => isWord w 0x00 && fld w 5 0 == 0x12
  | .ctz _ w => isWord w 0x00 && fld w 5 0 == 0x13
  | .popc _ w => isWord w 0x00 && fld w 5 0 == 0x14
  | .sextw _ w => isWord w 0x00 && fld w 5 0 == 0x15
  | .zextw _ w => isWord w 0x00 && fld w 5 0 == 0x16
  | .addi _ w => isWord w 0x01
  | .andi _ w => isWord w 0x02
  | .ori _ w => isWord w 0x03
  | .xori _ w => isWord w 0x04
  | .lui _ w => isWord w 0x05
  | .lsi _ w => isWord w 0x06
  | .slti _ w => isWord w 0x07
  | .mul _ w => isWord w 0x14 && fld w 11 0 == 0x0
  | .mulh _ w => isWord w 0x14 && fld w 11 0 == 0x1
  | .mulhu _ w => isWord w 0x14 && fld w 11 0 == 0x2
  | .div _ w => isWord w 0x14 && fld w 11 0 == 0x3
  | .divu _ w => isWord w 0x14 && fld w 11 0 == 0x4
  | .rem _ w => isWord w 0x14 && fld w 11 0 == 0x5
  | .remu _ w => isWord w 0x14 && fld w 11 0 == 0x6
  | .divideComplete _ => true
  | .beq _ w => isWord w 0x0A && fld w 16 14 == 0x0
  | .bne _ w => isWord w 0x0A && fld w 16 14 == 0x1
  | .blt _ w => isWord w 0x0A && fld w 16 14 == 0x2
  | .bge _ w => isWord w 0x0A && fld w 16 14 == 0x3
  | .bltu _ w => isWord w 0x0A && fld w 16 14 == 0x4
  | .bgeu _ w => isWord w 0x0A && fld w 16 14 == 0x5
  | .j _ w => isWord w 0x0B
  | .jal _ w => isWord w 0x0C
  | .jr _ w => isWord w 0x0D && fld w 11 0 == 0x0
  | .jalr _ w => isWord w 0x0D && fld w 11 0 == 0x1
  | .ld _ w _ => isWord w 0x08
  | .st _ w _ => isWord w 0x09
  | .loadDataReturn _ _ => true
  | .interruptTaken _ => true
  | .nanTrapDeferred _ => true
  | .cget _ w => isWord w 0x0E && fld w 11 10 == 0x0
  | .cput _ w => isWord w.word 0x0E && fld w.word 11 10 == 0x1
  | .cupd _ w => isWord w.word 0x0E && fld w.word 11 10 == 0x2
  | .sys _ w => isWord w 0x0F && fld w 11 0 == 0x0
  | .mark _ w => isWord w 0x0F && fld w 11 0 == 0x1
  | .exit _ w => isWord w.word 0x0F && fld w.word 11 0 == 0x2
  | .resume _ w => isWord w.word 0x0F && fld w.word 11 0 == 0x3
  | .idle _ w => isWord w 0x0F && fld w 11 0 == 0x4
  | .idleWake _ => true
  | .sld _ w => isWord w.word 0x10 && fld w.word 3 0 == 0x0
  | .snarrow _ w => isWord w 0x10 && fld w 3 0 == 0x1
  | .sdrop _ w => isWord w 0x10 && fld w 3 0 == 0x2
  | .srdb _ w => isWord w 0x10 && fld w 3 0 == 0x3
  | .srdl _ w => isWord w 0x10 && fld w 3 0 == 0x4
  | .srda _ w => isWord w 0x10 && fld w 3 0 == 0x5
  | .swr _ w => isWord w 0x10 && fld w 3 0 == 0x6
  | .lpset _ w => isWord w 0x11
  | .blkMov _ w _ _ => isWord w 0x12 && fld w 11 9 == 0x0
  | .blkFill _ w _ _ => isWord w 0x12 && fld w 11 9 == 0x1
  | .blkCmp _ w _ _ => isWord w 0x12 && fld w 11 9 == 0x2
  | .blkScan _ w _ _ => isWord w 0x12 && fld w 11 9 == 0x3
  | .blkMac _ w _ _ => isWord w 0x12 && fld w 11 9 == 0x4
  | .mac2mVector _ w _ _ => isWord w 0x13 && fld w 11 11 == 0x0
  | .mac2mTile _ w _ _ => isWord w 0x13 && fld w 11 11 == 0x1
  | .tkInit _ w => isWord w 0x1C && fld w 11 0 == 0x0
  | .tkPush _ w => isWord w 0x1C && fld w 11 0 == 0x1
  | .tkPushv _ w => isWord w 0x1C && fld w 11 0 == 0x2
  | .tkRd _ w => isWord w 0x1C && fld w 11 0 == 0x3
  | .tkCnt _ w => isWord w 0x1C && fld w 11 0 == 0x4
  | .tkThr _ w => isWord w 0x1C && fld w 11 0 == 0x5
  | .skHam _ w => isWord w 0x1D && fld w 11 0 == 0x0
  | .skHam2 _ w => isWord w 0x1D && fld w 11 0 == 0x1
  | .skHam4 _ w => isWord w 0x1D && fld w 11 0 == 0x2
  | .skSign _ w => isWord w 0x1D && fld w 11 0 == 0x10
  | .hsCrc _ w => isWord w 0x1D && fld w 11 0 == 0x20
  | .hsCrcw _ w => isWord w 0x1D && fld w 11 0 == 0x21
  | .hsMix _ w => isWord w 0x1D && fld w 11 0 == 0x30
  | .vadd _ w => isWord w 0x15 && fld w 11 6 == 0x0
  | .vsub _ w => isWord w 0x15 && fld w 11 6 == 0x1
  | .vmul _ w _ => isWord w 0x15 && fld w 11 6 == 0x2
  | .vfma _ w _ => isWord w 0x15 && fld w 11 6 == 0x3
  | .vfms _ w _ => isWord w 0x15 && fld w 11 6 == 0x4
  | .vmax _ w => isWord w 0x15 && fld w 11 6 == 0x5
  | .vmin _ w => isWord w 0x15 && fld w 11 6 == 0x6
  | .vabs _ w => isWord w 0x15 && fld w 11 6 == 0x7
  | .vneg _ w => isWord w 0x15 && fld w 11 6 == 0x8
  | .vand _ w => isWord w 0x15 && fld w 11 6 == 0x9
  | .vor _ w => isWord w 0x15 && fld w 11 6 == 0xA
  | .vxor _ w => isWord w 0x15 && fld w 11 6 == 0xB
  | .vsll _ w => isWord w 0x15 && fld w 11 6 == 0xC
  | .vsrl _ w => isWord w 0x15 && fld w 11 6 == 0xD
  | .vsra _ w => isWord w 0x15 && fld w 11 6 == 0xE
  | .vcmp _ w => isWord w 0x15 && fld w 11 6 == 0x10
  | .vbsel _ w => isWord w 0x15 && fld w 11 6 == 0x11
  | .vperm _ w => isWord w 0x15 && fld w 11 6 == 0x12
  | .vslide _ w => isWord w 0x15 && fld w 11 6 == 0x13
  | .vzip _ w => isWord w 0x15 && fld w 11 6 == 0x14
  | .vuzp _ w => isWord w 0x15 && fld w 11 6 == 0x15
  | .vsplat _ w => isWord w 0x15 && fld w 11 6 == 0x16
  | .vext _ w => isWord w 0x15 && fld w 11 6 == 0x17
  | .vins _ w => isWord w 0x15 && fld w 11 6 == 0x18
  | .vmov _ w => isWord w 0x15 && fld w 11 6 == 0x19
  | .vrsum _ w => isWord w 0x15 && fld w 11 6 == 0x20
  | .vrmax _ w => isWord w 0x15 && fld w 11 6 == 0x21
  | .vrmin _ w => isWord w 0x15 && fld w 11 6 == 0x22
  | .vrmaxa _ w => isWord w 0x15 && fld w 11 6 == 0x23
  | .vrarg _ w => isWord w 0x15 && fld w 11 6 == 0x24
  | .vexp2 _ w => isWord w 0x15 && fld w 11 6 == 0x28
  | .vlog2 _ w => isWord w 0x15 && fld w 11 6 == 0x29
  | .vrcp _ w => isWord w 0x15 && fld w 11 6 == 0x2A
  | .vrsqrt _ w => isWord w 0x15 && fld w 11 6 == 0x2B
  | .vscl _ w => isWord w 0x15 && fld w 11 6 == 0x2C
  | .vitof _ w => isWord w 0x15 && fld w 11 6 == 0x2D
  | .vftoi _ w => isWord w 0x15 && fld w 11 6 == 0x2E
  | .vectorConversion _ w => isWord w 0x15 && fld w 11 10 == 0x3
  | .vld _ w _ => isWord w 0x16 && fld w 11 11 == 0x0 && fld w 13 12 == 0x0
  | .vst _ w _ => isWord w 0x16 && fld w 11 11 == 0x0 && fld w 13 12 == 0x1
  | .vlds _ w _ => isWord w 0x16 && fld w 11 11 == 0x1 && fld w 7 5 == 0x0
  | .vsts _ w _ => isWord w 0x16 && fld w 11 11 == 0x1 && fld w 7 5 == 0x1
  | .vldt _ w _ => isWord w 0x16 && fld w 11 11 == 0x1 && fld w 7 5 == 0x2
  | .vstt _ w _ => isWord w 0x16 && fld w 11 11 == 0x1 && fld w 7 5 == 0x3
  | .tld _ w _ _ => isWord w 0x18 && fld w 11 9 == 0x0
  | .tst _ w _ _ => isWord w 0x18 && fld w 11 9 == 0x1
  | .tldt _ w _ _ => isWord w 0x18 && fld w 11 9 == 0x2
  | .tldz _ w _ _ => isWord w 0x18 && fld w 11 9 == 0x3
  | .tland _ w => isWord w 0x18 && fld w 11 9 == 0x4
  | .landingComplete _ _ _ => true
  | .tmma _ w => isWord w 0x17 && fld w 11 8 == 0x0
  | .tmmaExecute _ _ => true
  | .aclr _ w => isWord w 0x17 && fld w 11 8 == 0x1
  | .trel _ w => isWord w 0x17 && fld w 11 8 == 0x2
  | .tacc2v _ w => isWord w 0x17 && fld w 11 8 == 0x3
  | .tv2acc _ w => isWord w 0x17 && fld w 11 8 == 0x4
  | .tocc _ w => isWord w 0x17 && fld w 11 8 == 0x5
  | .tstat _ w => isWord w 0x17 && fld w 11 8 == 0x6
  | .tcfg _ w => isWord w 0x17 && fld w 11 8 == 0x7
  | .rxopen _ w => isWord w 0x19 && fld w 11 8 == 0x0
  | .rxclose _ w => isWord w 0x19 && fld w 11 8 == 0x1
  | .chopen _ w => isWord w 0x19 && fld w 11 8 == 0x2
  | .chclose _ w => isWord w 0x19 && fld w 11 8 == 0x3
  | .chsend _ w _ => isWord w 0x19 && fld w 11 8 == 0x4
  | .chrecv _ w => isWord w 0x19 && fld w 11 8 == 0x5
  | .chdone _ w => isWord w 0x19 && fld w 11 8 == 0x6
  | .chsel _ w => isWord w 0x19 && fld w 11 8 == 0x7
  | .dgring _ w => isWord w 0x19 && fld w 11 8 == 0x8
  | .dgsend _ w _ => isWord w 0x19 && fld w 11 8 == 0x9
  | .dgsendm _ w _ => isWord w 0x19 && fld w 11 8 == 0xA
  | .mcwr _ w _ => isWord w 0x19 && fld w 11 8 == 0xB
  | .cbsend _ w _ => isWord w 0x19 && fld w 11 8 == 0xC
  | .openRequestArrival _ dst => dst.mesh.named
  | .openReplyArrival _ dst => dst.mesh.named
  | .messageArrival _ _ t => t.named
  | .spaceUpdateArrival _ dst => dst.mesh.named
  | .endMarkerArrival _ dst => dst.mesh.named
  | .closeNoticeArrival _ dst => dst.mesh.named
  | .datagramArrival _ _ t => t.named
  | .datagramAnswerArrival _ dst => dst.mesh.named
  | .combineDelivery dst => dst.mesh.named
  | .amoAdd _ w _ => isWord w 0x1A && fld w 11 9 == 0x4 && fld w 7 5 == 0x0
  | .amoSwap _ w _ => isWord w 0x1A && fld w 11 9 == 0x4 && fld w 7 5 == 0x1
  | .amoCas _ w _ => isWord w 0x1A && fld w 11 9 == 0x4 && fld w 7 5 == 0x2
  | .amoAnd _ w _ => isWord w 0x1A && fld w 11 9 == 0x4 && fld w 7 5 == 0x3
  | .amoOr _ w _ => isWord w 0x1A && fld w 11 9 == 0x4 && fld w 7 5 == 0x4
  | .amoXor _ w _ => isWord w 0x1A && fld w 11 9 == 0x4 && fld w 7 5 == 0x5
  | .amoMax _ w _ => isWord w 0x1A && fld w 11 9 == 0x4 && fld w 7 5 == 0x6
  | .amoMin _ w _ => isWord w 0x1A && fld w 11 9 == 0x4 && fld w 7 5 == 0x7
  | .sig _ w => isWord w.word 0x1A && fld w.word 11 8 == 0x0
  | .wait _ w => isWord w 0x1A && fld w 11 8 == 0x1
  | .dec _ w => isWord w 0x1A && fld w 11 8 == 0x2
  | .sread _ w => isWord w 0x1A && fld w 11 8 == 0x3
  | .syncOpArrival _ issuers => issuers.all (·.mesh.named)
  | .syncAnswerArrival c => c.mesh.named
  | .syncGrantArrival a => a.mesh.named
  | .fenceRel _ w => isWord w.word 0x1B && fld w.word 11 8 == 0x8
  | .fenceAcq _ w => isWord w.word 0x1B && fld w.word 11 8 == 0x9
  | .fenceAr _ w => isWord w.word 0x1B && fld w.word 11 8 == 0xA
  | .dcInv _ w => isWord w 0x1B && fld w 11 8 == 0x0
  | .dcClean _ w => isWord w.word 0x1B && fld w.word 11 8 == 0x1
  | .dcFlush _ w => isWord w.word 0x1B && fld w.word 11 8 == 0x2
  | .dcAll _ w => isWord w.word 0x1B && fld w.word 11 8 == 0x3
  | .icAll _ w => isWord w 0x1B && fld w 11 8 == 0x4
  | .pf _ w => isWord w 0x1B && fld w 11 8 == 0x5
  | .cacheFillArrival _ _ _ => true
  | .writeAckArrival _ => true
  | .sweeperRead _ _ => true
  | .scratchpadRemoteAccess _ _ r => r.inbound.named && r.answer.named
  | .nearMemoryRequest _ _ r => r.inbound.named && r.answer.named
  | .farMemoryRequest _ _ r => r.inbound.named && r.answer.named
  | .nearRefresh _ _ => true
  | .farRefresh _ _ => true
  | .calibrationDue _ _ => true
  | .oscTracking _ _ => true
  | .retrainSlice _ => true
  | .calDeadlineExpiry _ _ => true
  | .nmcRepairGo _ _ => true
  | .nearRowRepair _ => true
  | .fmcRepairGo _ _ => true
  | .farRepairDone _ _ => true
  | .fmcMapStart _ => true
  | .farTrainingDone _ _ => true
  | .farFillDone _ => true
  | .farChannelFail _ => true
  | .farScrubGroup _ _ => true
  | .nearScrubRow _ _ => true
  | .swath _ hv => hv.mesh.all (·.named)
  | .mowerScanDone _ _ => true
  | .sieveResultArrival _ t => t.named
  | .readyWordWrite => true
  | .snapshot _ hv => hv.mesh.all (·.named)
  | .resync _ hv => hv.mesh.all (·.named)
  | .resyncStreamEnd => true
  | .multicastWriteArrival _ _ _ t => t.named
  | .combineArrival _ _ r => r.transit.named
  | .combineHoldExpiry _ _ => true
  | .detWaitExpiry _ _ => true
  | .mshMonSelWrite _ _ => true
  | .linkDetect _ _ _ => true
  | .equalisationDone _ _ => true
  | .alignmentDone _ _ _ _ _ => true
  | .fecLock _ _ _ => true
  | .flitInit _ _ _ _ _ => true
  | .trainingTimeout _ _ => true
  | .codewordReceive _ _ _ => true
  | .flitReceive _ _ f => f.slots.length == 240
  | .ackTimeout _ _ => true
  | .bctlRetrain _ _ => true
  | .bctlDisable _ _ => true
  | .hrd _ _ _ _ len _ e => decide (1 ≤ len) && e.inbound.named && e.answer.named
  | .hwr _ _ _ data _ _ e => !data.isEmpty && e.inbound.named && e.answer.named
  | .placed _ _ _ _ => true
  | .cpl _ _ => true
  | .cple _ _ => true
  | .cplTimeout _ => true
  | .placedTimeout _ _ => true
  | .pairingStart => true
  | .mpair _ _ _ => true
  | .pairingTimeout => true
  | .fsync _ _ _ => true
  | .closeMarkArrival _ src => src.mesh.named
  | .mfwd _ _ _ data _ => decide (1 ≤ data.length ∧ data.length ≤ 256)
  | .mepoch _ _ _ _ _ _ => true
  | .mack _ _ => true
  | .mhb _ _ _ _ => true
  | .heartbeatTimeout _ => true
  | .witnessRead hv _ => hv.mesh.all (·.named)
  | .mgasp _ _ => true
  | .hearthSample _ _ _ _ => true
  | .req38End => true
  | .phaseShed _ _ => true
  | .vcoreTrim _ => true
  | .rippleWindow _ _ _ _ => true
  | .waveArm _ => true
  | .waveSwTrig => true
  | .waveCaptureDone => true
  | .thermalConversion temps => temps.length == 96
  | .dramReading temps => temps.length == 40
  | .idleLatchTimer counts => counts.length == 24
  | .throttleRequestFall _ => true
  | .droopTrip _ => true
  | .droopRequestEnd => true
  | .riskHoldExpiry _ => true
  | .parityHalt _ => true
  | .commandParityError _ => true
  | .copyParityError _ => true
  | .replayStart _ => true
  | .fallowSegment _ _ _ _ => true
  | .errorRecord => true
  | .coalesceWindowExpiry _ _ => true
  | .hostRingCopy => true
  | .historyWrite => true
  | .rasRetiredWrite _ _ => true
  | .romStart => true
  | .imageCheckDone _ => true
  | .ready => true
  | .rcvGo _ _ => true
  | .rcvAbort => true
  | .reflashDone => true
  | .fuseBurn => true
  | .lmsReservation => true
  | .newNonce => true
  | .submit => true
  | .tokenCheckDone _ _ => true
  | .relock => true
  | .getVersion => true
  | .getCapabilities => true
  | .negotiateAlgorithms _ _ => true
  | .getDigests => true
  | .getCertificate _ _ _ => true
  | .challenge _ => true
  | .getMeasurements _ => true
  | .vendorDefinedRequest _ => true
  | .spdmUnsupportedRequest _ => true
  | .entdaa _ => true
  | .setdasa _ => true
  | .setaasa => true
  | .rstdaa => true
  | .setEndpointId _ => true
  | .getEndpointId => true
  | .getMctpVersionSupport _ => true
  | .getMessageTypeSupport => true
  | .getEndpointUuid => true
  | .gettid => true
  | .getpldmversion _ => true
  | .getpldmtypes => true
  | .getpldmcommands _ => true
  | .seteventreceiver _ => true
  | .pollforplatformeventmessage => true
  | .platformeventmessageAck _ => true
  | .getpdr _ => true
  | .sensorReading _ => true
  | .firmwareDataReceive data _ _ => decide (1 ≤ data.length)
  | .activatefirmware => true
  | .pctrWrap _ _ => true
  | .htabW0Write _ _ _ => true
  | .htabW1Write _ _ _ => true
  | .dbgHalt _ => true
  | .dbgStep _ => true
  | .dbgRegDataWrite _ _ => true
  | .mswi _ => true
  | .sswi _ => true
  | .dbgSynSet v => v.issuers.all (·.mesh.named)
  | .meshLinkFail _ _ => true
  | .refclkPresent => true
  | .nearRepairDone _ => true
  | .retrainSliceEnd _ _ => true
  | .ackIntervalExpiry _ _ => true
  | .updateCancel => true
  | .atomicReturn _ => true

end Sys2Proof
end

