-- ==== Sys2Proof/Decode.lean ====
section
/-! DEFINITION. The decoder over the opcode table, and the opcode map of the core's instruction words (03 R118-R122, R125,
R126, R135, R138, R140, R142, R153, R159, R161, 05 R198, R200, R207, R212, 06 R228, R241, 08 R322, 11 R393, 12 R428, R438,
R446). -/

namespace Sys2Proof

open Sys2Proof.Machine

/-- No row of spec/opcode_table.json gives bits, so no word spells a command. -/
def decodeTableWord (_nbits _w : Nat) : Option Instr := none

/-! ## The core's instruction words -/

/-- A row of the opcode map: the major opcode, the function fields as (high bit, low bit, value), and the command of a core
and its word, with nothing found by its accesses. -/
structure CoreRow where
  major : Nat
  fields : List (Nat × Nat × Nat)
  cmd : CoreId → Word32 → Instr

/-- Whether a word has the major opcode and the function fields of a row. -/
def CoreRow.fits (r : CoreRow) (w : Word32) : Bool :=
  majorOf w == r.major && r.fields.all (fun p => fld w p.1 p.2.1 == p.2.2)

/-- The rows of the opcode map, in pieces. -/
def coreRows0 : List CoreRow :=
  [⟨0x00, [(5, 0, 0x0)], fun c w => .add c w⟩,
   ⟨0x00, [(5, 0, 0x1)], fun c w => .sub c w⟩,
   ⟨0x00, [(5, 0, 0x2)], fun c w => .and c w⟩,
   ⟨0x00, [(5, 0, 0x3)], fun c w => .or c w⟩,
   ⟨0x00, [(5, 0, 0x4)], fun c w => .xor c w⟩,
   ⟨0x00, [(5, 0, 0x5)], fun c w => .andn c w⟩,
   ⟨0x00, [(5, 0, 0x6)], fun c w => .slt c w⟩,
   ⟨0x00, [(5, 0, 0x7)], fun c w => .sltu c w⟩,
   ⟨0x00, [(5, 0, 0x8)], fun c w => .sll c w⟩,
   ⟨0x00, [(5, 0, 0x9)], fun c w => .srl c w⟩,
   ⟨0x00, [(5, 0, 0xA)], fun c w => .sra c w⟩,
   ⟨0x00, [(5, 0, 0xB)], fun c w => .slli c w⟩,
   ⟨0x00, [(5, 0, 0xC)], fun c w => .srli c w⟩,
   ⟨0x00, [(5, 0, 0xD)], fun c w => .srai c w⟩,
   ⟨0x00, [(5, 0, 0xE)], fun c w => .min c w⟩,
   ⟨0x00, [(5, 0, 0xF)], fun c w => .max c w⟩,
   ⟨0x00, [(5, 0, 0x10)], fun c w => .minu c w⟩,
   ⟨0x00, [(5, 0, 0x11)], fun c w => .maxu c w⟩,
   ⟨0x00, [(5, 0, 0x12)], fun c w => .clz c w⟩,
   ⟨0x00, [(5, 0, 0x13)], fun c w => .ctz c w⟩,
   ⟨0x00, [(5, 0, 0x14)], fun c w => .popc c w⟩,
   ⟨0x00, [(5, 0, 0x15)], fun c w => .sextw c w⟩,
   ⟨0x00, [(5, 0, 0x16)], fun c w => .zextw c w⟩,
   ⟨0x01, [], fun c w => .addi c w⟩,
   ⟨0x02, [], fun c w => .andi c w⟩,
   ⟨0x03, [], fun c w => .ori c w⟩,
   ⟨0x04, [], fun c w => .xori c w⟩,
   ⟨0x05, [], fun c w => .lui c w⟩,
   ⟨0x06, [], fun c w => .lsi c w⟩,
   ⟨0x07, [], fun c w => .slti c w⟩,
   ⟨0x14, [(11, 0, 0x0)], fun c w => .mul c w⟩,
   ⟨0x14, [(11, 0, 0x1)], fun c w => .mulh c w⟩,
   ⟨0x14, [(11, 0, 0x2)], fun c w => .mulhu c w⟩,
   ⟨0x14, [(11, 0, 0x3)], fun c w => .div c w⟩]

/-- The next rows. -/
def coreRows1 : List CoreRow :=
  [⟨0x14, [(11, 0, 0x4)], fun c w => .divu c w⟩,
   ⟨0x14, [(11, 0, 0x5)], fun c w => .rem c w⟩,
   ⟨0x14, [(11, 0, 0x6)], fun c w => .remu c w⟩,
   ⟨0x0A, [(16, 14, 0x0)], fun c w => .beq c w⟩,
   ⟨0x0A, [(16, 14, 0x1)], fun c w => .bne c w⟩,
   ⟨0x0A, [(16, 14, 0x2)], fun c w => .blt c w⟩,
   ⟨0x0A, [(16, 14, 0x3)], fun c w => .bge c w⟩,
   ⟨0x0A, [(16, 14, 0x4)], fun c w => .bltu c w⟩,
   ⟨0x0A, [(16, 14, 0x5)], fun c w => .bgeu c w⟩,
   ⟨0x0B, [], fun c w => .j c w⟩,
   ⟨0x0C, [], fun c w => .jal c w⟩,
   ⟨0x0D, [(11, 0, 0x0)], fun c w => .jr c w⟩,
   ⟨0x0D, [(11, 0, 0x1)], fun c w => .jalr c w⟩,
   ⟨0x08, [], fun c w => .ld c w .clean⟩,
   ⟨0x09, [], fun c w => .st c w .clean⟩,
   ⟨0x0E, [(11, 10, 0x0)], fun c w => .cget c w⟩,
   ⟨0x0E, [(11, 10, 0x1)], fun c w => .cput c ⟨w, false⟩⟩,
   ⟨0x0E, [(11, 10, 0x2)], fun c w => .cupd c ⟨w, false⟩⟩,
   ⟨0x0F, [(11, 0, 0x0)], fun c w => .sys c w⟩,
   ⟨0x0F, [(11, 0, 0x1)], fun c w => .mark c w⟩,
   ⟨0x0F, [(11, 0, 0x2)], fun c w => .exit c ⟨w, .clean⟩⟩,
   ⟨0x0F, [(11, 0, 0x3)], fun c w => .resume c ⟨w, false⟩⟩,
   ⟨0x0F, [(11, 0, 0x4)], fun c w => .idle c w⟩,
   ⟨0x10, [(3, 0, 0x0)], fun c w => .sld c ⟨w, false⟩⟩,
   ⟨0x10, [(3, 0, 0x1)], fun c w => .snarrow c w⟩,
   ⟨0x10, [(3, 0, 0x2)], fun c w => .sdrop c w⟩,
   ⟨0x10, [(3, 0, 0x3)], fun c w => .srdb c w⟩,
   ⟨0x10, [(3, 0, 0x4)], fun c w => .srdl c w⟩,
   ⟨0x10, [(3, 0, 0x5)], fun c w => .srda c w⟩,
   ⟨0x10, [(3, 0, 0x6)], fun c w => .swr c w⟩,
   ⟨0x11, [], fun c w => .lpset c w⟩,
   ⟨0x12, [(11, 9, 0x0)], fun c w => .blkMov c w 0 .clean⟩,
   ⟨0x12, [(11, 9, 0x1)], fun c w => .blkFill c w 0 .clean⟩,
   ⟨0x12, [(11, 9, 0x2)], fun c w => .blkCmp c w 0 .clean⟩]

/-- The next rows. -/
def coreRows2 : List CoreRow :=
  [⟨0x12, [(11, 9, 0x3)], fun c w => .blkScan c w 0 .clean⟩,
   ⟨0x12, [(11, 9, 0x4)], fun c w => .blkMac c w 0 .clean⟩,
   ⟨0x13, [(11, 11, 0x0)], fun c w => .mac2mVector c w (.clean, .clean) false⟩,
   ⟨0x13, [(11, 11, 0x1)], fun c w => .mac2mTile c w .clean .clean⟩,
   ⟨0x1C, [(11, 0, 0x0)], fun c w => .tkInit c w⟩,
   ⟨0x1C, [(11, 0, 0x1)], fun c w => .tkPush c w⟩,
   ⟨0x1C, [(11, 0, 0x2)], fun c w => .tkPushv c w⟩,
   ⟨0x1C, [(11, 0, 0x3)], fun c w => .tkRd c w⟩,
   ⟨0x1C, [(11, 0, 0x4)], fun c w => .tkCnt c w⟩,
   ⟨0x1C, [(11, 0, 0x5)], fun c w => .tkThr c w⟩,
   ⟨0x1D, [(11, 0, 0x0)], fun c w => .skHam c w⟩,
   ⟨0x1D, [(11, 0, 0x1)], fun c w => .skHam2 c w⟩,
   ⟨0x1D, [(11, 0, 0x2)], fun c w => .skHam4 c w⟩,
   ⟨0x1D, [(11, 0, 0x10)], fun c w => .skSign c w⟩,
   ⟨0x1D, [(11, 0, 0x20)], fun c w => .hsCrc c w⟩,
   ⟨0x1D, [(11, 0, 0x21)], fun c w => .hsCrcw c w⟩,
   ⟨0x1D, [(11, 0, 0x30)], fun c w => .hsMix c w⟩,
   ⟨0x15, [(11, 6, 0x0)], fun c w => .vadd c w⟩,
   ⟨0x15, [(11, 6, 0x1)], fun c w => .vsub c w⟩,
   ⟨0x15, [(11, 6, 0x2)], fun c w => .vmul c w false⟩,
   ⟨0x15, [(11, 6, 0x3)], fun c w => .vfma c w false⟩,
   ⟨0x15, [(11, 6, 0x4)], fun c w => .vfms c w false⟩,
   ⟨0x15, [(11, 6, 0x5)], fun c w => .vmax c w⟩,
   ⟨0x15, [(11, 6, 0x6)], fun c w => .vmin c w⟩,
   ⟨0x15, [(11, 6, 0x7)], fun c w => .vabs c w⟩,
   ⟨0x15, [(11, 6, 0x8)], fun c w => .vneg c w⟩,
   ⟨0x15, [(11, 6, 0x9)], fun c w => .vand c w⟩,
   ⟨0x15, [(11, 6, 0xA)], fun c w => .vor c w⟩,
   ⟨0x15, [(11, 6, 0xB)], fun c w => .vxor c w⟩,
   ⟨0x15, [(11, 6, 0xC)], fun c w => .vsll c w⟩,
   ⟨0x15, [(11, 6, 0xD)], fun c w => .vsrl c w⟩,
   ⟨0x15, [(11, 6, 0xE)], fun c w => .vsra c w⟩,
   ⟨0x15, [(11, 6, 0x10)], fun c w => .vcmp c w⟩,
   ⟨0x15, [(11, 6, 0x11)], fun c w => .vbsel c w⟩]

/-- The next rows. -/
def coreRows3 : List CoreRow :=
  [⟨0x15, [(11, 6, 0x12)], fun c w => .vperm c w⟩,
   ⟨0x15, [(11, 6, 0x13)], fun c w => .vslide c w⟩,
   ⟨0x15, [(11, 6, 0x14)], fun c w => .vzip c w⟩,
   ⟨0x15, [(11, 6, 0x15)], fun c w => .vuzp c w⟩,
   ⟨0x15, [(11, 6, 0x16)], fun c w => .vsplat c w⟩,
   ⟨0x15, [(11, 6, 0x17)], fun c w => .vext c w⟩,
   ⟨0x15, [(11, 6, 0x18)], fun c w => .vins c w⟩,
   ⟨0x15, [(11, 6, 0x19)], fun c w => .vmov c w⟩,
   ⟨0x15, [(11, 6, 0x20)], fun c w => .vrsum c w⟩,
   ⟨0x15, [(11, 6, 0x21)], fun c w => .vrmax c w⟩,
   ⟨0x15, [(11, 6, 0x22)], fun c w => .vrmin c w⟩,
   ⟨0x15, [(11, 6, 0x23)], fun c w => .vrmaxa c w⟩,
   ⟨0x15, [(11, 6, 0x24)], fun c w => .vrarg c w⟩,
   ⟨0x15, [(11, 6, 0x28)], fun c w => .vexp2 c w⟩,
   ⟨0x15, [(11, 6, 0x29)], fun c w => .vlog2 c w⟩,
   ⟨0x15, [(11, 6, 0x2A)], fun c w => .vrcp c w⟩,
   ⟨0x15, [(11, 6, 0x2B)], fun c w => .vrsqrt c w⟩,
   ⟨0x15, [(11, 6, 0x2C)], fun c w => .vscl c w⟩,
   ⟨0x15, [(11, 6, 0x2D)], fun c w => .vitof c w⟩,
   ⟨0x15, [(11, 6, 0x2E)], fun c w => .vftoi c w⟩,
   ⟨0x15, [(11, 10, 0x3)], fun c w => .vectorConversion c w⟩,
   ⟨0x16, [(11, 11, 0x0), (13, 12, 0x0)], fun c w => .vld c w .clean⟩,
   ⟨0x16, [(11, 11, 0x0), (13, 12, 0x1)], fun c w => .vst c w .clean⟩,
   ⟨0x16, [(11, 11, 0x1), (7, 5, 0x0)], fun c w => .vlds c w .clean⟩,
   ⟨0x16, [(11, 11, 0x1), (7, 5, 0x1)], fun c w => .vsts c w .clean⟩,
   ⟨0x16, [(11, 11, 0x1), (7, 5, 0x2)], fun c w => .vldt c w .clean⟩,
   ⟨0x16, [(11, 11, 0x1), (7, 5, 0x3)], fun c w => .vstt c w .clean⟩,
   ⟨0x18, [(11, 9, 0x0)], fun c w => .tld c w 0 .clean⟩,
   ⟨0x18, [(11, 9, 0x1)], fun c w => .tst c w 0 .clean⟩,
   ⟨0x18, [(11, 9, 0x2)], fun c w => .tldt c w 0 .clean⟩,
   ⟨0x18, [(11, 9, 0x3)], fun c w => .tldz c w 0 .clean⟩,
   ⟨0x18, [(11, 9, 0x4)], fun c w => .tland c w⟩,
   ⟨0x17, [(11, 8, 0x0)], fun c w => .tmma c w⟩,
   ⟨0x17, [(11, 8, 0x1)], fun c w => .aclr c w⟩]

/-- The next rows. -/
def coreRows4 : List CoreRow :=
  [⟨0x17, [(11, 8, 0x2)], fun c w => .trel c w⟩,
   ⟨0x17, [(11, 8, 0x3)], fun c w => .tacc2v c w⟩,
   ⟨0x17, [(11, 8, 0x4)], fun c w => .tv2acc c w⟩,
   ⟨0x17, [(11, 8, 0x5)], fun c w => .tocc c w⟩,
   ⟨0x17, [(11, 8, 0x6)], fun c w => .tstat c w⟩,
   ⟨0x17, [(11, 8, 0x7)], fun c w => .tcfg c w⟩,
   ⟨0x19, [(11, 8, 0x0)], fun c w => .rxopen c w⟩,
   ⟨0x19, [(11, 8, 0x1)], fun c w => .rxclose c w⟩,
   ⟨0x19, [(11, 8, 0x2)], fun c w => .chopen c w⟩,
   ⟨0x19, [(11, 8, 0x3)], fun c w => .chclose c w⟩,
   ⟨0x19, [(11, 8, 0x4)], fun c w => .chsend c w .clean⟩,
   ⟨0x19, [(11, 8, 0x5)], fun c w => .chrecv c w⟩,
   ⟨0x19, [(11, 8, 0x6)], fun c w => .chdone c w⟩,
   ⟨0x19, [(11, 8, 0x7)], fun c w => .chsel c w⟩,
   ⟨0x19, [(11, 8, 0x8)], fun c w => .dgring c w⟩,
   ⟨0x19, [(11, 8, 0x9)], fun c w => .dgsend c w .clean⟩,
   ⟨0x19, [(11, 8, 0xA)], fun c w => .dgsendm c w .clean⟩,
   ⟨0x19, [(11, 8, 0xB)], fun c w => .mcwr c w .clean⟩,
   ⟨0x19, [(11, 8, 0xC)], fun c w => .cbsend c w .clean⟩,
   ⟨0x1A, [(11, 9, 0x4), (7, 5, 0x0)], fun c w => .amoAdd c w .clean⟩,
   ⟨0x1A, [(11, 9, 0x4), (7, 5, 0x1)], fun c w => .amoSwap c w .clean⟩,
   ⟨0x1A, [(11, 9, 0x4), (7, 5, 0x2)], fun c w => .amoCas c w .clean⟩,
   ⟨0x1A, [(11, 9, 0x4), (7, 5, 0x3)], fun c w => .amoAnd c w .clean⟩,
   ⟨0x1A, [(11, 9, 0x4), (7, 5, 0x4)], fun c w => .amoOr c w .clean⟩,
   ⟨0x1A, [(11, 9, 0x4), (7, 5, 0x5)], fun c w => .amoXor c w .clean⟩,
   ⟨0x1A, [(11, 9, 0x4), (7, 5, 0x6)], fun c w => .amoMax c w .clean⟩,
   ⟨0x1A, [(11, 9, 0x4), (7, 5, 0x7)], fun c w => .amoMin c w .clean⟩,
   ⟨0x1A, [(11, 8, 0x0)], fun c w => .sig c ⟨w, .clean⟩⟩,
   ⟨0x1A, [(11, 8, 0x1)], fun c w => .wait c w⟩,
   ⟨0x1A, [(11, 8, 0x2)], fun c w => .dec c w⟩,
   ⟨0x1A, [(11, 8, 0x3)], fun c w => .sread c w⟩,
   ⟨0x1B, [(11, 8, 0x8)], fun c w => .fenceRel c ⟨w, .clean⟩⟩,
   ⟨0x1B, [(11, 8, 0x9)], fun c w => .fenceAcq c ⟨w, .clean⟩⟩,
   ⟨0x1B, [(11, 8, 0xA)], fun c w => .fenceAr c ⟨w, .clean⟩⟩]

/-- The next rows. -/
def coreRows5 : List CoreRow :=
  [⟨0x1B, [(11, 8, 0x0)], fun c w => .dcInv c w⟩,
   ⟨0x1B, [(11, 8, 0x1)], fun c w => .dcClean c ⟨w, .clean⟩⟩,
   ⟨0x1B, [(11, 8, 0x2)], fun c w => .dcFlush c ⟨w, .clean⟩⟩,
   ⟨0x1B, [(11, 8, 0x3)], fun c w => .dcAll c ⟨w, .clean⟩⟩,
   ⟨0x1B, [(11, 8, 0x4)], fun c w => .icAll c w⟩,
   ⟨0x1B, [(11, 8, 0x5)], fun c w => .pf c w⟩]

/-- The opcode map. -/
def coreRows : List CoreRow := coreRows0 ++ coreRows1 ++ coreRows2 ++ coreRows3 ++ coreRows4 ++ coreRows5

/-- The command that a word spells at a core: none where its major opcode, function or operation code is reserved
(03 R117, R118). -/
def decodeCore (c : CoreId) (w : Word32) : Option Instr :=
  if reservedWord w then none else (coreRows.find? (fun r => r.fits w)).map (fun r => r.cmd c w)

/-- The core and the word of an instruction; other commands carry none. -/
def Instr.word : Instr → Option (CoreId × Word32)
  | .add c w => some (c, w)
  | .sub c w => some (c, w)
  | .and c w => some (c, w)
  | .or c w => some (c, w)
  | .xor c w => some (c, w)
  | .andn c w => some (c, w)
  | .slt c w => some (c, w)
  | .sltu c w => some (c, w)
  | .sll c w => some (c, w)
  | .srl c w => some (c, w)
  | .sra c w => some (c, w)
  | .slli c w => some (c, w)
  | .srli c w => some (c, w)
  | .srai c w => some (c, w)
  | .min c w => some (c, w)
  | .max c w => some (c, w)
  | .minu c w => some (c, w)
  | .maxu c w => some (c, w)
  | .clz c w => some (c, w)
  | .ctz c w => some (c, w)
  | .popc c w => some (c, w)
  | .sextw c w => some (c, w)
  | .zextw c w => some (c, w)
  | .addi c w => some (c, w)
  | .andi c w => some (c, w)
  | .ori c w => some (c, w)
  | .xori c w => some (c, w)
  | .lui c w => some (c, w)
  | .lsi c w => some (c, w)
  | .slti c w => some (c, w)
  | .mul c w => some (c, w)
  | .mulh c w => some (c, w)
  | .mulhu c w => some (c, w)
  | .div c w => some (c, w)
  | .divu c w => some (c, w)
  | .rem c w => some (c, w)
  | .remu c w => some (c, w)
  | .beq c w => some (c, w)
  | .bne c w => some (c, w)
  | .blt c w => some (c, w)
  | .bge c w => some (c, w)
  | .bltu c w => some (c, w)
  | .bgeu c w => some (c, w)
  | .j c w => some (c, w)
  | .jal c w => some (c, w)
  | .jr c w => some (c, w)
  | .jalr c w => some (c, w)
  | .ld c w _ => some (c, w)
  | .st c w _ => some (c, w)
  | .cget c w => some (c, w)
  | .cput c w => some (c, w.word)
  | .cupd c w => some (c, w.word)
  | .sys c w => some (c, w)
  | .mark c w => some (c, w)
  | .exit c w => some (c, w.word)
  | .resume c w => some (c, w.word)
  | .idle c w => some (c, w)
  | .sld c w => some (c, w.word)
  | .snarrow c w => some (c, w)
  | .sdrop c w => some (c, w)
  | .srdb c w => some (c, w)
  | .srdl c w => some (c, w)
  | .srda c w => some (c, w)
  | .swr c w => some (c, w)
  | .lpset c w => some (c, w)
  | .blkMov c w _ _ => some (c, w)
  | .blkFill c w _ _ => some (c, w)
  | .blkCmp c w _ _ => some (c, w)
  | .blkScan c w _ _ => some (c, w)
  | .blkMac c w _ _ => some (c, w)
  | .mac2mVector c w _ _ => some (c, w)
  | .mac2mTile c w _ _ => some (c, w)
  | .tkInit c w => some (c, w)
  | .tkPush c w => some (c, w)
  | .tkPushv c w => some (c, w)
  | .tkRd c w => some (c, w)
  | .tkCnt c w => some (c, w)
  | .tkThr c w => some (c, w)
  | .skHam c w => some (c, w)
  | .skHam2 c w => some (c, w)
  | .skHam4 c w => some (c, w)
  | .skSign c w => some (c, w)
  | .hsCrc c w => some (c, w)
  | .hsCrcw c w => some (c, w)
  | .hsMix c w => some (c, w)
  | .vadd c w => some (c, w)
  | .vsub c w => some (c, w)
  | .vmul c w _ => some (c, w)
  | .vfma c w _ => some (c, w)
  | .vfms c w _ => some (c, w)
  | .vmax c w => some (c, w)
  | .vmin c w => some (c, w)
  | .vabs c w => some (c, w)
  | .vneg c w => some (c, w)
  | .vand c w => some (c, w)
  | .vor c w => some (c, w)
  | .vxor c w => some (c, w)
  | .vsll c w => some (c, w)
  | .vsrl c w => some (c, w)
  | .vsra c w => some (c, w)
  | .vcmp c w => some (c, w)
  | .vbsel c w => some (c, w)
  | .vperm c w => some (c, w)
  | .vslide c w => some (c, w)
  | .vzip c w => some (c, w)
  | .vuzp c w => some (c, w)
  | .vsplat c w => some (c, w)
  | .vext c w => some (c, w)
  | .vins c w => some (c, w)
  | .vmov c w => some (c, w)
  | .vrsum c w => some (c, w)
  | .vrmax c w => some (c, w)
  | .vrmin c w => some (c, w)
  | .vrmaxa c w => some (c, w)
  | .vrarg c w => some (c, w)
  | .vexp2 c w => some (c, w)
  | .vlog2 c w => some (c, w)
  | .vrcp c w => some (c, w)
  | .vrsqrt c w => some (c, w)
  | .vscl c w => some (c, w)
  | .vitof c w => some (c, w)
  | .vftoi c w => some (c, w)
  | .vectorConversion c w => some (c, w)
  | .vld c w _ => some (c, w)
  | .vst c w _ => some (c, w)
  | .vlds c w _ => some (c, w)
  | .vsts c w _ => some (c, w)
  | .vldt c w _ => some (c, w)
  | .vstt c w _ => some (c, w)
  | .tld c w _ _ => some (c, w)
  | .tst c w _ _ => some (c, w)
  | .tldt c w _ _ => some (c, w)
  | .tldz c w _ _ => some (c, w)
  | .tland c w => some (c, w)
  | .tmma c w => some (c, w)
  | .aclr c w => some (c, w)
  | .trel c w => some (c, w)
  | .tacc2v c w => some (c, w)
  | .tv2acc c w => some (c, w)
  | .tocc c w => some (c, w)
  | .tstat c w => some (c, w)
  | .tcfg c w => some (c, w)
  | .rxopen c w => some (c, w)
  | .rxclose c w => some (c, w)
  | .chopen c w => some (c, w)
  | .chclose c w => some (c, w)
  | .chsend c w _ => some (c, w)
  | .chrecv c w => some (c, w)
  | .chdone c w => some (c, w)
  | .chsel c w => some (c, w)
  | .dgring c w => some (c, w)
  | .dgsend c w _ => some (c, w)
  | .dgsendm c w _ => some (c, w)
  | .mcwr c w _ => some (c, w)
  | .cbsend c w _ => some (c, w)
  | .amoAdd c w _ => some (c, w)
  | .amoSwap c w _ => some (c, w)
  | .amoCas c w _ => some (c, w)
  | .amoAnd c w _ => some (c, w)
  | .amoOr c w _ => some (c, w)
  | .amoXor c w _ => some (c, w)
  | .amoMax c w _ => some (c, w)
  | .amoMin c w _ => some (c, w)
  | .sig c w => some (c, w.word)
  | .wait c w => some (c, w)
  | .dec c w => some (c, w)
  | .sread c w => some (c, w)
  | .fenceRel c w => some (c, w.word)
  | .fenceAcq c w => some (c, w.word)
  | .fenceAr c w => some (c, w.word)
  | .dcInv c w => some (c, w)
  | .dcClean c w => some (c, w.word)
  | .dcFlush c w => some (c, w.word)
  | .dcAll c w => some (c, w.word)
  | .icAll c w => some (c, w)
  | .pf c w => some (c, w)
  | .coldSequencing => none
  | .railRegulated => none
  | .railTimeout => none
  | .railSequenceRetry => none
  | .onDieFillDone => none
  | .nearFillDone => none
  | .modResetAssert => none
  | .modResetRelease => none
  | .rst _ _ _ => none
  | .rstDelayExpiry => none
  | .rstResetEnd => none
  | .engineReset _ => none
  | .contextReset _ => none
  | .engineResetDone _ _ => none
  | .registerWrite _ _ _ _ => none
  | .rcRegisterRead _ _ _ _ => none
  | .mshDistSvcWrite _ => none
  | .kilnTick _ => none
  | .frameSyncEdge _ => none
  | .syncWindowExpiry _ => none
  | .acquisitionTimeout _ => none
  | .frameCtlWrite _ => none
  | .abortGraceExpiry _ => none
  | .queueEnable _ _ => none
  | .queueDisable _ => none
  | .doorbellWrite _ _ => none
  | .db _ _ _ => none
  | .headerFetch _ _ => none
  | .nop _ _ => none
  | .sigCommand _ _ => none
  | .waitCommand _ _ => none
  | .decCommand _ _ => none
  | .launch _ _ => none
  | .kernelLaunch _ => none
  | .copy _ _ => none
  | .completionRecordWrite _ => none
  | .coalesceTimerExpiry _ => none
  | .ringEnable _ _ => none
  | .ringDisable _ => none
  | .crheadWrite _ _ => none
  | .repairGrant => none
  | .divideComplete _ => none
  | .loadDataReturn _ _ => none
  | .interruptTaken _ => none
  | .nanTrapDeferred _ => none
  | .idleWake _ => none
  | .landingComplete _ _ _ => none
  | .tmmaExecute _ _ => none
  | .openRequestArrival _ _ => none
  | .openReplyArrival _ _ => none
  | .messageArrival _ _ _ => none
  | .spaceUpdateArrival _ _ => none
  | .endMarkerArrival _ _ => none
  | .closeNoticeArrival _ _ => none
  | .datagramArrival _ _ _ => none
  | .datagramAnswerArrival _ _ => none
  | .combineDelivery _ => none
  | .syncOpArrival _ _ => none
  | .syncAnswerArrival _ => none
  | .syncGrantArrival _ => none
  | .cacheFillArrival _ _ _ => none
  | .writeAckArrival _ => none
  | .sweeperRead _ _ => none
  | .scratchpadRemoteAccess _ _ _ => none
  | .nearMemoryRequest _ _ _ => none
  | .farMemoryRequest _ _ _ => none
  | .nearRefresh _ _ => none
  | .farRefresh _ _ => none
  | .calibrationDue _ _ => none
  | .oscTracking _ _ => none
  | .retrainSlice _ => none
  | .calDeadlineExpiry _ _ => none
  | .nmcRepairGo _ _ => none
  | .nearRowRepair _ => none
  | .fmcRepairGo _ _ => none
  | .farRepairDone _ _ => none
  | .fmcMapStart _ => none
  | .farTrainingDone _ _ => none
  | .farFillDone _ => none
  | .farChannelFail _ => none
  | .farScrubGroup _ _ => none
  | .nearScrubRow _ _ => none
  | .swath _ _ => none
  | .mowerScanDone _ _ => none
  | .sieveResultArrival _ _ => none
  | .readyWordWrite => none
  | .snapshot _ _ => none
  | .resync _ _ => none
  | .resyncStreamEnd => none
  | .multicastWriteArrival _ _ _ _ => none
  | .combineArrival _ _ _ => none
  | .combineHoldExpiry _ _ => none
  | .detWaitExpiry _ _ => none
  | .mshMonSelWrite _ _ => none
  | .linkDetect _ _ _ => none
  | .equalisationDone _ _ => none
  | .alignmentDone _ _ _ _ _ => none
  | .fecLock _ _ _ => none
  | .flitInit _ _ _ _ _ => none
  | .trainingTimeout _ _ => none
  | .codewordReceive _ _ _ => none
  | .flitReceive _ _ _ => none
  | .ackTimeout _ _ => none
  | .bctlRetrain _ _ => none
  | .bctlDisable _ _ => none
  | .hrd _ _ _ _ _ _ _ => none
  | .hwr _ _ _ _ _ _ _ => none
  | .placed _ _ _ _ => none
  | .cpl _ _ => none
  | .cple _ _ => none
  | .cplTimeout _ => none
  | .placedTimeout _ _ => none
  | .pairingStart => none
  | .mpair _ _ _ => none
  | .pairingTimeout => none
  | .fsync _ _ _ => none
  | .closeMarkArrival _ _ => none
  | .mfwd _ _ _ _ _ => none
  | .mepoch _ _ _ _ _ _ => none
  | .mack _ _ => none
  | .mhb _ _ _ _ => none
  | .heartbeatTimeout _ => none
  | .witnessRead _ _ => none
  | .mgasp _ _ => none
  | .hearthSample _ _ _ _ => none
  | .req38End => none
  | .phaseShed _ _ => none
  | .vcoreTrim _ => none
  | .rippleWindow _ _ _ _ => none
  | .waveArm _ => none
  | .waveSwTrig => none
  | .waveCaptureDone => none
  | .thermalConversion _ => none
  | .dramReading _ => none
  | .idleLatchTimer _ => none
  | .throttleRequestFall _ => none
  | .droopTrip _ => none
  | .droopRequestEnd => none
  | .riskHoldExpiry _ => none
  | .parityHalt _ => none
  | .commandParityError _ => none
  | .copyParityError _ => none
  | .replayStart _ => none
  | .fallowSegment _ _ _ _ => none
  | .errorRecord => none
  | .coalesceWindowExpiry _ _ => none
  | .hostRingCopy => none
  | .historyWrite => none
  | .rasRetiredWrite _ _ => none
  | .romStart => none
  | .imageCheckDone _ => none
  | .ready => none
  | .rcvGo _ _ => none
  | .rcvAbort => none
  | .reflashDone => none
  | .fuseBurn => none
  | .lmsReservation => none
  | .newNonce => none
  | .submit => none
  | .tokenCheckDone _ _ => none
  | .relock => none
  | .getVersion => none
  | .getCapabilities => none
  | .negotiateAlgorithms _ _ => none
  | .getDigests => none
  | .getCertificate _ _ _ => none
  | .challenge _ => none
  | .getMeasurements _ => none
  | .vendorDefinedRequest _ => none
  | .spdmUnsupportedRequest _ => none
  | .entdaa _ => none
  | .setdasa _ => none
  | .setaasa => none
  | .rstdaa => none
  | .setEndpointId _ => none
  | .getEndpointId => none
  | .getMctpVersionSupport _ => none
  | .getMessageTypeSupport => none
  | .getEndpointUuid => none
  | .gettid => none
  | .getpldmversion _ => none
  | .getpldmtypes => none
  | .getpldmcommands _ => none
  | .seteventreceiver _ => none
  | .pollforplatformeventmessage => none
  | .platformeventmessageAck _ => none
  | .getpdr _ => none
  | .sensorReading _ => none
  | .firmwareDataReceive _ _ _ => none
  | .activatefirmware => none
  | .pctrWrap _ _ => none
  | .htabW0Write _ _ _ => none
  | .htabW1Write _ _ _ => none
  | .dbgHalt _ => none
  | .dbgStep _ => none
  | .dbgRegDataWrite _ _ => none
  | .mswi _ => none
  | .sswi _ => none
  | .dbgSynSet _ => none
  | .meshLinkFail _ _ => none
  | .refclkPresent => none
  | .nearRepairDone _ => none
  | .retrainSliceEnd _ _ => none
  | .ackIntervalExpiry _ _ => none
  | .updateCancel => none
  | .atomicReturn _ => none

/-- An instruction without what its accesses find. -/
def Instr.plain : Instr → Instr
  | .ld c w _ => .ld c w .clean
  | .st c w _ => .st c w .clean
  | .cput c w => .cput c ⟨w.word, false⟩
  | .cupd c w => .cupd c ⟨w.word, false⟩
  | .exit c w => .exit c ⟨w.word, .clean⟩
  | .resume c w => .resume c ⟨w.word, false⟩
  | .sld c w => .sld c ⟨w.word, false⟩
  | .blkMov c w _ _ => .blkMov c w 0 .clean
  | .blkFill c w _ _ => .blkFill c w 0 .clean
  | .blkCmp c w _ _ => .blkCmp c w 0 .clean
  | .blkScan c w _ _ => .blkScan c w 0 .clean
  | .blkMac c w _ _ => .blkMac c w 0 .clean
  | .mac2mVector c w _ _ => .mac2mVector c w (.clean, .clean) false
  | .mac2mTile c w _ _ => .mac2mTile c w .clean .clean
  | .vmul c w _ => .vmul c w false
  | .vfma c w _ => .vfma c w false
  | .vfms c w _ => .vfms c w false
  | .vld c w _ => .vld c w .clean
  | .vst c w _ => .vst c w .clean
  | .vlds c w _ => .vlds c w .clean
  | .vsts c w _ => .vsts c w .clean
  | .vldt c w _ => .vldt c w .clean
  | .vstt c w _ => .vstt c w .clean
  | .tld c w _ _ => .tld c w 0 .clean
  | .tst c w _ _ => .tst c w 0 .clean
  | .tldt c w _ _ => .tldt c w 0 .clean
  | .tldz c w _ _ => .tldz c w 0 .clean
  | .chsend c w _ => .chsend c w .clean
  | .dgsend c w _ => .dgsend c w .clean
  | .dgsendm c w _ => .dgsendm c w .clean
  | .mcwr c w _ => .mcwr c w .clean
  | .cbsend c w _ => .cbsend c w .clean
  | .amoAdd c w _ => .amoAdd c w .clean
  | .amoSwap c w _ => .amoSwap c w .clean
  | .amoCas c w _ => .amoCas c w .clean
  | .amoAnd c w _ => .amoAnd c w .clean
  | .amoOr c w _ => .amoOr c w .clean
  | .amoXor c w _ => .amoXor c w .clean
  | .amoMax c w _ => .amoMax c w .clean
  | .amoMin c w _ => .amoMin c w .clean
  | .sig c w => .sig c ⟨w.word, .clean⟩
  | .fenceRel c w => .fenceRel c ⟨w.word, .clean⟩
  | .fenceAcq c w => .fenceAcq c ⟨w.word, .clean⟩
  | .fenceAr c w => .fenceAr c ⟨w.word, .clean⟩
  | .dcClean c w => .dcClean c ⟨w.word, .clean⟩
  | .dcFlush c w => .dcFlush c ⟨w.word, .clean⟩
  | .dcAll c w => .dcAll c ⟨w.word, .clean⟩
  | i => i

end Sys2Proof
end

