-- ==== Sys2Proof/Config.lean ====
section
/-! DEFINITION. What the spec leaves open, as constants without a body: nothing in Lean can tell a value of theirs.
`n` is the number of the free value, from the counter of State (log entry 3). -/

namespace Sys2Proof.Config

/-- A byte of a memory whose content is undefined (02 R101, 18 R593, R601). -/
opaque undefByte : Nat → Nat → Byte
/-- A 64-bit value the spec leaves undefined. -/
opaque freeWord : Nat → Word64
/-- A vector register the spec leaves undefined (05 R218). -/
opaque freeVec : Nat → VReg

/-- `vexp2` of an FP32 word, within the bound of 05 R205. -/
opaque vexp2 : Word32 → Word32
/-- `vlog2`, within the bound of 05 R205. -/
opaque vlog2 : Word32 → Word32
/-- `vrcp`, within the bound of 05 R205. -/
opaque vrcp : Word32 → Word32
/-- `vrsqrt`, within the bound of 05 R205. -/
opaque vrsqrt : Word32 → Word32
/-- E2 of the combine units, within the bound of 10 R382. -/
opaque combineE2 : Word32 → Word32

/-- The mean count of die d's process cones, fused at test for 750 mV (17 R587). -/
opaque procFused : Nat → Nat
/-- How many core phases a droop trip adds on a die (17 R566). -/
opaque phasesAdded : Nat → Nat
/-- Segments of the pattern set in the firmware image (18 R605, R622). -/
opaque fallowSegs : Nat

/-- The certificate chain of the ECDSA identity, and the certificate of the HSS key, in the identity blob (19 R640). -/
opaque certChain : List Byte
opaque hssCert : List Byte
/-- The public HSS key of the identity (19 R643). -/
opaque hssKey : Fin 60 → Byte
/-- The digest of the boot ROM, from the fuses (19 R625, R642). -/
opaque romDigest : Fin 48 → Byte
/-- The SPDM messages that precede signed response n and that its signature covers with it (19 R643). -/
opaque transcript : Nat → List Byte
/-- A byte of the sealed part of the identity blob (19 R639). -/
opaque blobByte : Nat → Byte
/-- The UUID derived from SEC_DEVID (20 R654). -/
opaque uuid : List Word32 → Fin 16 → Byte
/-- The PLDM terminus ID, the version data of a PLDM type, and the platform descriptor record of a handle (20 R654). -/
opaque pldmTid : Byte
opaque pldmVersion : Nat → List Byte
opaque pldmPdr : Nat → List Byte

end Sys2Proof.Config
end

