-- ==== Sys2Proof/Machine/Maps.lean ====
section
/-! DEFINITION. Sparse tables: a list of (key, value) pairs with one entry for a key, an absent key standing for a
default. They hold what the spec gives the device in arrays (cores, queues, registers, routers). -/

namespace Sys2Proof.Machine

/-- The value at `k`, or the default `d`. -/
def mget {α β : Type} [DecidableEq α] (m : List (α × β)) (k : α) (d : β) : β :=
  match m with
  | [] => d
  | (a, b) :: t => if a = k then b else mget t k d

/-- The value at `k` is `v` afterwards. -/
def mput {α β : Type} [DecidableEq α] (m : List (α × β)) (k : α) (v : β) : List (α × β) :=
  match m with
  | [] => [(k, v)]
  | (a, b) :: t => if a = k then (k, v) :: t else (a, b) :: mput t k v

/-- The first element satisfying `p`, and the list without it: the oldest packet of a kind (10 R367). -/
def takeFirst {α : Type} (p : α → Bool) : List α → Option (α × List α)
  | [] => none
  | x :: t => if p x then some (x, t) else
    match takeFirst p t with
    | some (y, r) => some (y, x :: r)
    | none => none

/-- `n` little-endian bytes of a number (00 R4). -/
def leBytes : Nat → Nat → List Byte
  | 0, _ => []
  | n + 1, v => BitVec.ofNat 8 v :: leBytes n (v / 256)

/-- The number whose little-endian bytes these are (00 R4). -/
def ofLeBytes : List Byte → Nat
  | [] => 0
  | b :: t => b.toNat + 256 * ofLeBytes t

/-- Bytes lo .. lo + n - 1 of a byte list as a number. -/
def leAt (bs : List Byte) (lo n : Nat) : Nat := ofLeBytes ((bs.drop lo).take n)

/-- `n` numbers from `a`, each `step` after the one before. -/
def nats : Nat → Nat → Nat → List Nat
  | 0, _, _ => []
  | n + 1, a, step => a :: nats n (a + step) step

end Sys2Proof.Machine
end

