-- ==== Sys2Proof/Machine/Regs.lean ====
section
/-! DEFINITION. The MMIO registers (21 R671, R676), from the register tables of the chapters: where each lies, its
fields, access codes (00 R12) and reset values (00 R16). Fields not listed are reserved: they read 0 and ignore
writes. HRT_WAVE, RAS_RING, SEC_RCV_BUF and SEC_TOKEN are buffers of State, not listed here. -/

namespace Sys2Proof.Machine

/-- The MMIO registers, one constructor for each register or register array of 21 R676. -/
inductive Reg where
  | mshDistSvc
  | klnFrameCtl
  | klnFrameStat
  | klnFrameNum
  | klnTickTime
  | engDbTail
  | engDbHead
  | klnQbase
  | klnQctl
  | klnQstat
  | klnCrbase
  | klnCrctl
  | klnCrhead
  | klnCrmsgAddr
  | klnCrmsgData
  | klnCrcoal
  | klnThrottle
  | klnStolenCap
  | klnStolenLast
  | klnUsable
  | klnOverrunCnt
  | klnAbortCtl
  | klnRepair
  | klnEvtStat
  | klnEvtEn
  | klnEvtMsgAddr
  | klnEvtMsgData
  | dbgSwi
  | klnXeAmax
  | klnXeNumstat
  | klnHtabW0
  | klnHtabW1
  | nmcStat
  | nmcErrcnt
  | nmcRepair
  | fmcMap
  | fmcGlbStat
  | fmcFailed
  | fmcStat
  | fmcErrcnt
  | fmcCalCtl
  | fmcCalStat
  | fmcRepair
  | mshCmbCtl
  | mshEvtStat
  | mshErrcnt
  | mshCmbCnt
  | mshDropCnt
  | mshMonSel
  | mshMonFlits
  | mshMonBlock
  | mshMonTime
  | synVtab
  | synCnt
  | synEvtStat
  | synErrcnt
  | dbgSynSel
  | dbgSynSet
  | dbgSynStat
  | dbgSynWaiters
  | fmcScrubCtl
  | fmcScrubStat
  | fmcScrubLap
  | fmcScrubTime
  | fmcSwathCnt
  | nmcScrubCtl
  | nmcScrubStat
  | nmcScrubLap
  | nmcScrubTime
  | vclCtl
  | vclCtxMap
  | vclFsyncCtl
  | vclFsyncAddr
  | vclEvtStat
  | vclEvtEn
  | vclEvtMsgAddr
  | vclEvtMsgData
  | vclBstat
  | vclBctl
  | vclPol
  | vclFecCe
  | vclFecUe
  | vclCrcErr
  | vclReplay
  | vclRetrain
  | vclResend
  | mirCtl
  | mirStat
  | mirEpochClosed
  | mirEpochAck
  | mirWitnessAddr
  | mirPeerWitnessAddr
  | mirRiskCtl
  | mirCadence
  | mirSnapLast
  | mirSnapGran
  | mirResync
  | mirEvtStat
  | mirEvtEn
  | mirEvtMsgAddr
  | mirEvtMsgData
  | mirHeldCnt
  | mirRegionBase
  | mirRegionLen
  | hrtStat
  | hrtVin
  | hrtFrame
  | hrtHarm0
  | hrtHarm1
  | hrtCtl
  | hrtEvtThr
  | hrtVcore
  | hrtEnergy
  | hrtEvtStat
  | hrtEvtEn
  | hrtEvtMsgAddr
  | hrtEvtMsgData
  | hrtEvtCnt
  | hrtWaveCtl
  | hrtWaveTime
  | conTherm
  | conDram
  | conProc
  | conSnapTime
  | conThermCtl
  | conDroopCtl
  | conDroopCnt
  | conStat
  | conEvtStat
  | conEvtEn
  | rasReplayCtl
  | rasFallowCtl
  | rasCoalCtl
  | rasHringBase
  | rasHringCtl
  | rasHringHead
  | rasEvtStat
  | rasEvtEn
  | rasEvtMsgAddr
  | rasEvtMsgData
  | rasRingOvf
  | rasReplayCnt
  | rasSeq
  | rasFallowStat
  | rasRetired
  | dbgCtl
  | dbgStat
  | dbgMsegBase
  | dbgMsegLimit
  | dbgMevec
  | dbgRegSel
  | dbgRegData
  | secBootStat
  | secBootCtl
  | secSvn
  | secDevid
  | secLms
  | secLmsLimit
  | secRcvCtl
  | secRcvStat
  | secDbgCtl
  | secDbgStat
  | secDbgNonce
  | secGlitchCnt
  | secEvtStat
  | secEvtEn
  | secEvtMsgAddr
  | secEvtMsgData
  | mgtCtl
  | mgtStat
  | mgtFifoLost
  | mgtTelBase
  | mgtTelCtl
  | mgtTelHead
  | mgtTelLost
  | glbId
  | glbRev
  | glbCap0
  | glbCap1
  | glbMem
  | glbFmt
  | glbClk
  | glbTime
  | glbSlot
  | glbScratch
  | glbEngRst
  | glbCtxRst
  | mirBstat
  | mirBctl
  | mirPol
  | mirFecCe
  | mirFecUe
  | mirCrcErr
  | mirReplay
  | mirRetrain
  | mirResend
  | fmcGlbScrub
  | nmcGlbScrub
deriving DecidableEq, Repr

/-- The access codes of 00 R12. -/
inductive Access where
  | rw | ro | w1c | w1s | rc | wo
deriving DecidableEq, Repr

/-- The Warm column of a field (00 R16): kept, or a value. -/
inductive Warm where
  | kept
  | to (v : Nat)
deriving DecidableEq, Repr

/-- One row of a register table. -/
structure FieldRow where
  hi : Nat
  lo : Nat
  acc : Access
  cold : Nat
  warm : Warm
deriving DecidableEq, Repr

/-- A register: offset of element 0 in the MMIO region, stride, number of elements, width 64, fields. -/
structure RegRow where
  base : Nat
  stride : Nat
  count : Nat
  wide : Bool
  rows : List FieldRow
deriving DecidableEq, Repr

/-- A named field of a register. -/
structure Fld where
  reg : Reg
  hi : Nat
  lo : Nat
deriving DecidableEq, Repr

/-- The register tables. -/
def regRow : Reg → RegRow
  | .mshDistSvc => ⟨0x1800F00, 4, 1, false, [⟨31, 20, .rw, 190, .kept⟩, ⟨19, 8, .rw, 1360, .kept⟩, ⟨7, 0, .rw, 24, .kept⟩]⟩
  | .klnFrameCtl => ⟨0x100000, 4, 1, false, [⟨31, 31, .rw, 0, .to 0⟩, ⟨27, 26, .rw, 0, .kept⟩, ⟨25, 25, .rw, 0, .kept⟩, ⟨24, 16, .rw, 50, .kept⟩, ⟨10, 0, .rw, 160, .kept⟩]⟩
  | .klnFrameStat => ⟨0x100004, 4, 1, false, [⟨31, 31, .ro, 0, .to 0⟩, ⟨23, 16, .ro, 0, .to 0⟩, ⟨15, 0, .rc, 0, .to 0⟩]⟩
  | .klnFrameNum => ⟨0x100008, 4, 1, true, [⟨47, 0, .ro, 0, .kept⟩]⟩
  | .klnTickTime => ⟨0x100010, 4, 1, true, [⟨63, 0, .ro, 0, .kept⟩]⟩
  | .engDbTail => ⟨0x200000, 4096, 176, false, [⟨31, 0, .rw, 0, .to 0⟩]⟩
  | .engDbHead => ⟨0x200004, 4096, 176, false, [⟨31, 0, .ro, 0, .to 0⟩]⟩
  | .klnQbase => ⟨0x101000, 16, 176, true, [⟨47, 12, .rw, 0, .kept⟩]⟩
  | .klnQctl => ⟨0x101008, 16, 176, false, [⟨31, 31, .rw, 0, .to 0⟩, ⟨30, 30, .rw, 0, .kept⟩, ⟨4, 0, .rw, 4, .kept⟩]⟩
  | .klnQstat => ⟨0x10100C, 16, 176, false, [⟨31, 30, .ro, 0, .to 0⟩, ⟨29, 29, .w1c, 0, .to 0⟩, ⟨28, 28, .w1c, 0, .to 0⟩]⟩
  | .klnCrbase => ⟨0x102000, 32, 64, true, [⟨47, 12, .rw, 0, .kept⟩]⟩
  | .klnCrctl => ⟨0x102008, 32, 64, false, [⟨31, 31, .rw, 0, .to 0⟩, ⟨30, 30, .rw, 0, .kept⟩, ⟨23, 20, .rw, 0, .kept⟩, ⟨4, 0, .rw, 6, .kept⟩]⟩
  | .klnCrhead => ⟨0x10200C, 32, 64, false, [⟨31, 0, .rw, 0, .to 0⟩]⟩
  | .klnCrmsgAddr => ⟨0x102010, 32, 64, true, [⟨63, 2, .rw, 0, .kept⟩]⟩
  | .klnCrmsgData => ⟨0x102018, 32, 64, false, [⟨31, 0, .rw, 0, .kept⟩]⟩
  | .klnCrcoal => ⟨0x10201C, 32, 64, false, [⟨31, 16, .rw, 0, .kept⟩, ⟨7, 0, .rw, 1, .kept⟩]⟩
  | .klnThrottle => ⟨0x100018, 4, 1, false, [⟨11, 10, .ro, 0, .to 0⟩, ⟨9, 8, .ro, 0, .to 0⟩, ⟨7, 6, .ro, 0, .to 0⟩, ⟨1, 0, .rw, 0, .to 0⟩]⟩
  | .klnStolenCap => ⟨0x10001C, 4, 1, false, [⟨19, 0, .rw, 4000, .kept⟩]⟩
  | .klnStolenLast => ⟨0x100020, 4, 1, false, [⟨27, 24, .ro, 0, .to 0⟩, ⟨23, 0, .ro, 0, .to 0⟩]⟩
  | .klnUsable => ⟨0x100024, 4, 1, false, [⟨20, 0, .ro, 154000, .kept⟩]⟩
  | .klnOverrunCnt => ⟨0x100028, 4, 1, false, [⟨31, 0, .rc, 0, .to 0⟩]⟩
  | .klnAbortCtl => ⟨0x10002C, 4, 1, false, [⟨15, 0, .rw, 20, .kept⟩]⟩
  | .klnRepair => ⟨0x100048, 4, 1, true, [⟨63, 63, .w1s, 0, .to 0⟩, ⟨31, 0, .ro, 0, .to 0⟩]⟩
  | .klnEvtStat => ⟨0x100030, 4, 1, false, [⟨6, 6, .w1c, 0, .to 0⟩, ⟨5, 5, .w1c, 0, .to 0⟩, ⟨4, 4, .w1c, 0, .to 0⟩, ⟨3, 3, .w1c, 0, .to 0⟩, ⟨2, 2, .w1c, 0, .to 0⟩, ⟨1, 1, .w1c, 0, .to 0⟩, ⟨0, 0, .w1c, 0, .to 0⟩]⟩
  | .klnEvtEn => ⟨0x100034, 4, 1, false, [⟨6, 0, .rw, 0, .kept⟩]⟩
  | .klnEvtMsgAddr => ⟨0x100038, 4, 1, true, [⟨63, 2, .rw, 0, .kept⟩]⟩
  | .klnEvtMsgData => ⟨0x100040, 4, 1, false, [⟨31, 0, .rw, 0, .kept⟩]⟩
  | .dbgSwi => ⟨0x3000040, 4096, 1156, false, [⟨1, 1, .w1s, 0, .to 0⟩, ⟨0, 0, .w1s, 0, .to 0⟩]⟩
  | .klnXeAmax => ⟨0x103000, 8, 8, false, [⟨30, 0, .rw, 0, .to 0⟩]⟩
  | .klnXeNumstat => ⟨0x103004, 8, 8, false, [⟨31, 16, .rc, 0, .to 0⟩, ⟨15, 0, .rc, 0, .to 0⟩]⟩
  | .klnHtabW0 => ⟨0x110000, 16, 1024, true, [⟨63, 63, .rw, 0, .to 0⟩, ⟨59, 58, .rw, 0, .to 0⟩, ⟨57, 57, .rw, 0, .to 0⟩, ⟨56, 56, .rw, 0, .to 0⟩, ⟨55, 55, .rw, 0, .to 0⟩, ⟨47, 0, .rw, 0, .to 0⟩]⟩
  | .klnHtabW1 => ⟨0x110008, 16, 1024, true, [⟨47, 0, .rw, 0, .to 0⟩]⟩
  | .nmcStat => ⟨0x1410000, 256, 1152, false, [⟨31, 31, .ro, 0, .to 0⟩, ⟨15, 8, .ro, 128, .kept⟩, ⟨7, 0, .ro, 255, .kept⟩]⟩
  | .nmcErrcnt => ⟨0x1410004, 256, 1152, false, [⟨31, 16, .rc, 0, .to 0⟩, ⟨15, 0, .rc, 0, .to 0⟩]⟩
  | .nmcRepair => ⟨0x1410008, 256, 1152, true, [⟨63, 63, .w1s, 0, .to 0⟩, ⟨62, 60, .ro, 0, .to 0⟩, ⟨25, 25, .rw, 0, .to 0⟩, ⟨24, 24, .rw, 0, .to 0⟩, ⟨23, 20, .rw, 0, .to 0⟩, ⟨17, 0, .rw, 0, .to 0⟩]⟩
  | .fmcMap => ⟨0x1000000, 4, 1, false, [⟨31, 31, .ro, 0, .kept⟩, ⟨30, 30, .w1s, 0, .kept⟩, ⟨9, 8, .rw, 2, .kept⟩, ⟨5, 0, .rw, 0, .kept⟩]⟩
  | .fmcGlbStat => ⟨0x1000004, 4, 1, false, [⟨31, 30, .ro, 0, .kept⟩, ⟨29, 29, .w1c, 0, .to 0⟩, ⟨6, 0, .ro, 0, .kept⟩]⟩
  | .fmcFailed => ⟨0x1000008, 4, 1, false, [⟨31, 0, .ro, 0, .kept⟩]⟩
  | .fmcStat => ⟨0x1000100, 65536, 32, false, [⟨31, 29, .ro, 0, .kept⟩, ⟨28, 27, .ro, 0, .kept⟩, ⟨26, 26, .ro, 0, .to 0⟩]⟩
  | .fmcErrcnt => ⟨0x1000104, 65536, 32, false, [⟨31, 16, .rc, 0, .to 0⟩, ⟨15, 0, .rc, 0, .to 0⟩]⟩
  | .fmcCalCtl => ⟨0x1000110, 65536, 32, false, [⟨31, 16, .rw, 250, .kept⟩, ⟨15, 0, .rw, 1000, .kept⟩]⟩
  | .fmcCalStat => ⟨0x1000114, 65536, 32, false, [⟨31, 16, .rc, 0, .to 0⟩, ⟨15, 0, .ro, 0, .kept⟩]⟩
  | .fmcRepair => ⟨0x1000120, 65536, 32, true, [⟨63, 63, .w1s, 0, .to 0⟩, ⟨62, 60, .ro, 0, .to 0⟩, ⟨25, 25, .rw, 0, .to 0⟩, ⟨24, 24, .rw, 0, .to 0⟩, ⟨23, 20, .rw, 0, .to 0⟩, ⟨17, 0, .rw, 0, .to 0⟩]⟩
  | .mshCmbCtl => ⟨0x1800000, 4, 1, false, [⟨31, 16, .rw, 1024, .kept⟩, ⟨11, 0, .rw, 256, .kept⟩]⟩
  | .mshEvtStat => ⟨0x1800004, 4, 1, false, [⟨5, 5, .w1c, 0, .to 0⟩, ⟨4, 4, .w1c, 0, .to 0⟩, ⟨3, 3, .w1c, 0, .to 0⟩, ⟨2, 2, .w1c, 0, .to 0⟩, ⟨1, 1, .w1c, 0, .to 0⟩, ⟨0, 0, .w1c, 0, .to 0⟩]⟩
  | .mshErrcnt => ⟨0x1800008, 4, 1, false, [⟨31, 16, .rc, 0, .to 0⟩, ⟨15, 0, .rc, 0, .to 0⟩]⟩
  | .mshCmbCnt => ⟨0x180000C, 4, 1, false, [⟨31, 16, .rc, 0, .to 0⟩, ⟨15, 0, .rc, 0, .to 0⟩]⟩
  | .mshDropCnt => ⟨0x1800010, 4, 1, false, [⟨31, 16, .rc, 0, .to 0⟩, ⟨15, 0, .rc, 0, .to 0⟩]⟩
  | .mshMonSel => ⟨0x1800100, 32, 8, false, [⟨31, 31, .rw, 0, .to 0⟩, ⟨25, 24, .rw, 0, .to 0⟩, ⟨23, 20, .rw, 0, .to 0⟩, ⟨15, 10, .rw, 0, .to 0⟩, ⟨9, 5, .rw, 0, .to 0⟩]⟩
  | .mshMonFlits => ⟨0x1800108, 32, 8, true, [⟨47, 0, .ro, 0, .to 0⟩]⟩
  | .mshMonBlock => ⟨0x1800110, 32, 8, true, [⟨47, 0, .ro, 0, .to 0⟩]⟩
  | .mshMonTime => ⟨0x1800118, 32, 8, true, [⟨47, 0, .ro, 0, .to 0⟩]⟩
  | .synVtab => ⟨0x810000, 4, 16384, false, [⟨31, 31, .rw, 0, .to 0⟩, ⟨30, 30, .rw, 0, .to 0⟩, ⟨29, 29, .rw, 0, .to 0⟩, ⟨28, 28, .rw, 0, .to 0⟩, ⟨11, 0, .rw, 0, .to 0⟩]⟩
  | .synCnt => ⟨0x800000, 4, 4096, false, [⟨31, 0, .ro, 0, .to 0⟩]⟩
  | .synEvtStat => ⟨0x820000, 4, 1, false, [⟨2, 2, .w1c, 0, .to 0⟩, ⟨1, 1, .w1c, 0, .to 0⟩, ⟨0, 0, .w1c, 0, .to 0⟩]⟩
  | .synErrcnt => ⟨0x820004, 4, 1, false, [⟨31, 16, .rc, 0, .to 0⟩, ⟨15, 0, .rc, 0, .to 0⟩]⟩
  | .dbgSynSel => ⟨0x3FF0000, 4, 1, false, [⟨11, 0, .rw, 0, .to 0⟩]⟩
  | .dbgSynSet => ⟨0x3FF0004, 4, 1, false, [⟨31, 0, .wo, 0, .to 0⟩]⟩
  | .dbgSynStat => ⟨0x3FF0008, 4, 1, false, [⟨31, 31, .ro, 0, .to 0⟩, ⟨30, 0, .ro, 0, .to 0⟩]⟩
  | .dbgSynWaiters => ⟨0x3FF000C, 4, 1, false, [⟨11, 0, .ro, 0, .to 0⟩]⟩
  | .fmcScrubCtl => ⟨0x1000200, 65536, 32, false, [⟨31, 31, .rw, 1, .kept⟩, ⟨15, 0, .rw, 1440, .kept⟩]⟩
  | .fmcScrubStat => ⟨0x1000204, 65536, 32, false, [⟨31, 30, .ro, 0, .kept⟩, ⟨29, 29, .ro, 0, .kept⟩, ⟨25, 0, .ro, 0, .kept⟩]⟩
  | .fmcScrubLap => ⟨0x1000208, 65536, 32, false, [⟨31, 0, .ro, 0, .kept⟩]⟩
  | .fmcScrubTime => ⟨0x100020C, 65536, 32, false, [⟨31, 0, .ro, 0, .kept⟩]⟩
  | .fmcSwathCnt => ⟨0x1000210, 65536, 32, true, [⟨47, 0, .ro, 0, .kept⟩]⟩
  | .nmcScrubCtl => ⟨0x1410010, 256, 1152, false, [⟨31, 31, .rw, 1, .kept⟩, ⟨15, 0, .rw, 60, .kept⟩]⟩
  | .nmcScrubStat => ⟨0x1410014, 256, 1152, false, [⟨31, 30, .ro, 0, .kept⟩, ⟨29, 29, .ro, 0, .kept⟩, ⟨13, 0, .ro, 0, .kept⟩]⟩
  | .nmcScrubLap => ⟨0x1410018, 256, 1152, false, [⟨31, 0, .ro, 0, .kept⟩]⟩
  | .nmcScrubTime => ⟨0x141001C, 256, 1152, false, [⟨31, 0, .ro, 0, .kept⟩]⟩
  | .vclCtl => ⟨0x1C00000, 4, 1, false, [⟨31, 31, .rw, 1, .kept⟩, ⟨30, 30, .rw, 0, .kept⟩, ⟨29, 28, .rw, 0, .kept⟩, ⟨15, 0, .rw, 200, .kept⟩]⟩
  | .vclCtxMap => ⟨0x1C00004, 4, 1, false, [⟨31, 0, .rw, 0, .to 0⟩]⟩
  | .vclFsyncCtl => ⟨0x1C00008, 4, 1, false, [⟨31, 31, .rw, 0, .to 0⟩, ⟨3, 0, .rw, 0, .to 0⟩]⟩
  | .vclFsyncAddr => ⟨0x1C00010, 4, 1, true, [⟨47, 4, .rw, 0, .to 0⟩]⟩
  | .vclEvtStat => ⟨0x1C00020, 4, 1, false, [⟨9, 9, .w1c, 0, .to 0⟩, ⟨8, 8, .w1c, 0, .to 0⟩, ⟨7, 7, .w1c, 0, .to 0⟩, ⟨6, 6, .w1c, 0, .to 0⟩, ⟨5, 5, .w1c, 0, .to 0⟩, ⟨4, 4, .w1c, 0, .to 0⟩, ⟨3, 3, .w1c, 0, .to 0⟩, ⟨2, 2, .w1c, 0, .to 0⟩, ⟨1, 1, .w1c, 0, .to 0⟩, ⟨0, 0, .w1c, 0, .to 0⟩]⟩
  | .vclEvtEn => ⟨0x1C00024, 4, 1, false, [⟨9, 0, .rw, 0, .kept⟩]⟩
  | .vclEvtMsgAddr => ⟨0x1C00028, 4, 1, true, [⟨63, 2, .rw, 0, .kept⟩]⟩
  | .vclEvtMsgData => ⟨0x1C00030, 4, 1, false, [⟨31, 0, .rw, 0, .kept⟩]⟩
  | .vclBstat => ⟨0x1C00100, 64, 3, false, [⟨31, 28, .ro, 0, .to 0⟩, ⟨27, 26, .ro, 0, .to 0⟩, ⟨25, 25, .ro, 0, .to 0⟩, ⟨15, 0, .ro, 0, .to 0⟩]⟩
  | .vclBctl => ⟨0x1C00104, 64, 3, false, [⟨31, 31, .w1s, 0, .to 0⟩, ⟨30, 30, .rw, 0, .kept⟩]⟩
  | .vclPol => ⟨0x1C00108, 64, 3, false, [⟨15, 0, .ro, 0, .to 0⟩]⟩
  | .vclFecCe => ⟨0x1C0010C, 64, 3, false, [⟨31, 0, .rc, 0, .to 0⟩]⟩
  | .vclFecUe => ⟨0x1C00110, 64, 3, false, [⟨31, 0, .rc, 0, .to 0⟩]⟩
  | .vclCrcErr => ⟨0x1C00114, 64, 3, false, [⟨31, 0, .rc, 0, .to 0⟩]⟩
  | .vclReplay => ⟨0x1C00118, 64, 3, false, [⟨31, 0, .rc, 0, .to 0⟩]⟩
  | .vclRetrain => ⟨0x1C0011C, 64, 3, false, [⟨31, 0, .rc, 0, .to 0⟩]⟩
  | .vclResend => ⟨0x1C00120, 64, 3, false, [⟨31, 0, .rc, 0, .to 0⟩]⟩
  | .mirCtl => ⟨0x1D00000, 4, 1, false, [⟨31, 31, .rw, 0, .kept⟩, ⟨30, 30, .rw, 0, .kept⟩, ⟨29, 28, .rw, 0, .kept⟩, ⟨27, 27, .rw, 0, .kept⟩, ⟨26, 26, .rw, 0, .kept⟩]⟩
  | .mirStat => ⟨0x1D00004, 4, 1, false, [⟨31, 28, .ro, 0, .to 0⟩, ⟨27, 26, .ro, 0, .kept⟩, ⟨25, 24, .ro, 0, .to 0⟩, ⟨23, 22, .ro, 0, .to 0⟩, ⟨21, 19, .ro, 0, .to 0⟩, ⟨18, 18, .ro, 0, .to 0⟩]⟩
  | .mirEpochClosed => ⟨0x1D00008, 4, 1, true, [⟨47, 0, .ro, 0, .to 0⟩]⟩
  | .mirEpochAck => ⟨0x1D00010, 4, 1, true, [⟨47, 0, .ro, 0, .to 0⟩]⟩
  | .mirWitnessAddr => ⟨0x1D00018, 4, 1, true, [⟨47, 4, .rw, 0, .kept⟩]⟩
  | .mirPeerWitnessAddr => ⟨0x1D00020, 4, 1, true, [⟨47, 4, .rw, 0, .kept⟩]⟩
  | .mirRiskCtl => ⟨0x1D00028, 4, 1, false, [⟨31, 30, .rw, 0, .kept⟩, ⟨15, 0, .rw, 64, .kept⟩]⟩
  | .mirCadence => ⟨0x1D0002C, 4, 1, false, [⟨15, 12, .rw, 0, .kept⟩, ⟨11, 8, .rw, 4, .kept⟩, ⟨7, 4, .rw, 6, .kept⟩, ⟨3, 0, .rw, 8, .kept⟩]⟩
  | .mirSnapLast => ⟨0x1D00030, 4, 1, true, [⟨47, 0, .ro, 0, .to 0⟩]⟩
  | .mirSnapGran => ⟨0x1D00038, 4, 1, false, [⟨31, 0, .ro, 0, .to 0⟩]⟩
  | .mirResync => ⟨0x1D0003C, 4, 1, false, [⟨31, 31, .ro, 0, .to 0⟩, ⟨6, 0, .ro, 0, .to 0⟩]⟩
  | .mirEvtStat => ⟨0x1D00040, 4, 1, false, [⟨12, 12, .w1c, 0, .to 0⟩, ⟨11, 11, .w1c, 0, .to 0⟩, ⟨10, 10, .w1c, 0, .to 0⟩, ⟨9, 9, .w1c, 0, .to 0⟩, ⟨8, 8, .w1c, 0, .to 0⟩, ⟨7, 7, .w1c, 0, .to 0⟩, ⟨6, 6, .w1c, 0, .to 0⟩, ⟨5, 5, .w1c, 0, .to 0⟩, ⟨4, 4, .w1c, 0, .to 0⟩, ⟨3, 3, .w1c, 0, .kept⟩, ⟨2, 2, .w1c, 0, .to 0⟩, ⟨1, 1, .w1c, 0, .to 0⟩, ⟨0, 0, .w1c, 0, .to 0⟩]⟩
  | .mirEvtEn => ⟨0x1D00044, 4, 1, false, [⟨12, 0, .rw, 0, .kept⟩]⟩
  | .mirEvtMsgAddr => ⟨0x1D00048, 4, 1, true, [⟨63, 2, .rw, 0, .kept⟩]⟩
  | .mirEvtMsgData => ⟨0x1D00050, 4, 1, false, [⟨31, 0, .rw, 0, .kept⟩]⟩
  | .mirHeldCnt => ⟨0x1D00054, 4, 1, false, [⟨31, 0, .rc, 0, .to 0⟩]⟩
  | .mirRegionBase => ⟨0x1D00200, 16, 16, true, [⟨63, 63, .rw, 0, .kept⟩, ⟨47, 12, .rw, 0, .kept⟩]⟩
  | .mirRegionLen => ⟨0x1D00208, 16, 16, true, [⟨47, 12, .rw, 0, .kept⟩]⟩
  | .hrtStat => ⟨0x1E00000, 4, 1, false, [⟨31, 28, .ro, 0, .kept⟩, ⟨27, 27, .ro, 0, .kept⟩, ⟨26, 26, .ro, 0, .kept⟩, ⟨25, 25, .ro, 0, .kept⟩, ⟨24, 19, .ro, 48, .kept⟩]⟩
  | .hrtVin => ⟨0x1E00004, 4, 1, false, [⟨31, 16, .ro, 0, .kept⟩, ⟨15, 0, .ro, 0, .kept⟩]⟩
  | .hrtFrame => ⟨0x1E00008, 4, 1, false, [⟨31, 16, .ro, 0, .kept⟩, ⟨15, 0, .ro, 0, .kept⟩]⟩
  | .hrtHarm0 => ⟨0x1E0000C, 4, 1, false, [⟨31, 16, .ro, 0, .kept⟩, ⟨15, 0, .ro, 0, .kept⟩]⟩
  | .hrtHarm1 => ⟨0x1E00010, 4, 1, false, [⟨31, 16, .ro, 0, .kept⟩, ⟨15, 0, .ro, 0, .kept⟩]⟩
  | .hrtCtl => ⟨0x1E00014, 4, 1, false, [⟨31, 31, .rw, 1, .kept⟩, ⟨30, 30, .rw, 0, .kept⟩]⟩
  | .hrtEvtThr => ⟨0x1E00018, 4, 1, false, [⟨31, 16, .rw, 56000, .kept⟩, ⟨15, 0, .rw, 40000, .kept⟩]⟩
  | .hrtVcore => ⟨0x1E0001C, 4, 1, false, [⟨31, 16, .ro, 750, .kept⟩, ⟨15, 0, .ro, 750, .kept⟩]⟩
  | .hrtEnergy => ⟨0x1E00020, 4, 1, true, [⟨63, 0, .ro, 0, .kept⟩]⟩
  | .hrtEvtStat => ⟨0x1E00028, 4, 1, false, [⟨5, 5, .w1c, 0, .to 0⟩, ⟨4, 4, .w1c, 0, .to 0⟩, ⟨3, 3, .w1c, 0, .kept⟩, ⟨2, 2, .w1c, 0, .to 0⟩, ⟨1, 1, .w1c, 0, .to 0⟩, ⟨0, 0, .w1c, 0, .to 0⟩]⟩
  | .hrtEvtEn => ⟨0x1E0002C, 4, 1, false, [⟨5, 0, .rw, 0, .kept⟩]⟩
  | .hrtEvtMsgAddr => ⟨0x1E00030, 4, 1, true, [⟨63, 2, .rw, 0, .kept⟩]⟩
  | .hrtEvtMsgData => ⟨0x1E00038, 4, 1, false, [⟨31, 0, .rw, 0, .kept⟩]⟩
  | .hrtEvtCnt => ⟨0x1E0003C, 4, 1, false, [⟨31, 16, .rc, 0, .to 0⟩, ⟨15, 0, .rc, 0, .to 0⟩]⟩
  | .hrtWaveCtl => ⟨0x1E00040, 4, 1, false, [⟨31, 31, .w1s, 0, .to 0⟩, ⟨30, 30, .ro, 0, .to 0⟩, ⟨29, 29, .w1s, 0, .to 0⟩, ⟨28, 24, .rw, 0, .kept⟩, ⟨13, 0, .rw, 8192, .kept⟩]⟩
  | .hrtWaveTime => ⟨0x1E00048, 4, 1, true, [⟨63, 0, .ro, 0, .kept⟩]⟩
  | .conTherm => ⟨0x1F00000, 4, 96, false, [⟨15, 0, .ro, 0, .kept⟩]⟩
  | .conDram => ⟨0x1F00200, 4, 40, false, [⟨15, 0, .ro, 0, .kept⟩]⟩
  | .conProc => ⟨0x1F00300, 4, 24, false, [⟨23, 0, .ro, 0, .kept⟩]⟩
  | .conSnapTime => ⟨0x1F00400, 4, 1, true, [⟨63, 0, .ro, 0, .kept⟩]⟩
  | .conThermCtl => ⟨0x1F00408, 4, 1, false, [⟨23, 16, .rw, 110, .kept⟩, ⟨15, 8, .rw, 95, .kept⟩, ⟨7, 0, .rw, 95, .kept⟩]⟩
  | .conDroopCtl => ⟨0x1F0040C, 4, 1, false, [⟨7, 0, .rw, 60, .kept⟩]⟩
  | .conDroopCnt => ⟨0x1F00410, 4, 1, false, [⟨31, 0, .rc, 0, .to 0⟩]⟩
  | .conStat => ⟨0x1F00414, 4, 1, false, [⟨31, 30, .ro, 0, .to 0⟩, ⟨23, 16, .ro, 0, .kept⟩, ⟨15, 0, .ro, 0, .kept⟩]⟩
  | .conEvtStat => ⟨0x1F00418, 4, 1, false, [⟨3, 3, .w1c, 0, .kept⟩, ⟨2, 2, .w1c, 0, .to 0⟩, ⟨1, 1, .w1c, 0, .to 0⟩, ⟨0, 0, .w1c, 0, .to 0⟩]⟩
  | .conEvtEn => ⟨0x1F0041C, 4, 1, false, [⟨3, 0, .rw, 0, .kept⟩]⟩
  | .rasReplayCtl => ⟨0x2000000, 4, 1, false, [⟨23, 16, .rw, 16, .kept⟩, ⟨15, 0, .rw, 0, .kept⟩]⟩
  | .rasFallowCtl => ⟨0x2000004, 4, 1, false, [⟨31, 31, .rw, 1, .kept⟩, ⟨15, 0, .ro, 0, .kept⟩]⟩
  | .rasCoalCtl => ⟨0x2000008, 4, 1, false, [⟨15, 0, .rw, 1000, .kept⟩]⟩
  | .rasHringBase => ⟨0x2000010, 4, 1, true, [⟨47, 12, .rw, 0, .kept⟩]⟩
  | .rasHringCtl => ⟨0x2000018, 4, 1, false, [⟨31, 31, .rw, 0, .to 0⟩, ⟨4, 0, .rw, 6, .kept⟩]⟩
  | .rasHringHead => ⟨0x200001C, 4, 1, false, [⟨31, 0, .rw, 0, .to 0⟩]⟩
  | .rasEvtStat => ⟨0x2000020, 4, 1, false, [⟨6, 6, .w1c, 0, .to 0⟩, ⟨5, 5, .w1c, 0, .to 0⟩, ⟨4, 4, .w1c, 0, .to 0⟩, ⟨3, 3, .w1c, 0, .to 0⟩, ⟨2, 2, .w1c, 0, .to 0⟩, ⟨1, 1, .w1c, 0, .to 0⟩, ⟨0, 0, .w1c, 0, .to 0⟩]⟩
  | .rasEvtEn => ⟨0x2000024, 4, 1, false, [⟨6, 0, .rw, 0, .kept⟩]⟩
  | .rasEvtMsgAddr => ⟨0x2000028, 4, 1, true, [⟨63, 2, .rw, 0, .kept⟩]⟩
  | .rasEvtMsgData => ⟨0x2000030, 4, 1, false, [⟨31, 0, .rw, 0, .kept⟩]⟩
  | .rasRingOvf => ⟨0x2000034, 4, 1, false, [⟨31, 0, .ro, 0, .to 0⟩]⟩
  | .rasReplayCnt => ⟨0x2000038, 4, 1, false, [⟨31, 16, .rc, 0, .to 0⟩, ⟨15, 0, .rc, 0, .to 0⟩]⟩
  | .rasSeq => ⟨0x2000040, 4, 1, true, [⟨63, 0, .ro, 0, .kept⟩]⟩
  | .rasFallowStat => ⟨0x2000100, 4, 18, false, [⟨31, 30, .ro, 0, .to 0⟩, ⟨29, 24, .ro, 0, .to 0⟩, ⟨23, 0, .ro, 0, .kept⟩]⟩
  | .rasRetired => ⟨0x2000200, 4, 36, false, [⟨31, 0, .w1s, 0, .kept⟩]⟩
  | .dbgCtl => ⟨0x3000000, 4096, 1156, false, [⟨31, 31, .rw, 0, .to 0⟩, ⟨30, 30, .w1s, 0, .to 0⟩]⟩
  | .dbgStat => ⟨0x3000004, 4096, 1156, false, [⟨31, 30, .ro, 1, .to 1⟩, ⟨29, 29, .w1c, 0, .to 0⟩]⟩
  | .dbgMsegBase => ⟨0x3000010, 4096, 1156, true, [⟨47, 0, .rw, 0, .kept⟩]⟩
  | .dbgMsegLimit => ⟨0x3000018, 4096, 1156, true, [⟨47, 0, .rw, 0, .kept⟩]⟩
  | .dbgMevec => ⟨0x3000020, 4096, 1156, true, [⟨63, 0, .rw, 0, .kept⟩]⟩
  | .dbgRegSel => ⟨0x3000080, 4096, 1156, false, [⟨15, 0, .rw, 0, .to 0⟩]⟩
  | .dbgRegData => ⟨0x3000088, 4096, 1156, true, [⟨63, 0, .rw, 0, .to 0⟩]⟩
  | .secBootStat => ⟨0x2100000, 4, 1, false, [⟨31, 28, .ro, 0, .to 0⟩, ⟨27, 24, .ro, 0, .to 0⟩, ⟨23, 23, .ro, 0, .to 0⟩, ⟨22, 22, .ro, 0, .to 0⟩, ⟨7, 0, .ro, 0, .to 0⟩]⟩
  | .secBootCtl => ⟨0x2100004, 4, 1, false, [⟨31, 31, .rw, 0, .kept⟩, ⟨30, 30, .rw, 0, .kept⟩]⟩
  | .secSvn => ⟨0x2100008, 4, 1, false, [⟨6, 0, .ro, 0, .kept⟩]⟩
  | .secDevid => ⟨0x2100010, 4, 4, false, [⟨31, 0, .ro, 0, .kept⟩]⟩
  | .secLms => ⟨0x2100020, 4, 1, true, [⟨39, 0, .ro, 0, .to 0⟩]⟩
  | .secLmsLimit => ⟨0x2100028, 4, 1, true, [⟨39, 0, .ro, 0, .to 0⟩]⟩
  | .secRcvCtl => ⟨0x2100030, 4, 1, false, [⟨31, 31, .w1s, 0, .to 0⟩, ⟨30, 30, .rw, 0, .to 0⟩, ⟨29, 29, .rw, 0, .to 0⟩, ⟨28, 28, .w1s, 0, .to 0⟩, ⟨16, 0, .rw, 0, .to 0⟩]⟩
  | .secRcvStat => ⟨0x2100034, 4, 1, false, [⟨31, 30, .ro, 0, .to 0⟩, ⟨29, 24, .ro, 0, .to 0⟩, ⟨23, 0, .ro, 0, .to 0⟩]⟩
  | .secDbgCtl => ⟨0x2100040, 4, 1, false, [⟨31, 31, .w1s, 0, .to 0⟩, ⟨30, 30, .w1s, 0, .to 0⟩, ⟨29, 29, .w1s, 0, .to 0⟩]⟩
  | .secDbgStat => ⟨0x2100044, 4, 1, false, [⟨31, 30, .ro, 0, .to 0⟩, ⟨29, 28, .ro, 0, .to 0⟩, ⟨3, 0, .ro, 0, .to 0⟩]⟩
  | .secDbgNonce => ⟨0x2100050, 4, 8, false, [⟨31, 0, .ro, 0, .to 0⟩]⟩
  | .secGlitchCnt => ⟨0x2100070, 4, 1, false, [⟨31, 0, .rc, 0, .kept⟩]⟩
  | .secEvtStat => ⟨0x2100080, 4, 1, false, [⟨4, 4, .w1c, 0, .to 0⟩, ⟨3, 3, .w1c, 0, .to 0⟩, ⟨2, 2, .w1c, 0, .to 0⟩, ⟨1, 1, .w1c, 0, .to 0⟩, ⟨0, 0, .w1c, 0, .to 0⟩]⟩
  | .secEvtEn => ⟨0x2100084, 4, 1, false, [⟨4, 0, .rw, 0, .kept⟩]⟩
  | .secEvtMsgAddr => ⟨0x2100088, 4, 1, true, [⟨63, 2, .rw, 0, .kept⟩]⟩
  | .secEvtMsgData => ⟨0x2100090, 4, 1, false, [⟨31, 0, .rw, 0, .kept⟩]⟩
  | .mgtCtl => ⟨0x2200000, 4, 1, false, [⟨31, 30, .rw, 2, .kept⟩, ⟨29, 29, .rw, 1, .kept⟩, ⟨7, 0, .rw, 0, .kept⟩]⟩
  | .mgtStat => ⟨0x2200004, 4, 1, false, [⟨31, 31, .ro, 0, .to 0⟩, ⟨30, 24, .ro, 0, .to 0⟩, ⟨23, 16, .ro, 0, .to 0⟩, ⟨8, 0, .ro, 0, .to 0⟩]⟩
  | .mgtFifoLost => ⟨0x2200008, 4, 1, false, [⟨31, 0, .rc, 0, .to 0⟩]⟩
  | .mgtTelBase => ⟨0x2200010, 4, 1, true, [⟨47, 12, .rw, 0, .kept⟩]⟩
  | .mgtTelCtl => ⟨0x2200018, 4, 1, false, [⟨31, 31, .rw, 0, .to 0⟩, ⟨11, 8, .rw, 0, .kept⟩, ⟨4, 0, .rw, 6, .kept⟩]⟩
  | .mgtTelHead => ⟨0x220001C, 4, 1, false, [⟨31, 0, .rw, 0, .to 0⟩]⟩
  | .mgtTelLost => ⟨0x2200020, 4, 1, false, [⟨31, 0, .rc, 0, .to 0⟩]⟩
  | .glbId => ⟨0x0, 4, 1, false, [⟨30, 16, .ro, 11335, .to 11335⟩, ⟨15, 0, .ro, 4434, .to 4434⟩]⟩
  | .glbRev => ⟨0x4, 4, 1, false, [⟨15, 12, .ro, 1, .to 1⟩, ⟨11, 8, .ro, 0, .to 0⟩, ⟨7, 0, .ro, 1, .to 1⟩]⟩
  | .glbCap0 => ⟨0x8, 4, 1, false, [⟨27, 16, .ro, 1152, .to 1152⟩, ⟨15, 12, .ro, 4, .to 4⟩, ⟨11, 8, .ro, 11, .to 11⟩, ⟨4, 0, .ro, 18, .to 18⟩]⟩
  | .glbCap1 => ⟨0xC, 4, 1, false, [⟨31, 26, .ro, 32, .to 32⟩, ⟨25, 24, .ro, 3, .to 3⟩, ⟨23, 22, .ro, 3, .to 3⟩, ⟨12, 0, .ro, 4096, .to 4096⟩]⟩
  | .glbMem => ⟨0x10, 4, 1, true, [⟨47, 32, .ro, 1440, .to 1440⟩, ⟨31, 16, .ro, 36, .to 36⟩, ⟨15, 0, .ro, 1024, .to 1024⟩]⟩
  | .glbFmt => ⟨0x18, 4, 1, false, [⟨14, 14, .ro, 1, .to 1⟩, ⟨13, 13, .ro, 1, .to 1⟩, ⟨12, 12, .ro, 1, .to 1⟩, ⟨11, 1, .ro, 2047, .to 2047⟩]⟩
  | .glbClk => ⟨0x1C, 4, 1, false, [⟨31, 16, .ro, 1700, .to 1700⟩, ⟨15, 0, .ro, 1200, .to 1200⟩]⟩
  | .glbTime => ⟨0x20, 4, 1, true, [⟨63, 0, .ro, 0, .kept⟩]⟩
  | .glbSlot => ⟨0x28, 4, 1, false, [⟨1, 0, .ro, 0, .kept⟩]⟩
  | .glbScratch => ⟨0x2C, 4, 1, false, [⟨31, 0, .rw, 0, .kept⟩]⟩
  | .glbEngRst => ⟨0x40, 4, 1, false, [⟨10, 0, .w1s, 0, .to 0⟩]⟩
  | .glbCtxRst => ⟨0x44, 4, 1, false, [⟨15, 0, .w1s, 0, .to 0⟩]⟩
  | .mirBstat => ⟨0x1D00100, 64, 3, false, [⟨31, 28, .ro, 0, .to 0⟩, ⟨27, 26, .ro, 0, .to 0⟩, ⟨25, 25, .ro, 0, .to 0⟩, ⟨15, 0, .ro, 0, .to 0⟩]⟩
  | .mirBctl => ⟨0x1D00104, 64, 3, false, [⟨31, 31, .w1s, 0, .to 0⟩, ⟨30, 30, .rw, 0, .kept⟩]⟩
  | .mirPol => ⟨0x1D00108, 64, 3, false, [⟨15, 0, .ro, 0, .to 0⟩]⟩
  | .mirFecCe => ⟨0x1D0010C, 64, 3, false, [⟨31, 0, .rc, 0, .to 0⟩]⟩
  | .mirFecUe => ⟨0x1D00110, 64, 3, false, [⟨31, 0, .rc, 0, .to 0⟩]⟩
  | .mirCrcErr => ⟨0x1D00114, 64, 3, false, [⟨31, 0, .rc, 0, .to 0⟩]⟩
  | .mirReplay => ⟨0x1D00118, 64, 3, false, [⟨31, 0, .rc, 0, .to 0⟩]⟩
  | .mirRetrain => ⟨0x1D0011C, 64, 3, false, [⟨31, 0, .rc, 0, .to 0⟩]⟩
  | .mirResend => ⟨0x1D00120, 64, 3, false, [⟨31, 0, .rc, 0, .to 0⟩]⟩
  | .fmcGlbScrub => ⟨0x100000C, 4, 1, false, [⟨31, 0, .ro, 0, .kept⟩]⟩
  | .nmcGlbScrub => ⟨0x1400000, 4, 1, false, [⟨31, 0, .ro, 0, .kept⟩]⟩

/-- Every register, in the order of the chapters. -/
def allRegs : List Reg :=
  List.flatten [
    [.mshDistSvc, .klnFrameCtl, .klnFrameStat, .klnFrameNum, .klnTickTime, .engDbTail, .engDbHead, .klnQbase, .klnQctl, .klnQstat, .klnCrbase, .klnCrctl],
    [.klnCrhead, .klnCrmsgAddr, .klnCrmsgData, .klnCrcoal, .klnThrottle, .klnStolenCap, .klnStolenLast, .klnUsable, .klnOverrunCnt, .klnAbortCtl, .klnRepair, .klnEvtStat],
    [.klnEvtEn, .klnEvtMsgAddr, .klnEvtMsgData, .dbgSwi, .klnXeAmax, .klnXeNumstat, .klnHtabW0, .klnHtabW1, .nmcStat, .nmcErrcnt, .nmcRepair, .fmcMap],
    [.fmcGlbStat, .fmcFailed, .fmcStat, .fmcErrcnt, .fmcCalCtl, .fmcCalStat, .fmcRepair, .mshCmbCtl, .mshEvtStat, .mshErrcnt, .mshCmbCnt, .mshDropCnt],
    [.mshMonSel, .mshMonFlits, .mshMonBlock, .mshMonTime, .synVtab, .synCnt, .synEvtStat, .synErrcnt, .dbgSynSel, .dbgSynSet, .dbgSynStat, .dbgSynWaiters],
    [.fmcScrubCtl, .fmcScrubStat, .fmcScrubLap, .fmcScrubTime, .fmcSwathCnt, .nmcScrubCtl, .nmcScrubStat, .nmcScrubLap, .nmcScrubTime, .vclCtl, .vclCtxMap, .vclFsyncCtl],
    [.vclFsyncAddr, .vclEvtStat, .vclEvtEn, .vclEvtMsgAddr, .vclEvtMsgData, .vclBstat, .vclBctl, .vclPol, .vclFecCe, .vclFecUe, .vclCrcErr, .vclReplay],
    [.vclRetrain, .vclResend, .mirCtl, .mirStat, .mirEpochClosed, .mirEpochAck, .mirWitnessAddr, .mirPeerWitnessAddr, .mirRiskCtl, .mirCadence, .mirSnapLast, .mirSnapGran],
    [.mirResync, .mirEvtStat, .mirEvtEn, .mirEvtMsgAddr, .mirEvtMsgData, .mirHeldCnt, .mirRegionBase, .mirRegionLen, .hrtStat, .hrtVin, .hrtFrame, .hrtHarm0],
    [.hrtHarm1, .hrtCtl, .hrtEvtThr, .hrtVcore, .hrtEnergy, .hrtEvtStat, .hrtEvtEn, .hrtEvtMsgAddr, .hrtEvtMsgData, .hrtEvtCnt, .hrtWaveCtl, .hrtWaveTime],
    [.conTherm, .conDram, .conProc, .conSnapTime, .conThermCtl, .conDroopCtl, .conDroopCnt, .conStat, .conEvtStat, .conEvtEn, .rasReplayCtl, .rasFallowCtl],
    [.rasCoalCtl, .rasHringBase, .rasHringCtl, .rasHringHead, .rasEvtStat, .rasEvtEn, .rasEvtMsgAddr, .rasEvtMsgData, .rasRingOvf, .rasReplayCnt, .rasSeq, .rasFallowStat],
    [.rasRetired, .dbgCtl, .dbgStat, .dbgMsegBase, .dbgMsegLimit, .dbgMevec, .dbgRegSel, .dbgRegData, .secBootStat, .secBootCtl, .secSvn, .secDevid],
    [.secLms, .secLmsLimit, .secRcvCtl, .secRcvStat, .secDbgCtl, .secDbgStat, .secDbgNonce, .secGlitchCnt, .secEvtStat, .secEvtEn, .secEvtMsgAddr, .secEvtMsgData],
    [.mgtCtl, .mgtStat, .mgtFifoLost, .mgtTelBase, .mgtTelCtl, .mgtTelHead, .mgtTelLost, .glbId, .glbRev, .glbCap0, .glbCap1, .glbMem],
    [.glbFmt, .glbClk, .glbTime, .glbSlot, .glbScratch, .glbEngRst, .glbCtxRst, .mirBstat, .mirBctl, .mirPol, .mirFecCe, .mirFecUe],
    [.mirCrcErr, .mirReplay, .mirRetrain, .mirResend, .fmcGlbScrub, .nmcGlbScrub]]

namespace F

/-- MSH_DIST_SVC.far_svc, 01 R53. -/
abbrev mshDistSvc_far_svc : Fld := ⟨.mshDistSvc, 31, 20⟩
/-- MSH_DIST_SVC.host_svc, 01 R53. -/
abbrev mshDistSvc_host_svc : Fld := ⟨.mshDistSvc, 19, 8⟩
/-- MSH_DIST_SVC.sc_svc, 01 R53. -/
abbrev mshDistSvc_sc_svc : Fld := ⟨.mshDistSvc, 7, 0⟩
/-- KLN_FRAME_CTL.tick_en, 02 R66. -/
abbrev klnFrameCtl_tick_en : Fld := ⟨.klnFrameCtl, 31, 31⟩
/-- KLN_FRAME_CTL.src, 02 R66. -/
abbrev klnFrameCtl_src : Fld := ⟨.klnFrameCtl, 27, 26⟩
/-- KLN_FRAME_CTL.sync_out, 02 R66. -/
abbrev klnFrameCtl_sync_out : Fld := ⟨.klnFrameCtl, 25, 25⟩
/-- KLN_FRAME_CTL.win, 02 R66. -/
abbrev klnFrameCtl_win : Fld := ⟨.klnFrameCtl, 24, 16⟩
/-- KLN_FRAME_CTL.period_us, 02 R66. -/
abbrev klnFrameCtl_period_us : Fld := ⟨.klnFrameCtl, 10, 0⟩
/-- KLN_FRAME_STAT.locked, 02 R67. -/
abbrev klnFrameStat_locked : Fld := ⟨.klnFrameStat, 31, 31⟩
/-- KLN_FRAME_STAT.miss_run, 02 R67. -/
abbrev klnFrameStat_miss_run : Fld := ⟨.klnFrameStat, 23, 16⟩
/-- KLN_FRAME_STAT.miss_cnt, 02 R67. -/
abbrev klnFrameStat_miss_cnt : Fld := ⟨.klnFrameStat, 15, 0⟩
/-- KLN_FRAME_NUM.count, 02 R68. -/
abbrev klnFrameNum_count : Fld := ⟨.klnFrameNum, 47, 0⟩
/-- KLN_TICK_TIME.time_ns, 02 R68. -/
abbrev klnTickTime_time_ns : Fld := ⟨.klnTickTime, 63, 0⟩
/-- ENG_DB_TAIL.tail, 02 R72. -/
abbrev engDbTail_tail : Fld := ⟨.engDbTail, 31, 0⟩
/-- ENG_DB_HEAD.head, 02 R72. -/
abbrev engDbHead_head : Fld := ⟨.engDbHead, 31, 0⟩
/-- KLN_QBASE.base, 02 R76. -/
abbrev klnQbase_base : Fld := ⟨.klnQbase, 47, 12⟩
/-- KLN_QCTL.en, 02 R76. -/
abbrev klnQctl_en : Fld := ⟨.klnQctl, 31, 31⟩
/-- KLN_QCTL.policy, 02 R76. -/
abbrev klnQctl_policy : Fld := ⟨.klnQctl, 30, 30⟩
/-- KLN_QCTL.size_log2, 02 R76. -/
abbrev klnQctl_size_log2 : Fld := ⟨.klnQctl, 4, 0⟩
/-- KLN_QSTAT.state, 02 R76. -/
abbrev klnQstat_state : Fld := ⟨.klnQstat, 31, 30⟩
/-- KLN_QSTAT.overrun, 02 R76. -/
abbrev klnQstat_overrun : Fld := ⟨.klnQstat, 29, 29⟩
/-- KLN_QSTAT.db_err, 02 R76. -/
abbrev klnQstat_db_err : Fld := ⟨.klnQstat, 28, 28⟩
/-- KLN_CRBASE.base, 02 R94. -/
abbrev klnCrbase_base : Fld := ⟨.klnCrbase, 47, 12⟩
/-- KLN_CRCTL.en, 02 R94. -/
abbrev klnCrctl_en : Fld := ⟨.klnCrctl, 31, 31⟩
/-- KLN_CRCTL.irq_en, 02 R94. -/
abbrev klnCrctl_irq_en : Fld := ⟨.klnCrctl, 30, 30⟩
/-- KLN_CRCTL.owner, 02 R94. -/
abbrev klnCrctl_owner : Fld := ⟨.klnCrctl, 23, 20⟩
/-- KLN_CRCTL.size_log2, 02 R94. -/
abbrev klnCrctl_size_log2 : Fld := ⟨.klnCrctl, 4, 0⟩
/-- KLN_CRHEAD.consumed, 02 R94. -/
abbrev klnCrhead_consumed : Fld := ⟨.klnCrhead, 31, 0⟩
/-- KLN_CRMSG_ADDR.addr, 02 R94. -/
abbrev klnCrmsgAddr_addr : Fld := ⟨.klnCrmsgAddr, 63, 2⟩
/-- KLN_CRMSG_DATA.data, 02 R94. -/
abbrev klnCrmsgData_data : Fld := ⟨.klnCrmsgData, 31, 0⟩
/-- KLN_CRCOAL.timer_us, 02 R94. -/
abbrev klnCrcoal_timer_us : Fld := ⟨.klnCrcoal, 31, 16⟩
/-- KLN_CRCOAL.count, 02 R94. -/
abbrev klnCrcoal_count : Fld := ⟨.klnCrcoal, 7, 0⟩
/-- KLN_THROTTLE.eff, 02 R106. -/
abbrev klnThrottle_eff : Fld := ⟨.klnThrottle, 11, 10⟩
/-- KLN_THROTTLE.cone, 02 R106. -/
abbrev klnThrottle_cone : Fld := ⟨.klnThrottle, 9, 8⟩
/-- KLN_THROTTLE.hearth, 02 R106. -/
abbrev klnThrottle_hearth : Fld := ⟨.klnThrottle, 7, 6⟩
/-- KLN_THROTTLE.host, 02 R106. -/
abbrev klnThrottle_host : Fld := ⟨.klnThrottle, 1, 0⟩
/-- KLN_STOLEN_CAP.cap_ns, 02 R106. -/
abbrev klnStolenCap_cap_ns : Fld := ⟨.klnStolenCap, 19, 0⟩
/-- KLN_STOLEN_LAST.class, 02 R106. -/
abbrev klnStolenLast_class : Fld := ⟨.klnStolenLast, 27, 24⟩
/-- KLN_STOLEN_LAST.ns, 02 R106. -/
abbrev klnStolenLast_ns : Fld := ⟨.klnStolenLast, 23, 0⟩
/-- KLN_USABLE.usable_ns, 02 R106. -/
abbrev klnUsable_usable_ns : Fld := ⟨.klnUsable, 20, 0⟩
/-- KLN_OVERRUN_CNT.count, 02 R106. -/
abbrev klnOverrunCnt_count : Fld := ⟨.klnOverrunCnt, 31, 0⟩
/-- KLN_ABORT_CTL.grace_us, 02 R106. -/
abbrev klnAbortCtl_grace_us : Fld := ⟨.klnAbortCtl, 15, 0⟩
/-- KLN_REPAIR.grant, 02 R107. -/
abbrev klnRepair_grant : Fld := ⟨.klnRepair, 63, 63⟩
/-- KLN_REPAIR.pend, 02 R107. -/
abbrev klnRepair_pend : Fld := ⟨.klnRepair, 31, 0⟩
/-- KLN_EVT_STAT.repair, 02 R110. -/
abbrev klnEvtStat_repair : Fld := ⟨.klnEvtStat, 6, 6⟩
/-- KLN_EVT_STAT.throttle, 02 R110. -/
abbrev klnEvtStat_throttle : Fld := ⟨.klnEvtStat, 5, 5⟩
/-- KLN_EVT_STAT.cfg_err, 02 R110. -/
abbrev klnEvtStat_cfg_err : Fld := ⟨.klnEvtStat, 4, 4⟩
/-- KLN_EVT_STAT.db_err, 02 R110. -/
abbrev klnEvtStat_db_err : Fld := ⟨.klnEvtStat, 3, 3⟩
/-- KLN_EVT_STAT.sync_lost, 02 R110. -/
abbrev klnEvtStat_sync_lost : Fld := ⟨.klnEvtStat, 2, 2⟩
/-- KLN_EVT_STAT.sync_miss, 02 R110. -/
abbrev klnEvtStat_sync_miss : Fld := ⟨.klnEvtStat, 1, 1⟩
/-- KLN_EVT_STAT.overrun, 02 R110. -/
abbrev klnEvtStat_overrun : Fld := ⟨.klnEvtStat, 0, 0⟩
/-- KLN_EVT_EN.en, 02 R110. -/
abbrev klnEvtEn_en : Fld := ⟨.klnEvtEn, 6, 0⟩
/-- KLN_EVT_MSG_ADDR.addr, 02 R110. -/
abbrev klnEvtMsgAddr_addr : Fld := ⟨.klnEvtMsgAddr, 63, 2⟩
/-- KLN_EVT_MSG_DATA.data, 02 R110. -/
abbrev klnEvtMsgData_data : Fld := ⟨.klnEvtMsgData, 31, 0⟩
/-- DBG_SWI.mswi, 04 R183. -/
abbrev dbgSwi_mswi : Fld := ⟨.dbgSwi, 1, 1⟩
/-- DBG_SWI.sswi, 04 R183. -/
abbrev dbgSwi_sswi : Fld := ⟨.dbgSwi, 0, 0⟩
/-- KLN_XE_AMAX.mag, 07 R285. -/
abbrev klnXeAmax_mag : Fld := ⟨.klnXeAmax, 30, 0⟩
/-- KLN_XE_NUMSTAT.nan, 07 R285. -/
abbrev klnXeNumstat_nan : Fld := ⟨.klnXeNumstat, 31, 16⟩
/-- KLN_XE_NUMSTAT.sat, 07 R285. -/
abbrev klnXeNumstat_sat : Fld := ⟨.klnXeNumstat, 15, 0⟩
/-- KLN_HTAB_W0.valid, 08 R305. -/
abbrev klnHtabW0_valid : Fld := ⟨.klnHtabW0, 63, 63⟩
/-- KLN_HTAB_W0.class, 08 R305. -/
abbrev klnHtabW0_class : Fld := ⟨.klnHtabW0, 59, 58⟩
/-- KLN_HTAB_W0.x, 08 R305. -/
abbrev klnHtabW0_x : Fld := ⟨.klnHtabW0, 57, 57⟩
/-- KLN_HTAB_W0.w, 08 R305. -/
abbrev klnHtabW0_w : Fld := ⟨.klnHtabW0, 56, 56⟩
/-- KLN_HTAB_W0.r, 08 R305. -/
abbrev klnHtabW0_r : Fld := ⟨.klnHtabW0, 55, 55⟩
/-- KLN_HTAB_W0.base, 08 R305. -/
abbrev klnHtabW0_base : Fld := ⟨.klnHtabW0, 47, 0⟩
/-- KLN_HTAB_W1.length, 08 R305. -/
abbrev klnHtabW1_length : Fld := ⟨.klnHtabW1, 47, 0⟩
/-- NMC_STAT.repairing, 09 R337. -/
abbrev nmcStat_repairing : Fld := ⟨.nmcStat, 31, 31⟩
/-- NMC_STAT.spare_left, 09 R337. -/
abbrev nmcStat_spare_left : Fld := ⟨.nmcStat, 15, 8⟩
/-- NMC_STAT.fuse_left, 09 R337. -/
abbrev nmcStat_fuse_left : Fld := ⟨.nmcStat, 7, 0⟩
/-- NMC_ERRCNT.ce, 09 R337. -/
abbrev nmcErrcnt_ce : Fld := ⟨.nmcErrcnt, 31, 16⟩
/-- NMC_ERRCNT.ue, 09 R337. -/
abbrev nmcErrcnt_ue : Fld := ⟨.nmcErrcnt, 15, 0⟩
/-- NMC_REPAIR.go, 09 R337. -/
abbrev nmcRepair_go : Fld := ⟨.nmcRepair, 63, 63⟩
/-- NMC_REPAIR.status, 09 R337. -/
abbrev nmcRepair_status : Fld := ⟨.nmcRepair, 62, 60⟩
/-- NMC_REPAIR.hard, 09 R337. -/
abbrev nmcRepair_hard : Fld := ⟨.nmcRepair, 25, 25⟩
/-- NMC_REPAIR.sub, 09 R337. -/
abbrev nmcRepair_sub : Fld := ⟨.nmcRepair, 24, 24⟩
/-- NMC_REPAIR.bank, 09 R337. -/
abbrev nmcRepair_bank : Fld := ⟨.nmcRepair, 23, 20⟩
/-- NMC_REPAIR.row, 09 R337. -/
abbrev nmcRepair_row : Fld := ⟨.nmcRepair, 17, 0⟩
/-- FMC_MAP.lock, 09 R353. -/
abbrev fmcMap_lock : Fld := ⟨.fmcMap, 31, 31⟩
/-- FMC_MAP.start, 09 R353. -/
abbrev fmcMap_start : Fld := ⟨.fmcMap, 30, 30⟩
/-- FMC_MAP.rate, 09 R353. -/
abbrev fmcMap_rate : Fld := ⟨.fmcMap, 9, 8⟩
/-- FMC_MAP.local_gib, 09 R353. -/
abbrev fmcMap_local_gib : Fld := ⟨.fmcMap, 5, 0⟩
/-- FMC_GLB_STAT.fill, 09 R353. -/
abbrev fmcGlbStat_fill : Fld := ⟨.fmcGlbStat, 31, 30⟩
/-- FMC_GLB_STAT.cfg_err, 09 R353. -/
abbrev fmcGlbStat_cfg_err : Fld := ⟨.fmcGlbStat, 29, 29⟩
/-- FMC_GLB_STAT.fill_pct, 09 R353. -/
abbrev fmcGlbStat_fill_pct : Fld := ⟨.fmcGlbStat, 6, 0⟩
/-- FMC_FAILED.ports, 09 R353. -/
abbrev fmcFailed_ports : Fld := ⟨.fmcFailed, 31, 0⟩
/-- FMC_STAT.state, 09 R354. -/
abbrev fmcStat_state : Fld := ⟨.fmcStat, 31, 29⟩
/-- FMC_STAT.rate, 09 R354. -/
abbrev fmcStat_rate : Fld := ⟨.fmcStat, 28, 27⟩
/-- FMC_STAT.cal_overdue, 09 R354. -/
abbrev fmcStat_cal_overdue : Fld := ⟨.fmcStat, 26, 26⟩
/-- FMC_ERRCNT.ce, 09 R354. -/
abbrev fmcErrcnt_ce : Fld := ⟨.fmcErrcnt, 31, 16⟩
/-- FMC_ERRCNT.ue, 09 R354. -/
abbrev fmcErrcnt_ue : Fld := ⟨.fmcErrcnt, 15, 0⟩
/-- FMC_CAL_CTL.retrain_ms, 09 R354. -/
abbrev fmcCalCtl_retrain_ms : Fld := ⟨.fmcCalCtl, 31, 16⟩
/-- FMC_CAL_CTL.osc_us, 09 R354. -/
abbrev fmcCalCtl_osc_us : Fld := ⟨.fmcCalCtl, 15, 0⟩
/-- FMC_CAL_STAT.overdue_slices, 09 R354. -/
abbrev fmcCalStat_overdue_slices : Fld := ⟨.fmcCalStat, 31, 16⟩
/-- FMC_CAL_STAT.retrains, 09 R354. -/
abbrev fmcCalStat_retrains : Fld := ⟨.fmcCalStat, 15, 0⟩
/-- FMC_REPAIR.go, 09 R354. -/
abbrev fmcRepair_go : Fld := ⟨.fmcRepair, 63, 63⟩
/-- FMC_REPAIR.status, 09 R354. -/
abbrev fmcRepair_status : Fld := ⟨.fmcRepair, 62, 60⟩
/-- FMC_REPAIR.hard, 09 R354. -/
abbrev fmcRepair_hard : Fld := ⟨.fmcRepair, 25, 25⟩
/-- FMC_REPAIR.sub, 09 R354. -/
abbrev fmcRepair_sub : Fld := ⟨.fmcRepair, 24, 24⟩
/-- FMC_REPAIR.bank, 09 R354. -/
abbrev fmcRepair_bank : Fld := ⟨.fmcRepair, 23, 20⟩
/-- FMC_REPAIR.row, 09 R354. -/
abbrev fmcRepair_row : Fld := ⟨.fmcRepair, 17, 0⟩
/-- MSH_CMB_CTL.det_to, 10 R386. -/
abbrev mshCmbCtl_det_to : Fld := ⟨.mshCmbCtl, 31, 16⟩
/-- MSH_CMB_CTL.hold, 10 R386. -/
abbrev mshCmbCtl_hold : Fld := ⟨.mshCmbCtl, 11, 0⟩
/-- MSH_EVT_STAT.ctx_drop, 10 R386. -/
abbrev mshEvtStat_ctx_drop : Fld := ⟨.mshEvtStat, 5, 5⟩
/-- MSH_EVT_STAT.refused, 10 R386. -/
abbrev mshEvtStat_refused : Fld := ⟨.mshEvtStat, 4, 4⟩
/-- MSH_EVT_STAT.unmerged, 10 R386. -/
abbrev mshEvtStat_unmerged : Fld := ⟨.mshEvtStat, 3, 3⟩
/-- MSH_EVT_STAT.det_timeout, 10 R386. -/
abbrev mshEvtStat_det_timeout : Fld := ⟨.mshEvtStat, 2, 2⟩
/-- MSH_EVT_STAT.link_ue, 10 R386. -/
abbrev mshEvtStat_link_ue : Fld := ⟨.mshEvtStat, 1, 1⟩
/-- MSH_EVT_STAT.link_ce, 10 R386. -/
abbrev mshEvtStat_link_ce : Fld := ⟨.mshEvtStat, 0, 0⟩
/-- MSH_ERRCNT.ce, 10 R386. -/
abbrev mshErrcnt_ce : Fld := ⟨.mshErrcnt, 31, 16⟩
/-- MSH_ERRCNT.ue, 10 R386. -/
abbrev mshErrcnt_ue : Fld := ⟨.mshErrcnt, 15, 0⟩
/-- MSH_CMB_CNT.timeouts, 10 R386. -/
abbrev mshCmbCnt_timeouts : Fld := ⟨.mshCmbCnt, 31, 16⟩
/-- MSH_CMB_CNT.unmerged, 10 R386. -/
abbrev mshCmbCnt_unmerged : Fld := ⟨.mshCmbCnt, 15, 0⟩
/-- MSH_DROP_CNT.ctx_drop, 10 R386. -/
abbrev mshDropCnt_ctx_drop : Fld := ⟨.mshDropCnt, 31, 16⟩
/-- MSH_DROP_CNT.refused, 10 R386. -/
abbrev mshDropCnt_refused : Fld := ⟨.mshDropCnt, 15, 0⟩
/-- MSH_MON_SEL.en, 10 R387. -/
abbrev mshMonSel_en : Fld := ⟨.mshMonSel, 31, 31⟩
/-- MSH_MON_SEL.dir, 10 R387. -/
abbrev mshMonSel_dir : Fld := ⟨.mshMonSel, 25, 24⟩
/-- MSH_MON_SEL.vn, 10 R387. -/
abbrev mshMonSel_vn : Fld := ⟨.mshMonSel, 23, 20⟩
/-- MSH_MON_SEL.x, 10 R387. -/
abbrev mshMonSel_x : Fld := ⟨.mshMonSel, 15, 10⟩
/-- MSH_MON_SEL.y, 10 R387. -/
abbrev mshMonSel_y : Fld := ⟨.mshMonSel, 9, 5⟩
/-- MSH_MON_FLITS.flits, 10 R387. -/
abbrev mshMonFlits_flits : Fld := ⟨.mshMonFlits, 47, 0⟩
/-- MSH_MON_BLOCK.cycles, 10 R387. -/
abbrev mshMonBlock_cycles : Fld := ⟨.mshMonBlock, 47, 0⟩
/-- MSH_MON_TIME.cycles, 10 R387. -/
abbrev mshMonTime_cycles : Fld := ⟨.mshMonTime, 47, 0⟩
/-- SYN_VTAB.valid, 12 R443. -/
abbrev synVtab_valid : Fld := ⟨.synVtab, 31, 31⟩
/-- SYN_VTAB.s, 12 R443. -/
abbrev synVtab_s : Fld := ⟨.synVtab, 30, 30⟩
/-- SYN_VTAB.w, 12 R443. -/
abbrev synVtab_w : Fld := ⟨.synVtab, 29, 29⟩
/-- SYN_VTAB.r, 12 R443. -/
abbrev synVtab_r : Fld := ⟨.synVtab, 28, 28⟩
/-- SYN_VTAB.phys, 12 R443. -/
abbrev synVtab_phys : Fld := ⟨.synVtab, 11, 0⟩
/-- SYN_CNT.count, 12 R445. -/
abbrev synCnt_count : Fld := ⟨.synCnt, 31, 0⟩
/-- SYN_EVT_STAT.bad_id, 12 R445. -/
abbrev synEvtStat_bad_id : Fld := ⟨.synEvtStat, 2, 2⟩
/-- SYN_EVT_STAT.overflow, 12 R445. -/
abbrev synEvtStat_overflow : Fld := ⟨.synEvtStat, 1, 1⟩
/-- SYN_EVT_STAT.underflow, 12 R445. -/
abbrev synEvtStat_underflow : Fld := ⟨.synEvtStat, 0, 0⟩
/-- SYN_ERRCNT.overflow, 12 R445. -/
abbrev synErrcnt_overflow : Fld := ⟨.synErrcnt, 31, 16⟩
/-- SYN_ERRCNT.underflow, 12 R445. -/
abbrev synErrcnt_underflow : Fld := ⟨.synErrcnt, 15, 0⟩
/-- DBG_SYN_SEL.phys, 12 R455. -/
abbrev dbgSynSel_phys : Fld := ⟨.dbgSynSel, 11, 0⟩
/-- DBG_SYN_SET.value, 12 R455. -/
abbrev dbgSynSet_value : Fld := ⟨.dbgSynSet, 31, 0⟩
/-- DBG_SYN_STAT.head_valid, 12 R455. -/
abbrev dbgSynStat_head_valid : Fld := ⟨.dbgSynStat, 31, 31⟩
/-- DBG_SYN_STAT.head_n, 12 R455. -/
abbrev dbgSynStat_head_n : Fld := ⟨.dbgSynStat, 30, 0⟩
/-- DBG_SYN_WAITERS.count, 12 R455. -/
abbrev dbgSynWaiters_count : Fld := ⟨.dbgSynWaiters, 11, 0⟩
/-- FMC_SCRUB_CTL.en, 14 R479. -/
abbrev fmcScrubCtl_en : Fld := ⟨.fmcScrubCtl, 31, 31⟩
/-- FMC_SCRUB_CTL.target_min, 14 R479. -/
abbrev fmcScrubCtl_target_min : Fld := ⟨.fmcScrubCtl, 15, 0⟩
/-- FMC_SCRUB_STAT.mode, 14 R479. -/
abbrev fmcScrubStat_mode : Fld := ⟨.fmcScrubStat, 31, 30⟩
/-- FMC_SCRUB_STAT.behind, 14 R479. -/
abbrev fmcScrubStat_behind : Fld := ⟨.fmcScrubStat, 29, 29⟩
/-- FMC_SCRUB_STAT.pos, 14 R479. -/
abbrev fmcScrubStat_pos : Fld := ⟨.fmcScrubStat, 25, 0⟩
/-- FMC_SCRUB_LAP.laps, 14 R479. -/
abbrev fmcScrubLap_laps : Fld := ⟨.fmcScrubLap, 31, 0⟩
/-- FMC_SCRUB_TIME.last_ms, 14 R479. -/
abbrev fmcScrubTime_last_ms : Fld := ⟨.fmcScrubTime, 31, 0⟩
/-- FMC_SWATH_CNT.sketches, 14 R479. -/
abbrev fmcSwathCnt_sketches : Fld := ⟨.fmcSwathCnt, 47, 0⟩
/-- NMC_SCRUB_CTL.en, 14 R480. -/
abbrev nmcScrubCtl_en : Fld := ⟨.nmcScrubCtl, 31, 31⟩
/-- NMC_SCRUB_CTL.target_min, 14 R480. -/
abbrev nmcScrubCtl_target_min : Fld := ⟨.nmcScrubCtl, 15, 0⟩
/-- NMC_SCRUB_STAT.mode, 14 R480. -/
abbrev nmcScrubStat_mode : Fld := ⟨.nmcScrubStat, 31, 30⟩
/-- NMC_SCRUB_STAT.behind, 14 R480. -/
abbrev nmcScrubStat_behind : Fld := ⟨.nmcScrubStat, 29, 29⟩
/-- NMC_SCRUB_STAT.pos, 14 R480. -/
abbrev nmcScrubStat_pos : Fld := ⟨.nmcScrubStat, 13, 0⟩
/-- NMC_SCRUB_LAP.laps, 14 R480. -/
abbrev nmcScrubLap_laps : Fld := ⟨.nmcScrubLap, 31, 0⟩
/-- NMC_SCRUB_TIME.last_ms, 14 R480. -/
abbrev nmcScrubTime_last_ms : Fld := ⟨.nmcScrubTime, 31, 0⟩
/-- VCL_CTL.en, 15 R523. -/
abbrev vclCtl_en : Fld := ⟨.vclCtl, 31, 31⟩
/-- VCL_CTL.rst_en, 15 R523. -/
abbrev vclCtl_rst_en : Fld := ⟨.vclCtl, 30, 30⟩
/-- VCL_CTL.rate, 15 R523. -/
abbrev vclCtl_rate : Fld := ⟨.vclCtl, 29, 28⟩
/-- VCL_CTL.cpl_to_us, 15 R523. -/
abbrev vclCtl_cpl_to_us : Fld := ⟨.vclCtl, 15, 0⟩
/-- VCL_CTX_MAP.bundle, 15 R523. -/
abbrev vclCtxMap_bundle : Fld := ⟨.vclCtxMap, 31, 0⟩
/-- VCL_FSYNC_CTL.en, 15 R523. -/
abbrev vclFsyncCtl_en : Fld := ⟨.vclFsyncCtl, 31, 31⟩
/-- VCL_FSYNC_CTL.div, 15 R523. -/
abbrev vclFsyncCtl_div : Fld := ⟨.vclFsyncCtl, 3, 0⟩
/-- VCL_FSYNC_ADDR.addr, 15 R523. -/
abbrev vclFsyncAddr_addr : Fld := ⟨.vclFsyncAddr, 47, 4⟩
/-- VCL_EVT_STAT.cfg_err, 15 R523. -/
abbrev vclEvtStat_cfg_err : Fld := ⟨.vclEvtStat, 9, 9⟩
/-- VCL_EVT_STAT.msg_err, 15 R523. -/
abbrev vclEvtStat_msg_err : Fld := ⟨.vclEvtStat, 8, 8⟩
/-- VCL_EVT_STAT.xlat_err, 15 R523. -/
abbrev vclEvtStat_xlat_err : Fld := ⟨.vclEvtStat, 7, 7⟩
/-- VCL_EVT_STAT.cpl_timeout, 15 R523. -/
abbrev vclEvtStat_cpl_timeout : Fld := ⟨.vclEvtStat, 6, 6⟩
/-- VCL_EVT_STAT.proto_err, 15 R523. -/
abbrev vclEvtStat_proto_err : Fld := ⟨.vclEvtStat, 5, 5⟩
/-- VCL_EVT_STAT.link_down, 15 R523. -/
abbrev vclEvtStat_link_down : Fld := ⟨.vclEvtStat, 4, 4⟩
/-- VCL_EVT_STAT.failed, 15 R523. -/
abbrev vclEvtStat_failed : Fld := ⟨.vclEvtStat, 3, 3⟩
/-- VCL_EVT_STAT.degraded, 15 R523. -/
abbrev vclEvtStat_degraded : Fld := ⟨.vclEvtStat, 2, 2⟩
/-- VCL_EVT_STAT.retrain, 15 R523. -/
abbrev vclEvtStat_retrain : Fld := ⟨.vclEvtStat, 1, 1⟩
/-- VCL_EVT_STAT.replay, 15 R523. -/
abbrev vclEvtStat_replay : Fld := ⟨.vclEvtStat, 0, 0⟩
/-- VCL_EVT_EN.en, 15 R523. -/
abbrev vclEvtEn_en : Fld := ⟨.vclEvtEn, 9, 0⟩
/-- VCL_EVT_MSG_ADDR.addr, 15 R523. -/
abbrev vclEvtMsgAddr_addr : Fld := ⟨.vclEvtMsgAddr, 63, 2⟩
/-- VCL_EVT_MSG_DATA.data, 15 R523. -/
abbrev vclEvtMsgData_data : Fld := ⟨.vclEvtMsgData, 31, 0⟩
/-- VCL_BSTAT.state, 15 R524. -/
abbrev vclBstat_state : Fld := ⟨.vclBstat, 31, 28⟩
/-- VCL_BSTAT.rate, 15 R524. -/
abbrev vclBstat_rate : Fld := ⟨.vclBstat, 27, 26⟩
/-- VCL_BSTAT.half, 15 R524. -/
abbrev vclBstat_half : Fld := ⟨.vclBstat, 25, 25⟩
/-- VCL_BSTAT.lanes_ok, 15 R524. -/
abbrev vclBstat_lanes_ok : Fld := ⟨.vclBstat, 15, 0⟩
/-- VCL_BCTL.retrain, 15 R524. -/
abbrev vclBctl_retrain : Fld := ⟨.vclBctl, 31, 31⟩
/-- VCL_BCTL.disable, 15 R524. -/
abbrev vclBctl_disable : Fld := ⟨.vclBctl, 30, 30⟩
/-- VCL_POL.inverted, 15 R524. -/
abbrev vclPol_inverted : Fld := ⟨.vclPol, 15, 0⟩
/-- VCL_FEC_CE.count, 15 R524. -/
abbrev vclFecCe_count : Fld := ⟨.vclFecCe, 31, 0⟩
/-- VCL_FEC_UE.count, 15 R524. -/
abbrev vclFecUe_count : Fld := ⟨.vclFecUe, 31, 0⟩
/-- VCL_CRC_ERR.count, 15 R524. -/
abbrev vclCrcErr_count : Fld := ⟨.vclCrcErr, 31, 0⟩
/-- VCL_REPLAY.count, 15 R524. -/
abbrev vclReplay_count : Fld := ⟨.vclReplay, 31, 0⟩
/-- VCL_RETRAIN.count, 15 R524. -/
abbrev vclRetrain_count : Fld := ⟨.vclRetrain, 31, 0⟩
/-- VCL_RESEND.count, 15 R524. -/
abbrev vclResend_count : Fld := ⟨.vclResend, 31, 0⟩
/-- MIR_CTL.en, 16 R555. -/
abbrev mirCtl_en : Fld := ⟨.mirCtl, 31, 31⟩
/-- MIR_CTL.solo, 16 R555. -/
abbrev mirCtl_solo : Fld := ⟨.mirCtl, 30, 30⟩
/-- MIR_CTL.mode, 16 R555. -/
abbrev mirCtl_mode : Fld := ⟨.mirCtl, 29, 28⟩
/-- MIR_CTL.hold_cpl, 16 R555. -/
abbrev mirCtl_hold_cpl : Fld := ⟨.mirCtl, 27, 27⟩
/-- MIR_CTL.witness_en, 16 R555. -/
abbrev mirCtl_witness_en : Fld := ⟨.mirCtl, 26, 26⟩
/-- MIR_STAT.state, 16 R555. -/
abbrev mirStat_state : Fld := ⟨.mirStat, 31, 28⟩
/-- MIR_STAT.slot, 16 R555. -/
abbrev mirStat_slot : Fld := ⟨.mirStat, 27, 26⟩
/-- MIR_STAT.peer_slot, 16 R555. -/
abbrev mirStat_peer_slot : Fld := ⟨.mirStat, 25, 24⟩
/-- MIR_STAT.risk, 16 R555. -/
abbrev mirStat_risk : Fld := ⟨.mirStat, 23, 22⟩
/-- MIR_STAT.bundles, 16 R555. -/
abbrev mirStat_bundles : Fld := ⟨.mirStat, 21, 19⟩
/-- MIR_STAT.stalled, 16 R555. -/
abbrev mirStat_stalled : Fld := ⟨.mirStat, 18, 18⟩
/-- MIR_EPOCH_CLOSED.frame, 16 R555. -/
abbrev mirEpochClosed_frame : Fld := ⟨.mirEpochClosed, 47, 0⟩
/-- MIR_EPOCH_ACK.frame, 16 R555. -/
abbrev mirEpochAck_frame : Fld := ⟨.mirEpochAck, 47, 0⟩
/-- MIR_WITNESS_ADDR.addr, 16 R555. -/
abbrev mirWitnessAddr_addr : Fld := ⟨.mirWitnessAddr, 47, 4⟩
/-- MIR_PEER_WITNESS_ADDR.addr, 16 R555. -/
abbrev mirPeerWitnessAddr_addr : Fld := ⟨.mirPeerWitnessAddr, 47, 4⟩
/-- MIR_RISK_CTL.floor, 16 R555. -/
abbrev mirRiskCtl_floor : Fld := ⟨.mirRiskCtl, 31, 30⟩
/-- MIR_RISK_CTL.ce_thr, 16 R555. -/
abbrev mirRiskCtl_ce_thr : Fld := ⟨.mirRiskCtl, 15, 0⟩
/-- MIR_CADENCE.lvl3, 16 R555. -/
abbrev mirCadence_lvl3 : Fld := ⟨.mirCadence, 15, 12⟩
/-- MIR_CADENCE.lvl2, 16 R555. -/
abbrev mirCadence_lvl2 : Fld := ⟨.mirCadence, 11, 8⟩
/-- MIR_CADENCE.lvl1, 16 R555. -/
abbrev mirCadence_lvl1 : Fld := ⟨.mirCadence, 7, 4⟩
/-- MIR_CADENCE.lvl0, 16 R555. -/
abbrev mirCadence_lvl0 : Fld := ⟨.mirCadence, 3, 0⟩
/-- MIR_SNAP_LAST.frame, 16 R555. -/
abbrev mirSnapLast_frame : Fld := ⟨.mirSnapLast, 47, 0⟩
/-- MIR_SNAP_GRAN.granules, 16 R555. -/
abbrev mirSnapGran_granules : Fld := ⟨.mirSnapGran, 31, 0⟩
/-- MIR_RESYNC.busy, 16 R555. -/
abbrev mirResync_busy : Fld := ⟨.mirResync, 31, 31⟩
/-- MIR_RESYNC.pct, 16 R555. -/
abbrev mirResync_pct : Fld := ⟨.mirResync, 6, 0⟩
/-- MIR_EVT_STAT.split, 16 R555. -/
abbrev mirEvtStat_split : Fld := ⟨.mirEvtStat, 12, 12⟩
/-- MIR_EVT_STAT.cfg_err, 16 R555. -/
abbrev mirEvtStat_cfg_err : Fld := ⟨.mirEvtStat, 11, 11⟩
/-- MIR_EVT_STAT.proto_err, 16 R555. -/
abbrev mirEvtStat_proto_err : Fld := ⟨.mirEvtStat, 10, 10⟩
/-- MIR_EVT_STAT.map_mismatch, 16 R555. -/
abbrev mirEvtStat_map_mismatch : Fld := ⟨.mirEvtStat, 9, 9⟩
/-- MIR_EVT_STAT.slot_conflict, 16 R555. -/
abbrev mirEvtStat_slot_conflict : Fld := ⟨.mirEvtStat, 8, 8⟩
/-- MIR_EVT_STAT.resync_done, 16 R555. -/
abbrev mirEvtStat_resync_done : Fld := ⟨.mirEvtStat, 7, 7⟩
/-- MIR_EVT_STAT.snap_overlap, 16 R555. -/
abbrev mirEvtStat_snap_overlap : Fld := ⟨.mirEvtStat, 6, 6⟩
/-- MIR_EVT_STAT.held, 16 R555. -/
abbrev mirEvtStat_held : Fld := ⟨.mirEvtStat, 5, 5⟩
/-- MIR_EVT_STAT.gasp_rx, 16 R555. -/
abbrev mirEvtStat_gasp_rx : Fld := ⟨.mirEvtStat, 4, 4⟩
/-- MIR_EVT_STAT.gasp_tx, 16 R555. -/
abbrev mirEvtStat_gasp_tx : Fld := ⟨.mirEvtStat, 3, 3⟩
/-- MIR_EVT_STAT.detached, 16 R555. -/
abbrev mirEvtStat_detached : Fld := ⟨.mirEvtStat, 2, 2⟩
/-- MIR_EVT_STAT.peer_lost, 16 R555. -/
abbrev mirEvtStat_peer_lost : Fld := ⟨.mirEvtStat, 1, 1⟩
/-- MIR_EVT_STAT.promoted, 16 R555. -/
abbrev mirEvtStat_promoted : Fld := ⟨.mirEvtStat, 0, 0⟩
/-- MIR_EVT_EN.en, 16 R555. -/
abbrev mirEvtEn_en : Fld := ⟨.mirEvtEn, 12, 0⟩
/-- MIR_EVT_MSG_ADDR.addr, 16 R555. -/
abbrev mirEvtMsgAddr_addr : Fld := ⟨.mirEvtMsgAddr, 63, 2⟩
/-- MIR_EVT_MSG_DATA.data, 16 R555. -/
abbrev mirEvtMsgData_data : Fld := ⟨.mirEvtMsgData, 31, 0⟩
/-- MIR_HELD_CNT.ticks, 16 R555. -/
abbrev mirHeldCnt_ticks : Fld := ⟨.mirHeldCnt, 31, 0⟩
/-- MIR_REGION_BASE.en, 16 R556. -/
abbrev mirRegionBase_en : Fld := ⟨.mirRegionBase, 63, 63⟩
/-- MIR_REGION_BASE.base, 16 R556. -/
abbrev mirRegionBase_base : Fld := ⟨.mirRegionBase, 47, 12⟩
/-- MIR_REGION_LEN.len, 16 R556. -/
abbrev mirRegionLen_len : Fld := ⟨.mirRegionLen, 47, 12⟩
/-- HRT_STAT.band, 17 R580. -/
abbrev hrtStat_band : Fld := ⟨.hrtStat, 31, 28⟩
/-- HRT_STAT.req38, 17 R580. -/
abbrev hrtStat_req38 : Fld := ⟨.hrtStat, 27, 27⟩
/-- HRT_STAT.halted, 17 R580. -/
abbrev hrtStat_halted : Fld := ⟨.hrtStat, 26, 26⟩
/-- HRT_STAT.parked, 17 R580. -/
abbrev hrtStat_parked : Fld := ⟨.hrtStat, 25, 25⟩
/-- HRT_STAT.phases, 17 R580. -/
abbrev hrtStat_phases : Fld := ⟨.hrtStat, 24, 19⟩
/-- HRT_VIN.v_mv, 17 R580. -/
abbrev hrtVin_v_mv : Fld := ⟨.hrtVin, 31, 16⟩
/-- HRT_VIN.i_ma, 17 R580. -/
abbrev hrtVin_i_ma : Fld := ⟨.hrtVin, 15, 0⟩
/-- HRT_FRAME.rms_mv, 17 R580. -/
abbrev hrtFrame_rms_mv : Fld := ⟨.hrtFrame, 31, 16⟩
/-- HRT_FRAME.ripple_mv, 17 R580. -/
abbrev hrtFrame_ripple_mv : Fld := ⟨.hrtFrame, 15, 0⟩
/-- HRT_HARM0.h2, 17 R580. -/
abbrev hrtHarm0_h2 : Fld := ⟨.hrtHarm0, 31, 16⟩
/-- HRT_HARM0.h1, 17 R580. -/
abbrev hrtHarm0_h1 : Fld := ⟨.hrtHarm0, 15, 0⟩
/-- HRT_HARM1.h4, 17 R580. -/
abbrev hrtHarm1_h4 : Fld := ⟨.hrtHarm1, 31, 16⟩
/-- HRT_HARM1.h3, 17 R580. -/
abbrev hrtHarm1_h3 : Fld := ⟨.hrtHarm1, 15, 0⟩
/-- HRT_CTL.shed_en, 17 R580. -/
abbrev hrtCtl_shed_en : Fld := ⟨.hrtCtl, 31, 31⟩
/-- HRT_CTL.mains, 17 R580. -/
abbrev hrtCtl_mains : Fld := ⟨.hrtCtl, 30, 30⟩
/-- HRT_EVT_THR.swell_mv, 17 R580. -/
abbrev hrtEvtThr_swell_mv : Fld := ⟨.hrtEvtThr, 31, 16⟩
/-- HRT_EVT_THR.sag_mv, 17 R580. -/
abbrev hrtEvtThr_sag_mv : Fld := ⟨.hrtEvtThr, 15, 0⟩
/-- HRT_VCORE.die1_mv, 17 R580. -/
abbrev hrtVcore_die1_mv : Fld := ⟨.hrtVcore, 31, 16⟩
/-- HRT_VCORE.die0_mv, 17 R580. -/
abbrev hrtVcore_die0_mv : Fld := ⟨.hrtVcore, 15, 0⟩
/-- HRT_ENERGY.mj, 17 R580. -/
abbrev hrtEnergy_mj : Fld := ⟨.hrtEnergy, 63, 0⟩
/-- HRT_EVT_STAT.cfg_err, 17 R580. -/
abbrev hrtEvtStat_cfg_err : Fld := ⟨.hrtEvtStat, 5, 5⟩
/-- HRT_EVT_STAT.wave, 17 R580. -/
abbrev hrtEvtStat_wave : Fld := ⟨.hrtEvtStat, 4, 4⟩
/-- HRT_EVT_STAT.halt, 17 R580. -/
abbrev hrtEvtStat_halt : Fld := ⟨.hrtEvtStat, 3, 3⟩
/-- HRT_EVT_STAT.low38, 17 R580. -/
abbrev hrtEvtStat_low38 : Fld := ⟨.hrtEvtStat, 2, 2⟩
/-- HRT_EVT_STAT.swell, 17 R580. -/
abbrev hrtEvtStat_swell : Fld := ⟨.hrtEvtStat, 1, 1⟩
/-- HRT_EVT_STAT.sag, 17 R580. -/
abbrev hrtEvtStat_sag : Fld := ⟨.hrtEvtStat, 0, 0⟩
/-- HRT_EVT_EN.en, 17 R580. -/
abbrev hrtEvtEn_en : Fld := ⟨.hrtEvtEn, 5, 0⟩
/-- HRT_EVT_MSG_ADDR.addr, 17 R580. -/
abbrev hrtEvtMsgAddr_addr : Fld := ⟨.hrtEvtMsgAddr, 63, 2⟩
/-- HRT_EVT_MSG_DATA.data, 17 R580. -/
abbrev hrtEvtMsgData_data : Fld := ⟨.hrtEvtMsgData, 31, 0⟩
/-- HRT_EVT_CNT.swell, 17 R580. -/
abbrev hrtEvtCnt_swell : Fld := ⟨.hrtEvtCnt, 31, 16⟩
/-- HRT_EVT_CNT.sag, 17 R580. -/
abbrev hrtEvtCnt_sag : Fld := ⟨.hrtEvtCnt, 15, 0⟩
/-- HRT_WAVE_CTL.arm, 17 R580. -/
abbrev hrtWaveCtl_arm : Fld := ⟨.hrtWaveCtl, 31, 31⟩
/-- HRT_WAVE_CTL.done, 17 R580. -/
abbrev hrtWaveCtl_done : Fld := ⟨.hrtWaveCtl, 30, 30⟩
/-- HRT_WAVE_CTL.sw_trig, 17 R580. -/
abbrev hrtWaveCtl_sw_trig : Fld := ⟨.hrtWaveCtl, 29, 29⟩
/-- HRT_WAVE_CTL.mask, 17 R580. -/
abbrev hrtWaveCtl_mask : Fld := ⟨.hrtWaveCtl, 28, 24⟩
/-- HRT_WAVE_CTL.pre, 17 R580. -/
abbrev hrtWaveCtl_pre : Fld := ⟨.hrtWaveCtl, 13, 0⟩
/-- HRT_WAVE_TIME.time_ns, 17 R580. -/
abbrev hrtWaveTime_time_ns : Fld := ⟨.hrtWaveTime, 63, 0⟩
/-- CON_THERM.temp, 17 R590. -/
abbrev conTherm_temp : Fld := ⟨.conTherm, 15, 0⟩
/-- CON_DRAM.temp, 17 R590. -/
abbrev conDram_temp : Fld := ⟨.conDram, 15, 0⟩
/-- CON_PROC.count, 17 R590. -/
abbrev conProc_count : Fld := ⟨.conProc, 23, 0⟩
/-- CON_SNAP_TIME.time_ns, 17 R590. -/
abbrev conSnapTime_time_ns : Fld := ⟨.conSnapTime, 63, 0⟩
/-- CON_THERM_CTL.trip_c, 17 R590. -/
abbrev conThermCtl_trip_c : Fld := ⟨.conThermCtl, 23, 16⟩
/-- CON_THERM_CTL.dram_c, 17 R590. -/
abbrev conThermCtl_dram_c : Fld := ⟨.conThermCtl, 15, 8⟩
/-- CON_THERM_CTL.thr_c, 17 R590. -/
abbrev conThermCtl_thr_c : Fld := ⟨.conThermCtl, 7, 0⟩
/-- CON_DROOP_CTL.droop_mv, 17 R590. -/
abbrev conDroopCtl_droop_mv : Fld := ⟨.conDroopCtl, 7, 0⟩
/-- CON_DROOP_CNT.trips, 17 R590. -/
abbrev conDroopCnt_trips : Fld := ⟨.conDroopCnt, 31, 0⟩
/-- CON_STAT.d, 17 R590. -/
abbrev conStat_d : Fld := ⟨.conStat, 31, 30⟩
/-- CON_STAT.hot_idx, 17 R590. -/
abbrev conStat_hot_idx : Fld := ⟨.conStat, 23, 16⟩
/-- CON_STAT.hot_temp, 17 R590. -/
abbrev conStat_hot_temp : Fld := ⟨.conStat, 15, 0⟩
/-- CON_EVT_STAT.trip, 17 R590. -/
abbrev conEvtStat_trip : Fld := ⟨.conEvtStat, 3, 3⟩
/-- CON_EVT_STAT.droop, 17 R590. -/
abbrev conEvtStat_droop : Fld := ⟨.conEvtStat, 2, 2⟩
/-- CON_EVT_STAT.dram_hot, 17 R590. -/
abbrev conEvtStat_dram_hot : Fld := ⟨.conEvtStat, 1, 1⟩
/-- CON_EVT_STAT.die_hot, 17 R590. -/
abbrev conEvtStat_die_hot : Fld := ⟨.conEvtStat, 0, 0⟩
/-- CON_EVT_EN.en, 17 R590. -/
abbrev conEvtEn_en : Fld := ⟨.conEvtEn, 3, 0⟩
/-- RAS_REPLAY_CTL.sp_kib16, 18 R622. -/
abbrev rasReplayCtl_sp_kib16 : Fld := ⟨.rasReplayCtl, 23, 16⟩
/-- RAS_REPLAY_CTL.en, 18 R622. -/
abbrev rasReplayCtl_en : Fld := ⟨.rasReplayCtl, 15, 0⟩
/-- RAS_FALLOW_CTL.en, 18 R622. -/
abbrev rasFallowCtl_en : Fld := ⟨.rasFallowCtl, 31, 31⟩
/-- RAS_FALLOW_CTL.segs, 18 R622. -/
abbrev rasFallowCtl_segs : Fld := ⟨.rasFallowCtl, 15, 0⟩
/-- RAS_COAL_CTL.window_ms, 18 R622. -/
abbrev rasCoalCtl_window_ms : Fld := ⟨.rasCoalCtl, 15, 0⟩
/-- RAS_HRING_BASE.base, 18 R622. -/
abbrev rasHringBase_base : Fld := ⟨.rasHringBase, 47, 12⟩
/-- RAS_HRING_CTL.en, 18 R622. -/
abbrev rasHringCtl_en : Fld := ⟨.rasHringCtl, 31, 31⟩
/-- RAS_HRING_CTL.size_log2, 18 R622. -/
abbrev rasHringCtl_size_log2 : Fld := ⟨.rasHringCtl, 4, 0⟩
/-- RAS_HRING_HEAD.consumed, 18 R622. -/
abbrev rasHringHead_consumed : Fld := ⟨.rasHringHead, 31, 0⟩
/-- RAS_EVT_STAT.cfg_err, 18 R622. -/
abbrev rasEvtStat_cfg_err : Fld := ⟨.rasEvtStat, 6, 6⟩
/-- RAS_EVT_STAT.replay_fail, 18 R622. -/
abbrev rasEvtStat_replay_fail : Fld := ⟨.rasEvtStat, 5, 5⟩
/-- RAS_EVT_STAT.ring_ovf, 18 R622. -/
abbrev rasEvtStat_ring_ovf : Fld := ⟨.rasEvtStat, 4, 4⟩
/-- RAS_EVT_STAT.hring_full, 18 R622. -/
abbrev rasEvtStat_hring_full : Fld := ⟨.rasEvtStat, 3, 3⟩
/-- RAS_EVT_STAT.fatal, 18 R622. -/
abbrev rasEvtStat_fatal : Fld := ⟨.rasEvtStat, 2, 2⟩
/-- RAS_EVT_STAT.uncorrectable, 18 R622. -/
abbrev rasEvtStat_uncorrectable : Fld := ⟨.rasEvtStat, 1, 1⟩
/-- RAS_EVT_STAT.corrected, 18 R622. -/
abbrev rasEvtStat_corrected : Fld := ⟨.rasEvtStat, 0, 0⟩
/-- RAS_EVT_EN.en, 18 R622. -/
abbrev rasEvtEn_en : Fld := ⟨.rasEvtEn, 6, 0⟩
/-- RAS_EVT_MSG_ADDR.addr, 18 R622. -/
abbrev rasEvtMsgAddr_addr : Fld := ⟨.rasEvtMsgAddr, 63, 2⟩
/-- RAS_EVT_MSG_DATA.data, 18 R622. -/
abbrev rasEvtMsgData_data : Fld := ⟨.rasEvtMsgData, 31, 0⟩
/-- RAS_RING_OVF.count, 18 R622. -/
abbrev rasRingOvf_count : Fld := ⟨.rasRingOvf, 31, 0⟩
/-- RAS_REPLAY_CNT.failed, 18 R622. -/
abbrev rasReplayCnt_failed : Fld := ⟨.rasReplayCnt, 31, 16⟩
/-- RAS_REPLAY_CNT.passed, 18 R622. -/
abbrev rasReplayCnt_passed : Fld := ⟨.rasReplayCnt, 15, 0⟩
/-- RAS_SEQ.last, 18 R622. -/
abbrev rasSeq_last : Fld := ⟨.rasSeq, 63, 0⟩
/-- RAS_FALLOW_STAT.state, 18 R622. -/
abbrev rasFallowStat_state : Fld := ⟨.rasFallowStat, 31, 30⟩
/-- RAS_FALLOW_STAT.core, 18 R622. -/
abbrev rasFallowStat_core : Fld := ⟨.rasFallowStat, 29, 24⟩
/-- RAS_FALLOW_STAT.lap_ms, 18 R622. -/
abbrev rasFallowStat_lap_ms : Fld := ⟨.rasFallowStat, 23, 0⟩
/-- RAS_RETIRED.cores, 18 R622. -/
abbrev rasRetired_cores : Fld := ⟨.rasRetired, 31, 0⟩
/-- DBG_CTL.halt, 19 R645. -/
abbrev dbgCtl_halt : Fld := ⟨.dbgCtl, 31, 31⟩
/-- DBG_CTL.step, 19 R645. -/
abbrev dbgCtl_step : Fld := ⟨.dbgCtl, 30, 30⟩
/-- DBG_STAT.run, 19 R645. -/
abbrev dbgStat_run : Fld := ⟨.dbgStat, 31, 30⟩
/-- DBG_STAT.err, 19 R645. -/
abbrev dbgStat_err : Fld := ⟨.dbgStat, 29, 29⟩
/-- DBG_MSEG_BASE.base, 19 R645. -/
abbrev dbgMsegBase_base : Fld := ⟨.dbgMsegBase, 47, 0⟩
/-- DBG_MSEG_LIMIT.limit, 19 R645. -/
abbrev dbgMsegLimit_limit : Fld := ⟨.dbgMsegLimit, 47, 0⟩
/-- DBG_MEVEC.value, 19 R645. -/
abbrev dbgMevec_value : Fld := ⟨.dbgMevec, 63, 0⟩
/-- DBG_REG_SEL.reg, 19 R645. -/
abbrev dbgRegSel_reg : Fld := ⟨.dbgRegSel, 15, 0⟩
/-- DBG_REG_DATA.data, 19 R645. -/
abbrev dbgRegData_data : Fld := ⟨.dbgRegData, 63, 0⟩
/-- SEC_BOOT_STAT.state, 19 R651. -/
abbrev secBootStat_state : Fld := ⟨.secBootStat, 31, 28⟩
/-- SEC_BOOT_STAT.reason, 19 R651. -/
abbrev secBootStat_reason : Fld := ⟨.secBootStat, 27, 24⟩
/-- SEC_BOOT_STAT.id_valid, 19 R651. -/
abbrev secBootStat_id_valid : Fld := ⟨.secBootStat, 23, 23⟩
/-- SEC_BOOT_STAT.recovered, 19 R651. -/
abbrev secBootStat_recovered : Fld := ⟨.secBootStat, 22, 22⟩
/-- SEC_BOOT_STAT.svn, 19 R651. -/
abbrev secBootStat_svn : Fld := ⟨.secBootStat, 7, 0⟩
/-- SEC_BOOT_CTL.rcv_next, 19 R651. -/
abbrev secBootCtl_rcv_next : Fld := ⟨.secBootCtl, 31, 31⟩
/-- SEC_BOOT_CTL.wipe_warm, 19 R651. -/
abbrev secBootCtl_wipe_warm : Fld := ⟨.secBootCtl, 30, 30⟩
/-- SEC_SVN.fused, 19 R651. -/
abbrev secSvn_fused : Fld := ⟨.secSvn, 6, 0⟩
/-- SEC_DEVID.id, 19 R651. -/
abbrev secDevid_id : Fld := ⟨.secDevid, 31, 0⟩
/-- SEC_LMS.q, 19 R651. -/
abbrev secLms_q : Fld := ⟨.secLms, 39, 0⟩
/-- SEC_LMS_LIMIT.limit, 19 R651. -/
abbrev secLmsLimit_limit : Fld := ⟨.secLmsLimit, 39, 0⟩
/-- SEC_RCV_CTL.go, 19 R651. -/
abbrev secRcvCtl_go : Fld := ⟨.secRcvCtl, 31, 31⟩
/-- SEC_RCV_CTL.last, 19 R651. -/
abbrev secRcvCtl_last : Fld := ⟨.secRcvCtl, 30, 30⟩
/-- SEC_RCV_CTL.reflash, 19 R651. -/
abbrev secRcvCtl_reflash : Fld := ⟨.secRcvCtl, 29, 29⟩
/-- SEC_RCV_CTL.abort, 19 R651. -/
abbrev secRcvCtl_abort : Fld := ⟨.secRcvCtl, 28, 28⟩
/-- SEC_RCV_CTL.len, 19 R651. -/
abbrev secRcvCtl_len : Fld := ⟨.secRcvCtl, 16, 0⟩
/-- SEC_RCV_STAT.state, 19 R651. -/
abbrev secRcvStat_state : Fld := ⟨.secRcvStat, 31, 30⟩
/-- SEC_RCV_STAT.reason, 19 R651. -/
abbrev secRcvStat_reason : Fld := ⟨.secRcvStat, 29, 24⟩
/-- SEC_RCV_STAT.bytes, 19 R651. -/
abbrev secRcvStat_bytes : Fld := ⟨.secRcvStat, 23, 0⟩
/-- SEC_DBG_CTL.new_nonce, 19 R651. -/
abbrev secDbgCtl_new_nonce : Fld := ⟨.secDbgCtl, 31, 31⟩
/-- SEC_DBG_CTL.submit, 19 R651. -/
abbrev secDbgCtl_submit : Fld := ⟨.secDbgCtl, 30, 30⟩
/-- SEC_DBG_CTL.relock, 19 R651. -/
abbrev secDbgCtl_relock : Fld := ⟨.secDbgCtl, 29, 29⟩
/-- SEC_DBG_STAT.state, 19 R651. -/
abbrev secDbgStat_state : Fld := ⟨.secDbgStat, 31, 30⟩
/-- SEC_DBG_STAT.scope, 19 R651. -/
abbrev secDbgStat_scope : Fld := ⟨.secDbgStat, 29, 28⟩
/-- SEC_DBG_STAT.fails, 19 R651. -/
abbrev secDbgStat_fails : Fld := ⟨.secDbgStat, 3, 0⟩
/-- SEC_DBG_NONCE.nonce, 19 R651. -/
abbrev secDbgNonce_nonce : Fld := ⟨.secDbgNonce, 31, 0⟩
/-- SEC_GLITCH_CNT.count, 19 R651. -/
abbrev secGlitchCnt_count : Fld := ⟨.secGlitchCnt, 31, 0⟩
/-- SEC_EVT_STAT.reserve, 19 R651. -/
abbrev secEvtStat_reserve : Fld := ⟨.secEvtStat, 4, 4⟩
/-- SEC_EVT_STAT.glitch, 19 R651. -/
abbrev secEvtStat_glitch : Fld := ⟨.secEvtStat, 3, 3⟩
/-- SEC_EVT_STAT.unlock, 19 R651. -/
abbrev secEvtStat_unlock : Fld := ⟨.secEvtStat, 2, 2⟩
/-- SEC_EVT_STAT.dbg_fail, 19 R651. -/
abbrev secEvtStat_dbg_fail : Fld := ⟨.secEvtStat, 1, 1⟩
/-- SEC_EVT_STAT.ready, 19 R651. -/
abbrev secEvtStat_ready : Fld := ⟨.secEvtStat, 0, 0⟩
/-- SEC_EVT_EN.en, 19 R651. -/
abbrev secEvtEn_en : Fld := ⟨.secEvtEn, 4, 0⟩
/-- SEC_EVT_MSG_ADDR.addr, 19 R651. -/
abbrev secEvtMsgAddr_addr : Fld := ⟨.secEvtMsgAddr, 63, 2⟩
/-- SEC_EVT_MSG_DATA.data, 19 R651. -/
abbrev secEvtMsgData_data : Fld := ⟨.secEvtMsgData, 31, 0⟩
/-- MGT_CTL.alert_sev, 20 R664. -/
abbrev mgtCtl_alert_sev : Fld := ⟨.mgtCtl, 31, 30⟩
/-- MGT_CTL.alert_en, 20 R664. -/
abbrev mgtCtl_alert_en : Fld := ⟨.mgtCtl, 29, 29⟩
/-- MGT_CTL.evt_mask, 20 R664. -/
abbrev mgtCtl_evt_mask : Fld := ⟨.mgtCtl, 7, 0⟩
/-- MGT_STAT.i3c, 20 R664. -/
abbrev mgtStat_i3c : Fld := ⟨.mgtStat, 31, 31⟩
/-- MGT_STAT.dyn_addr, 20 R664. -/
abbrev mgtStat_dyn_addr : Fld := ⟨.mgtStat, 30, 24⟩
/-- MGT_STAT.eid, 20 R664. -/
abbrev mgtStat_eid : Fld := ⟨.mgtStat, 23, 16⟩
/-- MGT_STAT.fifo, 20 R664. -/
abbrev mgtStat_fifo : Fld := ⟨.mgtStat, 8, 0⟩
/-- MGT_FIFO_LOST.count, 20 R664. -/
abbrev mgtFifoLost_count : Fld := ⟨.mgtFifoLost, 31, 0⟩
/-- MGT_TEL_BASE.base, 20 R664. -/
abbrev mgtTelBase_base : Fld := ⟨.mgtTelBase, 47, 12⟩
/-- MGT_TEL_CTL.en, 20 R664. -/
abbrev mgtTelCtl_en : Fld := ⟨.mgtTelCtl, 31, 31⟩
/-- MGT_TEL_CTL.div, 20 R664. -/
abbrev mgtTelCtl_div : Fld := ⟨.mgtTelCtl, 11, 8⟩
/-- MGT_TEL_CTL.size_log2, 20 R664. -/
abbrev mgtTelCtl_size_log2 : Fld := ⟨.mgtTelCtl, 4, 0⟩
/-- MGT_TEL_HEAD.consumed, 20 R664. -/
abbrev mgtTelHead_consumed : Fld := ⟨.mgtTelHead, 31, 0⟩
/-- MGT_TEL_LOST.count, 20 R664. -/
abbrev mgtTelLost_count : Fld := ⟨.mgtTelLost, 31, 0⟩
/-- GLB_ID.mfr, 21 R672. -/
abbrev glbId_mfr : Fld := ⟨.glbId, 30, 16⟩
/-- GLB_ID.part, 21 R672. -/
abbrev glbId_part : Fld := ⟨.glbId, 15, 0⟩
/-- GLB_REV.letter, 21 R672. -/
abbrev glbRev_letter : Fld := ⟨.glbRev, 15, 12⟩
/-- GLB_REV.digit, 21 R672. -/
abbrev glbRev_digit : Fld := ⟨.glbRev, 11, 8⟩
/-- GLB_REV.map, 21 R672. -/
abbrev glbRev_map : Fld := ⟨.glbRev, 7, 0⟩
/-- GLB_CAP0.cores, 21 R672. -/
abbrev glbCap0_cores : Fld := ⟨.glbCap0, 27, 16⟩
/-- GLB_CAP0.sc, 21 R672. -/
abbrev glbCap0_sc : Fld := ⟨.glbCap0, 15, 12⟩
/-- GLB_CAP0.engines, 21 R672. -/
abbrev glbCap0_engines : Fld := ⟨.glbCap0, 11, 8⟩
/-- GLB_CAP0.fields, 21 R672. -/
abbrev glbCap0_fields : Fld := ⟨.glbCap0, 4, 0⟩
/-- GLB_CAP1.far_ports, 21 R672. -/
abbrev glbCap1_far_ports : Fld := ⟨.glbCap1, 31, 26⟩
/-- GLB_CAP1.mir_bundles, 21 R672. -/
abbrev glbCap1_mir_bundles : Fld := ⟨.glbCap1, 25, 24⟩
/-- GLB_CAP1.vcl_bundles, 21 R672. -/
abbrev glbCap1_vcl_bundles : Fld := ⟨.glbCap1, 23, 22⟩
/-- GLB_CAP1.sync, 21 R672. -/
abbrev glbCap1_sync : Fld := ⟨.glbCap1, 12, 0⟩
/-- GLB_MEM.far_gib, 21 R672. -/
abbrev glbMem_far_gib : Fld := ⟨.glbMem, 47, 32⟩
/-- GLB_MEM.near_gib, 21 R672. -/
abbrev glbMem_near_gib : Fld := ⟨.glbMem, 31, 16⟩
/-- GLB_MEM.sp_kib, 21 R672. -/
abbrev glbMem_sp_kib : Fld := ⟨.glbMem, 15, 0⟩
/-- GLB_FMT.sr, 21 R672. -/
abbrev glbFmt_sr : Fld := ⟨.glbFmt, 14, 14⟩
/-- GLB_FMT.sp24, 21 R672. -/
abbrev glbFmt_sp24 : Fld := ⟨.glbFmt, 13, 13⟩
/-- GLB_FMT.mx, 21 R672. -/
abbrev glbFmt_mx : Fld := ⟨.glbFmt, 12, 12⟩
/-- GLB_FMT.fmt, 21 R672. -/
abbrev glbFmt_fmt : Fld := ⟨.glbFmt, 11, 1⟩
/-- GLB_CLK.core_mhz, 21 R672. -/
abbrev glbClk_core_mhz : Fld := ⟨.glbClk, 31, 16⟩
/-- GLB_CLK.mower_mhz, 21 R672. -/
abbrev glbClk_mower_mhz : Fld := ⟨.glbClk, 15, 0⟩
/-- GLB_TIME.time_ns, 21 R672. -/
abbrev glbTime_time_ns : Fld := ⟨.glbTime, 63, 0⟩
/-- GLB_SLOT.slot_id, 21 R672. -/
abbrev glbSlot_slot_id : Fld := ⟨.glbSlot, 1, 0⟩
/-- GLB_SCRATCH.data, 21 R672. -/
abbrev glbScratch_data : Fld := ⟨.glbScratch, 31, 0⟩
/-- GLB_ENG_RST.eng, 21 R672. -/
abbrev glbEngRst_eng : Fld := ⟨.glbEngRst, 10, 0⟩
/-- GLB_CTX_RST.ctx, 21 R672. -/
abbrev glbCtxRst_ctx : Fld := ⟨.glbCtxRst, 15, 0⟩
/-- MIR_BSTAT.state, 16 R557. -/
abbrev mirBstat_state : Fld := ⟨.mirBstat, 31, 28⟩
/-- MIR_BSTAT.rate, 16 R557. -/
abbrev mirBstat_rate : Fld := ⟨.mirBstat, 27, 26⟩
/-- MIR_BSTAT.half, 16 R557. -/
abbrev mirBstat_half : Fld := ⟨.mirBstat, 25, 25⟩
/-- MIR_BSTAT.lanes_ok, 16 R557. -/
abbrev mirBstat_lanes_ok : Fld := ⟨.mirBstat, 15, 0⟩
/-- MIR_BCTL.retrain, 16 R557. -/
abbrev mirBctl_retrain : Fld := ⟨.mirBctl, 31, 31⟩
/-- MIR_BCTL.disable, 16 R557. -/
abbrev mirBctl_disable : Fld := ⟨.mirBctl, 30, 30⟩
/-- MIR_POL.inverted, 16 R557. -/
abbrev mirPol_inverted : Fld := ⟨.mirPol, 15, 0⟩
/-- MIR_FEC_CE.count, 16 R557. -/
abbrev mirFecCe_count : Fld := ⟨.mirFecCe, 31, 0⟩
/-- MIR_FEC_UE.count, 16 R557. -/
abbrev mirFecUe_count : Fld := ⟨.mirFecUe, 31, 0⟩
/-- MIR_CRC_ERR.count, 16 R557. -/
abbrev mirCrcErr_count : Fld := ⟨.mirCrcErr, 31, 0⟩
/-- MIR_REPLAY.count, 16 R557. -/
abbrev mirReplay_count : Fld := ⟨.mirReplay, 31, 0⟩
/-- MIR_RETRAIN.count, 16 R557. -/
abbrev mirRetrain_count : Fld := ⟨.mirRetrain, 31, 0⟩
/-- MIR_RESEND.count, 16 R557. -/
abbrev mirResend_count : Fld := ⟨.mirResend, 31, 0⟩
/-- FMC_GLB_SCRUB.worst_ms, 14 R479. -/
abbrev fmcGlbScrub_worst_ms : Fld := ⟨.fmcGlbScrub, 31, 0⟩
/-- NMC_GLB_SCRUB.worst_ms, 14 R480. -/
abbrev nmcGlbScrub_worst_ms : Fld := ⟨.nmcGlbScrub, 31, 0⟩

end F

end Sys2Proof.Machine
end

