-- ==== Sys2Proof/Machine/Units.lean ====
section
/-! DEFINITION. What the units beside the cores hold that no register shows: Hearth and the cones (17), memory
upkeep (09, 14), the RAS block (18), boot and security (19), management (20), the sieve engine (14). -/

namespace Sys2Proof.Machine

/-! ## Hearth and the cones (17) -/

/-- A sag or swell under way: its start and its extreme mean (17 R577). -/
structure Excursion where
  start : Nat
  worst : Nat
deriving DecidableEq, Repr

/-- Hearth. -/
structure Hearth where
  /-- Rails in regulation, of the six of R562; whether a sequence runs; failed sequences since the input was cycled;
  a retry is awaited. -/
  rails : Nat := 0
  sequencing : Bool := false
  failures : Nat := 0
  onDieFilled : Bool := false
  nearFilled : Bool := false
  /-- The input switch is open (R559, R560). -/
  switchOpen : Bool := false
  /-- The last samples, newest first, at most 8 (R560). -/
  samples : List (BitVec 16 × BitVec 16) := []
  /-- Of the frame so far: samples, sum and sum of squares of V, least and greatest (R575). -/
  count : Nat := 0
  sum : Nat := 0
  squares : Nat := 0
  low : Nat := 0
  high : Nat := 0
  /-- Energy not yet a whole millijoule, in units of 1 mV × 1 mA × 0.5 µs (R578). -/
  energy : Nat := 0
  sag : Option Excursion := none
  swell : Option Excursion := none
  /-- Core phases on, die 0 and die 1 (R566). -/
  phases0 : Nat := 24
  phases1 : Nat := 24
  /-- Of the frame so far, the phases each die's greatest rail current called for; consecutive frames in which fewer than
  are on would have served; whether the latest sample came before the latest tick (R566). -/
  need0 : Nat := 0
  need1 : Nat := 0
  fewer0 : Nat := 0
  fewer1 : Nat := 0
  atTick : Bool := false
  /-- V at 20 kS/s (R576): the sum and number of the samples of the next word; the words of the window so far, newest
  first; and the last whole window. A word is the sum of 100 samples. -/
  decSum : Nat := 0
  decCount : Nat := 0
  window : List Nat := []
  windowDone : Option (List Nat) := none
  /-- Waveform capture (R579): running, samples taken since arm, trigger sample, pairs newest first; the buffer. -/
  capturing : Bool := false
  taken : Nat := 0
  trig : Option Nat := none
  pairs : List Word32 := []
  wave : List Word32 := []
  /-- After a warm reset the buffer's content is open, with this free value, until a capture fills it (17 R580). -/
  waveFree : Option Nat := none
  /-- Process counts of each die summed, and their latches, of the window so far; the sums of the last whole window of 6,250
  latches, until a trim takes them (R587); ticks since a die's last trim (R567). -/
  proc0 : Nat := 0
  proc1 : Nat := 0
  latches : Nat := 0
  mean0 : Option Nat := none
  mean1 : Option Nat := none
  trimTicks0 : Nat := 6250
  trimTicks1 : Nat := 6250
deriving DecidableEq, Repr

/-- The cones: latest conversions, the three requests, trips in this frame (17 R583, R584, R586). -/
structure Cones where
  therm : List (BitVec 16) := []
  dram : List (BitVec 16) := []
  dieD : Nat := 0
  dramD : Nat := 0
  droopD : Nat := 0
  trips : Nat := 0
  /-- Consecutive latches at which the source lay 3 °C below its request's step (R584). -/
  dieCool : Nat := 0
  dramCool : Nat := 0
  /-- Latches left of the droop request (R586). -/
  droopLeft : Nat := 0
  /-- The thresholds in force: those of CON_THERM_CTL at the latest latch (R590). -/
  tripC : Nat := 110
  dramC : Nat := 95
  thrC : Nat := 95
deriving DecidableEq, Repr

/-! ## Memory upkeep (09, 14) -/

/-- Calibration of a far channel (09 R347-R350): duties due and past their deadline, slices left of the retrain,
a slice running; the frame in which its deadline passed or an overdue slice of it last started. -/
structure Cal where
  osc : Bool := false
  oscLate : Bool := false
  slices : Nat := 0
  late : Bool := false
  running : Bool := false
  lastFrame : Option Nat := none
  adjusted : Nat := 0
deriving DecidableEq, Repr

/-- A store that waits at its home: whose it is, the unit that made it, whether its agent is told of an uncorrectable
location, the address and the bytes, and whether the mesh has poisoned it. -/
structure Late where
  agent : Nat
  unit : Nat
  told : Bool
  addr : Nat
  data : List Byte
  poison : Bool := false
deriving DecidableEq, Repr

/-- What survives in fuses and non-volatile memory, and the state of repairs and laps (09 R335, R336, R351, 14 R474). -/
structure Upkeep where
  /-- Stores of the Kiln and the engines that have reached a home whose memory is held (R336, R348, R351, R355). -/
  late : List Late := []
  /-- Spare rows used in service, by slice × 16 + bank, and field-fuse entries used, by DRAM die. -/
  spares : List (Nat × Nat) := []
  fuses : List (Nat × Nat) := []
  /-- Spare rows of repairs burnt into the field fuses, by slice × 16 + bank. -/
  burnt : List (Nat × Nat) := []
  /-- Hard far repairs recorded for the next cold reset: port and FMC_REPAIR fields. -/
  hard : List (Nat × Nat) := []
  cal : List (Nat × Cal) := []
  /-- Ports that hold a bank for repair, and ports whose granted repair waits for the end of a slice (R350, R351). -/
  holds : List Nat := []
  granted : List Nat := []
  /-- Lap starts in ns, by far port and by near slice; when the near fill ended. -/
  farLap : List (Nat × Nat) := []
  nearLap : List (Nat × Nat) := []
  nearStart : Option Nat := none
  /-- The far ports hold their channels in self refresh: the module is parked (17 R571). -/
  selfRefresh : Bool := false
deriving DecidableEq, Repr

/-! ## The sieve engine (14 R482-R494) -/

/-- A SWATH in progress: its list, its number, its operands, and what has been found. Keys are (distance, id). -/
structure Swath where
  queue : Nat
  start : Nat
  seq : Nat
  tag : Nat
  width : Nat
  region : Nat
  count : Nat
  idBase : Nat
  k : Nat
  result : Nat
  queries : List (List Byte)
  /-- Ports still scanning, and ports whose lists have been merged. -/
  scanning : List Nat
  merged : List Nat := []
  best : List (List (Nat × Nat))
  scanned : Nat := 0
  skipped : Nat := 0
  lost : Bool := false
  failedPort : Bool := false
  corrected : Bool := false
  written : Bool := false
deriving DecidableEq, Repr

/-- A result packet of a Mower on its way to the sieve engine (14 R488). -/
structure SieveRes where
  port : Nat
  lists : List (List (Nat × Nat))
  scanned : Nat
  skipped : Nat
  lost : Bool
  failedPort : Bool
  corrected : Bool
deriving DecidableEq, Repr

/-! ## Error records (18 R612) -/

/-- An error record before the RAS block numbers it. -/
structure Rec where
  time : Nat
  frame : Nat
  sev : Nat
  unit : Nat
  op : Nat
  temp : Nat
  mv : Nat
  details : List Byte
deriving DecidableEq, Repr

/-! ## The RAS block (18) -/

/-- A key whose corrected records are coalesced: the events since its first, and the last of them (18 R614). -/
structure CoalKey where
  unit : Nat
  op : Nat
  count : Nat := 0
  last : Option Rec := none
deriving DecidableEq, Repr

/-- An entry of the unit history in flash (18 R608). -/
structure Hist where
  unit : Nat
  hour : Nat
  ce : Nat := 0
  ue : Nat := 0
  fallow : Nat := 0
  residue : Nat := 0
  key : Nat := 0
  /-- Action taken (18 R608, R610): 0 none, 1 row repair, 2 core retired, 3 service (log entry 40). -/
  action : Nat := 0
deriving DecidableEq, Repr

/-- The RAS block: the ring's slots, coalescing keys, records since reset and whether it was a cold one, host ring
copies, fallow passes and withheld cores, history. -/
structure Ras where
  ring : List (Nat × List Byte) := []
  keys : List CoalKey := []
  since : Nat := 0
  cold : Bool := true
  /-- Records copied since en was set, and the sequence number of the next to copy (18 R617). -/
  copied : Nat := 0
  nextCopy : Nat := 1
  /-- Frame of the latest fallow pass of a core, and its place among the passes and the starts of launches, which are
  numbered from 1; the local index each field tests next; segments of the set a core has done; cores whose failed segment is
  being run again (18 R595, R603-R607). -/
  passed : List (Nat × Nat) := []
  passedAt : List (Nat × Nat) := []
  order : Nat := 0
  next : List (Nat × Nat) := []
  segs : List (Nat × Nat) := []
  retesting : List Nat := []
  failedCores : List Nat := []
  withheld : List Nat := []
  lapStart : List (Nat × Nat) := []
  history : List Hist := []
  hourRecs : List Hist := []
  hours : Nat := 0
deriving DecidableEq, Repr

/-! ## Boot and security (19) -/

/-- The SHA-384 digest of 96 zero bytes and the SHA-256 digest of 60: what the model's fuses hold (log entry 12). -/
def zeroEcdsaDigest : List Byte := [
  245, 123, 183, 237, 130, 198, 174, 74, 41, 230, 201, 135, 147, 56, 197, 146,
  199, 212, 42, 57, 19, 85, 131, 232, 204, 190, 57, 64, 242, 52, 75, 14,
  182, 235, 133, 3, 219, 15, 253, 106, 57, 221, 208, 12, 208, 125, 131, 23]
def zeroHssDigest : List Byte := [
  93, 204, 27, 88, 114, 221, 159, 241, 194, 52, 80, 31, 31, 239, 218, 1,
  246, 100, 22, 78, 21, 131, 195, 225, 187, 61, 190, 164, 117, 136, 171, 49]

/-- A key slot of the fuses: the digests of its two public keys, and whether it is revoked (19 R625). -/
structure KeySlot where
  ecdsa : List Byte := zeroEcdsaDigest
  hss : List Byte := zeroHssDigest
  revoked : Bool := false
deriving DecidableEq, Repr

/-- An image as the ROM reads it: the header with the section table, the signature block, and the bytes from 0 to length - 1
(19 R628, R630). -/
structure Image where
  head : List Byte
  sig : List Byte
  body : List Byte
deriving DecidableEq, Repr

/-- The boot and security block: what the flash and the fuses hold, the running image, a recovery transfer, the debug nonce
and token, the buffers. -/
structure Sec where
  /-- The bytes of the firmware image slot, from its offset 0; the rest is erased (19 R624). -/
  slot : List Byte := []
  /-- LMS reservation records in flash, by their place (19 R644). -/
  lms : List (Nat × List Byte) := []
  /-- The four key slots and the debug key slot (19 R625). -/
  keys : List KeySlot := [{}, {}, {}, {}]
  debugKey : KeySlot := {}
  /-- The ROM is streaming or checking; firmware runs; it has written MSH_DIST_SVC (19 R631). -/
  checking : Bool := false
  firmware : Bool := false
  distSet : Bool := false
  commit : Bool := false
  /-- Header source of a recovery transfer: the link (false) or the management port (true); the bytes taken so far; whether
  all are taken and the check waits for the near fill; and a valid image that awaits its flash write or activation, with
  whether the identity unseals. -/
  holder : Option Bool := none
  stream : List Byte := []
  checkWaits : Bool := false
  staged : Option (Image × Bool) := none
  reflashing : Bool := false
  nonceFresh : Bool := false
  /-- The SHA-384 digest of the running image (19 R642). -/
  digest : List Byte := []
  /-- Droop trips in protected operations since the boot began (19 R650). -/
  glitches : Nat := 0
  /-- Fuse bits still to burn for the running image (19 R638). -/
  burning : Bool := false
  rcvBuf : List (Nat × Byte) := []
  token : List (Nat × Byte) := []
deriving DecidableEq, Repr

/-! ## Management (20) -/

/-- A record in the management FIFO (20 R657). -/
structure FifoRec where
  seq : Nat
  sev : Nat
  bytes : List Byte
deriving DecidableEq, Repr

/-- What the port answers: a protocol (0 MCTP control, 1 PLDM, 2 SPDM, 3 I3C), the command, a completion code, and its
content. -/
structure Reply where
  proto : Nat
  cmd : Nat
  code : Nat
  data : List Byte := []
deriving DecidableEq, Repr

/-- The management port: FIFO, event receiver, events not acknowledged, replies sent, SPDM negotiation, envelopes in
this second, in-band interrupts, telemetry. -/
structure Mgt where
  fifo : List FifoRec := []
  receiver : Option Nat := none
  events : List Nat := []
  replies : List Reply := []
  /-- How far version, capabilities and algorithms have been negotiated, 0-3 (19 R641). -/
  spdm : Nat := 0
  /-- The last signed response, which an envelope names: the number of its free values, and its content (19 R643). -/
  signed : Option (Nat × List Byte) := none
  envelopes : Nat := 0
  envelopeSecond : Nat := 0
  ibi : Nat := 0
  /-- A firmware update in normal running: bytes taken, and a written image that awaits a reset (20 R656). -/
  updating : Bool := false
  updBytes : Nat := 0
  pendingActivation : Bool := false
  /-- Input voltage, current, energy and effective throttle as latched for the sensors (20 R655). -/
  latch : List Nat := []
  /-- Snapshots written since en was set, and overruns since the last (20 R659). -/
  snaps : Nat := 0
  overruns : Nat := 0
deriving DecidableEq, Repr

/-! ## Resets (00 R18, R19, 15 R520, 21 R674) -/

/-- A warm reset in progress; an accepted RST that waits for its CPL's acknowledgement and its delay, on a bundle with
the number of the CPL's flit; one that runs. -/
structure Resets where
  warm : Bool := false
  byPin : Bool := false
  rstWaits : Option Nat := none
deriving DecidableEq, Repr

end Sys2Proof.Machine
end

