-- ==== Sys2Proof/Machine/State.lean ====
section
/-! DEFINITION. The state of the Q1152 as plain data, the reasons a step stops, and the state right after the input
voltage is applied (00 R18), before cold sequencing starts. Tables are sparse (Maps.lean): what is not listed is at
its reset value. -/

namespace Sys2Proof.Machine

/-- Why a step stops with a fault. -/
inductive Fault where
  /-- An access to a device address that R667 of 21 does not give to anything. Raised by no meaning of this model,
  whose checks refuse such ranges before an access is made (21 R669). Safe. -/
  | unmapped
deriving DecidableEq, Repr

/-- Why a command has no meaning. -/
inductive Refusal where
  /-- The command is not modelled yet. Raised by Dispatch.lean alone. Safe. -/
  | notModelled (mnemonic : String)
deriving DecidableEq, Repr

/-! ## A core (03, 04) -/

/-- A data segment (03 R133). -/
structure Seg where
  base : BitVec 48 := 0
  limit : BitVec 48 := 0
  cls : BitVec 2 := 0
  r : Bool := false
  w : Bool := false
deriving DecidableEq, Repr

/-- The running code segment (03 R133): its handle as `epc` names it (04 R170), base, limit, class, read and execute
permission. -/
structure CodeSeg where
  handle : BitVec 7 := 0
  base : BitVec 48 := 0
  limit : BitVec 48 := 0
  x : Bool := false
  cls : BitVec 2 := 0
  r : Bool := false
deriving DecidableEq, Repr

/-- The banked exception state but `evec` (04 R166): the supervisor's `evec` is `Core.evec`, the machine's is
DBG_MEVEC (19 R645). -/
structure Bank where
  spl : BitVec 2 := 0
  sml : BitVec 3 := 0
  cause : Word32 := 0
  epc : Word64 := 0
deriving DecidableEq, Repr

/-- A register that the next instruction reads as it was before a load (03 R130), or as `lds_old` says after a
return (03 R132, `armed`). -/
structure Shadow where
  reg : BitVec 5
  old : Word64
  armed : Bool
deriving DecidableEq, Repr

/-- A branch or jump whose delay slot is next (03 R127): its offset, its target if taken, and the load shadow that
held at it (04 R187). -/
structure Slot where
  branchPc : BitVec 48
  target : Option (BitVec 48)
  shadow : Option Shadow
deriving DecidableEq, Repr

/-- A divide in flight (03 R122, R123): its result and destination. -/
structure Divide where
  rd : BitVec 5
  value : Word64
deriving DecidableEq, Repr

/-- The cp0 list (03 R159, R160): k, mode, entries best first as (key, id). -/
structure TopK where
  k : Nat
  mode : BitVec 3
  entries : List (Word32 × Word32)
deriving DecidableEq, Repr

/-- What a core's part in its kernel does (03 R115, R141, 04 R175, 18 R593). -/
inductive RunState where
  | idle
  | running
  | stopped
  | parity
deriving DecidableEq, Repr

/-! ### Caches (08 R310-R320) -/

/-- A cache line: its address a[47:6], its 64 bytes, which of its 8-byte words its code finds uncorrectable (08 R318,
09 R357), and whether a store at machine level is among those it holds (19 R627). -/
structure Line where
  addr : Nat
  data : List Byte
  dirty : Bool
  bad : List Nat
  trusted : Bool := false
deriving DecidableEq, Repr

/-- A miss register (08 R316): the line, the stores held for it as (offset, bytes), how many demand requests wait,
whether it fills the side buffer, whether a prefetch is among its requests, whether a store at machine level is among
its stores (19 R627), and whether a vector store is (05 R220). -/
structure Miss where
  addr : Nat
  stores : List (Nat × List Byte)
  waiters : Nat
  prefetch : Bool
  asked : Bool := prefetch
  trusted : Bool := false
  vec : Bool := false
deriving DecidableEq, Repr

/-- A data or instruction cache (08 R310-R317, R319): main array by set × 4 + way, victim cache and side buffer
oldest first, miss registers, replacement register, line of the latest demand miss. -/
structure Cache where
  main : List (Nat × Line) := []
  victim : List Line := []
  side : List Line := []
  miss : List Miss := []
  lfsr : BitVec 16 := 1
  lastMiss : Option Nat := none
  /-- Lines whose fill was uncorrectable, for the instruction that waits (09 R357). -/
  failed : List Nat := []
deriving DecidableEq, Repr

/-- What a core whose current instruction has not retired waits for. -/
inductive Wait where
  /-- Nothing. -/
  | none
  /-- The data of a scalar load (03 R130): address, bytes, sign extension, destination. -/
  | load (addr n : Nat) (sx : Bool) (rd : BitVec 5)
  /-- The answer of an atomic (12 R439): destination, bytes, scope. -/
  | atomic (rd : BitVec 5) (n scope : Nat)
  /-- The answer of a sync unit to a `dec`, an `sread` or a non-blocking `wait` (12 R450): destination, scope. -/
  | sync (rd : BitVec 5) (scope : Nat)
  /-- A grant of the sync unit (12 R453): destination, scope. -/
  | grant (rd : BitVec 5) (scope : Nat)
  /-- The acquire of an answered operation at its scope, which then retires with this result (12 R431). -/
  | acquire (rd : BitVec 5) (v : Option Word64) (scope : Nat)
  /-- A source that is pending and enabled (04 R184). -/
  | idle
  /-- Data of a vector access, or a coprocessor result, that has issued: no event is taken meanwhile (04 R182). -/
  | data
  /-- The array work of a tile `mac2m`, which retires with it (06 R253). -/
  | mac
  /-- Room, an acknowledgement, a fill or an earlier operation: the instruction has not executed, an event may be
  taken on it (04 R187), and it is issued again. -/
  | retry
  /-- The next element of a `blk` (03 R146). -/
  | elem
  /-- The next row of a tile load or store: its word, the rows completed, and whether a row is in flight (06 R235). -/
  | rows (w : Word32) (done : Nat) (flight : Bool)
deriving DecidableEq, Repr

/-- The scalar part of a core (03 R113, 04 R166-R171). -/
structure Scalar where
  g : List (Nat × Word64) := []
  pc : BitVec 48 := 0
  code : CodeSeg := {}
  seg : List (Nat × Seg) := []
  pl : BitVec 2 := 0
  ml : BitVec 3 := 0
  ie : BitVec 4 := 0
  /-- Pending bits in the places of `status`[7:0]. -/
  ip : BitVec 8 := 0
  xb : Bool := false
  sup : Bank := {}
  mach : Bank := {}
  evec : Word64 := 0
  ldsReg : Word32 := 0
  ldsOld : Word64 := 0
  ls : List (Nat × BitVec 48) := []
  le : List (Nat × BitVec 48) := []
  lc : List (Nat × Word32) := []
  stage : Byte := 0
  ctx : BitVec 4 := 0
  /-- `dist`.sel as the most recent CSR write gave it; before the first, `dist` reads 0 (01 R50). -/
  distSel : Option (BitVec 6) := none
  pctr : List (Nat × Word64) := []
  slot : Option Slot := none
  shadow : Option Shadow := none
  divide : Option Divide := none
  cp0 : Option TopK := none
deriving DecidableEq, Repr

/-! ### Vector, tile and numeric state (05 R194, 06 R221-R244, 07 R279-R288) -/

/-- The state of an operand tile (06 R222). -/
inductive TileState where
  | empty
  | full
  | partialLoad
  | landing
deriving DecidableEq, Repr

/-- An operand tile: shape, the bytes of its bank, state, poison mark (06 R221-R240). A gated bank holds nothing. -/
structure Tile where
  rows : Nat := 0
  bpr : Nat := 0
  data : List Byte := []
  st : TileState := .empty
  poison : Bool := false
deriving DecidableEq, Repr

/-- An accumulator: word (i, j) under i × 32 + j, and its poison kind 0 none, 1 memory, 2 residue (06 R221, R244). -/
structure Acc where
  words : List (Nat × Word32) := []
  poison : BitVec 2 := 0
deriving DecidableEq, Repr

/-- The work of an entry of the matrix queue (06 R242): `tmma` by its word, `aclr`, `trel`, `tv2acc` with what it read,
the tile variant of `mac2m` with its word and the operands it fetched (06 R253). -/
inductive MatWork where
  | tmma (w : Word32)
  | aclr (d : Nat)
  | trel (mask : Nat)
  | tv2acc (d row : Nat) (v : VReg)
  | mac2m (w : Word32) (a b : List Byte)
deriving DecidableEq, Repr

/-- An entry of the matrix queue, with the offset and handle of its instruction for records (07 R288, 18 R612). -/
structure MatOp where
  work : MatWork
  pc : BitVec 48
  handle : BitVec 7
deriving DecidableEq, Repr

/-- A piece of a landing: device address, bytes, place in the tile. -/
structure LandPiece where
  addr : Nat
  n : Nat
  place : Nat
deriving DecidableEq, Repr

/-- A landing in flight (06 R237, R240, 08 R302): its tile, the pieces still to be read, those requested and not
answered, what has come by place, and the places that were uncorrectable. -/
structure Landing where
  tile : Nat
  todo : List LandPiece
  asked : List LandPiece := []
  got : List (Nat × List Byte) := []
  lost : List LandPiece := []
deriving DecidableEq, Repr

/-! ### Channels (11) -/

/-- A ready entry of a receive ring: local scratchpad offset of its header, length in 8-byte units, skip marker,
poison (11 R396). -/
structure RxEntry where
  off : Nat
  len8 : Nat
  skip : Bool := false
  poison : Bool := false
deriving DecidableEq, Repr

/-- A combine header (10 R374): the key fields, the contributor set, and the count and flags that merging changes. -/
structure CombHdr where
  dest : Nat
  tag : Nat
  op : Nat
  ty : Nat
  det : Bool
  d : Nat
  n : Nat
  ctx : BitVec 4
  src : Word64
  cmask : Word64
  count : Nat := 1
  poison : Bool := false
  orderLost : Bool := false
  part : Bool := false
deriving DecidableEq, Repr

/-- A slot of a combining queue (11 R407, R408): the round, its merged header and elements (FP32 or INT32 form), and
whether a packet of it arrived poisoned (11 R419). -/
structure CombSlot where
  round : Nat
  hdr : CombHdr
  words : List Word32
  ready : Bool
  bad : Bool := false
deriving DecidableEq, Repr

/-- A receive ring (11 R395-R410). `base` is a local offset. `bound` is the sending core and its channel. `T` and `H`
are the free-running counts of 11 R397; `T` is the receiver's own only for datagrams. -/
structure RxRing where
  base : Nat
  size : Nat
  comb : Bool := false
  slotBytes : Nat := 0
  group : Nat := 0
  bound : Option (Nat × Nat) := none
  failed : Bool := false
  endMark : Bool := false
  entries : List RxEntry := []
  T : Nat := 0
  H : Nat := 0
  slots : List (Nat × CombSlot) := []
deriving DecidableEq, Repr

/-- A send channel (11 R397-R406). `reply` is the kept answer of its `chopen`: reason 0 on success. -/
structure SendChan where
  dst : Nat
  ring : Nat
  isOpen : Bool := false
  broken : Bool := false
  reply : Option Nat := none
  size : Nat := 0
  T : Nat := 0
  H : Nat := 0
  seq : Nat := 0
deriving DecidableEq, Repr

/-- The record of a datagram send (11 R416): the offset of its instruction and each target with its answer. -/
structure DgRec where
  pc : BitVec 48
  handle : BitVec 7
  targets : List (Nat × Option Nat)
deriving DecidableEq, Repr

/-- The channel unit of a core: rings 0-15 and 16, send channels 0-15, datagram sequence and record. -/
structure Chan where
  rx : List (Nat × RxRing) := []
  tx : List (Nat × SendChan) := []
  dgSeq : BitVec 16 := 0
  dgRec : Option DgRec := none
deriving DecidableEq, Repr

/-! ### A core -/

/-- A compute core or a service core. -/
structure Core where
  sc : Scalar := {}
  wait : Wait := .none
  run : RunState := .idle
  /-- Halted by the debugger (19 R645), and one instruction allowed by a step. -/
  halted : Bool := false
  step : Bool := false
  /-- The part in the kernel ends with this status once every write is acknowledged (08 R324). -/
  ending : Option Nat := none
  /-- The list of the running kernel as queue and first slot (02 R84), and the core's rank among its cores. -/
  kernel : Option (Nat × Nat) := none
  det : Bool := false
  v : List (Nat × VReg) := []
  tiles : List (Nat × Tile) := []
  accs : List (Nat × Acc) := []
  matq : List MatOp := []
  landings : List Landing := []
  tcfgSel : BitVec 3 := 0
  tprog : Word32 := 0
  amax : List (Nat × Word32) := []
  nanrec : List (Nat × Word64) := []
  nanTrap : Option Nat := none
  rlfsr : Word32 := 1
  /-- The context whose kernel ran last, for the clear of 08 R304. -/
  lastCtx : Option (BitVec 4) := none
  htab : List (Nat × (Word64 × Word64)) := []
  vtab : List (Nat × Word32) := []
  chan : Chan := {}
  dcache : Cache := {}
  icache : Cache := {}
  /-- Posted writes and write-backs sent and not acknowledged (08 R678). -/
  unacked : Nat := 0
  /-- An uncorrectable location met by an earlier posted store, to be raised at the next fence (08 R303). -/
  deferredUe : Bool := false
  /-- A sync overflow met by an earlier `sig`, to be raised at the next fence (12 R450). -/
  deferredOvf : Bool := false
  /-- A kept grant: the identifier, the object and n (12 R453). -/
  kept : Option (Nat × Nat × Nat) := none
  /-- A write to host memory of the core was refused (15 R515). -/
  hostRefused : Bool := false
  /-- Reads of other scratchpads sent and not answered: address and length (08 R302). -/
  rdWait : List (Nat × Nat) := []
  /-- The parts of the access under way: address (of a store, its turn) and length, with the bytes once they have come
  (08 R316). -/
  parts : List ((Nat × Nat) × Option (List Byte)) := []
  /-- The lines whose write-backs a cache-control instruction waits for (08 R323). -/
  maint : List Nat := []
  /-- Channels closed while their opening had no reply, and the core that is to answer each: its reply is discarded
  (11 R420). -/
  staleOpens : List (Nat × Nat) := []
  /-- The first instruction of a handler comes next, of the machine bank or not (04 R177). -/
  entered : Option Bool := none
deriving DecidableEq, Repr

/-! ## Packets on the mesh (10 R362, 08 R302, 09 R331) -/

/-- What a request asks of its home: a line for the data or the instruction cache, bytes for a load or for the landing of
a tile, a posted write, a write-back, or an atomic with its function code (12 R438). `poisoned` words of a write-back are
stored as uncorrectable (08 R318). -/
inductive ReqKind where
  | fill
  | fetch
  | land (tile : Nat)
  | read
  | write
  | writeBack (poisoned : List Nat)
  | amo (fn : Nat) (a b : Nat)
deriving DecidableEq, Repr

/-- Where a request is served. -/
inductive Home where
  | spad (k : Nat)
  | near (n : Nat)
  | far (p : Nat)
  | host (b : Nat)
deriving DecidableEq, Repr

/-- A request of a core in flight. -/
structure Req where
  src : Nat
  home : Home
  kind : ReqKind
  addr : Nat
  n : Nat
  data : List Byte
  /-- Sent by a service core or at machine level (19 R627). -/
  trusted : Bool := false
deriving DecidableEq, Repr

/-- A response in flight: `bad` when the home met an uncorrectable location (09 R357); its home, and its place among what
that home has sent that core (10 R367). -/
structure Resp where
  dst : Nat
  kind : ReqKind
  addr : Nat
  data : List Byte
  bad : Bool
  home : Home := .host 0
  place : Nat := 0
deriving DecidableEq, Repr

/-- An acknowledgement in flight (08 R678): `ok` is false when the write met an uncorrectable location (08 R303); the line,
of a write-back; its place among what that home has sent that core (10 R367). -/
structure Ack where
  core : Nat
  ok : Bool
  home : Home
  line : Option Nat := none
  place : Nat := 0
deriving DecidableEq, Repr

/-- A packet of the message network between two cores (10 R363, 11). A datagram carries whether its sender runs a
kernel, and its context. -/
inductive MsgKind where
  | openReq (ch ring stage : Nat) (ctx : BitVec 4)
  | openReply (ch reason size : Nat)
  | message (ch ring pos : Nat) (bytes : List Byte) (skip : Bool)
  | space (ch H : Nat)
  | endMarker (ch ring : Nat)
  | closeNotice (ch : Nat)
  | datagram (seq : BitVec 16) (tag : Nat) (payload : List Byte) (ctx : Option (BitVec 4))
  | dgAnswer (reason : Nat)
deriving DecidableEq, Repr

/-- A message in flight. -/
structure Msg where
  src : Nat
  dst : Nat
  kind : MsgKind
deriving DecidableEq, Repr

/-- One target's copy of a multicast write (10 R371-R373), and how many requests of its sender to that scratchpad were sent
before it and are still on their way (10 R367). -/
structure McWrite where
  src : Nat
  dst : Nat
  off : Nat
  data : List Byte
  ctx : BitVec 4
  after : Nat := 0
deriving DecidableEq, Repr

/-- A combine contribution between two routers (10 R378), or from a core into its own router (`src` = `dst`). -/
structure CombPkt where
  src : Nat
  dst : Nat
  hdr : CombHdr
  words : List Word32
  deriving DecidableEq, Repr

/-- An entry of a router's combine unit (10 R378, R379): the packets it holds with the input each came by (0 local,
1 -x, 2 +x, 3 -y, 4 +y), merged to one under free order. -/
structure CombEntry where
  hdr : CombHdr
  inputs : List (Nat × CombHdr × List Word32)
  k : Nat
  hold : Nat := 256
  lost : Bool := false
deriving DecidableEq, Repr

/-! ## Sync units (12 R442-R454) -/

/-- An operation on a sync object (12 R446). -/
inductive SyncKind where
  | sig (n : Nat)
  | dec (n : Nat)
  | wait (n : Nat) (nb : Bool)
  | read
deriving DecidableEq, Repr

/-- An operation on its way to its unit: the agent (a core, or queue n as 1,156 + n), the object, and the
identifier the instruction named; `orphan` when the list of its command, or the part of its core, has ended since
(12 R454, R457). -/
structure SyncOp where
  agent : Nat
  obj : Nat
  kind : SyncKind
  id : Nat := 0
  orphan : Bool := false
deriving DecidableEq, Repr

/-- What becomes of a grant on its way (12 R453, R454): the waiter uses it, or, its wait withdrawn, keeps it or returns
it. -/
inductive Fate where
  | used
  | kept
  | returned
deriving DecidableEq, Repr

/-- An answer on its way back: the value for `sread` and a non-blocking `wait`, whether the operation failed, and
whether it is a grant of `n` from object `obj` to a waiter. An `orphan` answers an instruction that no longer waits. -/
structure SyncAns where
  agent : Nat
  obj : Nat
  kind : SyncKind
  value : Nat := 0
  err : Bool := false
  id : Nat := 0
  fate : Fate := .used
  orphan : Bool := false
deriving DecidableEq, Repr

/-! ## The links (15, 16) -/

/-- The types of the transactions and messages a bundle sends (15 R509, 16 R531). -/
inductive TxKind where
  | mrd
  | mwr
  | msi
  | fsync
  | cpl
  | cple
  | mfwd
  | mepoch
  | mack
  | mhb
  | mgasp
  | mpair
deriving DecidableEq, Repr

/-- A transaction as sent. `agent` names who waits for its placement: a core 0-1,155, 1,332 for the device itself, or
a command list as 2,000 + start × 176 + queue. `orig` is the bundle and flit number a resent transaction first had
(15 R517), `unit` the requester's unit where it is no core (15 R522), `want` the bytes that a read asks for. -/
structure Tx where
  kind : TxKind
  ctx : Nat := 0
  addr : Nat := 0
  tag : Nat := 0
  status : Nat := 0
  poison : Bool := false
  resend : Bool := false
  orig : Nat × Nat := (0, 0)
  data : List Byte := []
  agent : Nat := 1332
  slots : Nat := 1
  unit : Option Nat := none
  want : Nat := 0
deriving DecidableEq, Repr

/-- A data flit in the replay buffer (15 R505, R506): its number, how often it was resent, its transaction, and from which
slot of it it carries. -/
structure Sent where
  seq : Nat
  resends : Nat
  tx : Tx
  part : Nat := 0
deriving DecidableEq, Repr

/-- A bundle: flit numbers, replay buffer, transactions waiting for credit, credits, run of uncorrectable codewords
(15 R500-R507), posted transactions not yet covered by PLACED as (number, transaction) and the count sent (15 R515).
`rxPosted` and `rxNonPosted` are the credit the partner holds, `rxLeft` the slots of a received transaction that its next
flit carries, `rxAny` whether a data flit has been accepted, `hold` whether credit of posted slots is withheld (16 R536),
`rxLost` the flits still to be told of that were lost with an uncorrectable codeword (15 R498), `out` the flit sent last. -/
structure Bundle where
  txSeq : Nat := 0
  rxSeq : Nat := 4095
  replay : List Sent := []
  waiting : List Tx := []
  posted : Nat := 0
  nonPosted : Nat := 0
  ueRun : Nat := 0
  nakSent : Bool := false
  unackedRx : Nat := 0
  rxAny : Bool := false
  hold : Bool := false
  rxLeft : Nat := 0
  rxPosted : Nat := 0
  rxNonPosted : Nat := 0
  rxLost : Nat := 0
  out : Option Flit := none
  sentPosted : Nat := 0
  unplaced : List (Nat × Tx) := []
  /-- Runs at half width, and the width before a retrain (15 R501, R522). -/
  halved : Bool := false
  before : Option Bool := none
deriving DecidableEq, Repr

/-- A read of host memory in flight (15 R511, R512): its tag, the core and line it fills, for the instruction cache or
the data cache, and whether a reset has cancelled it (15 R525). -/
structure Mrd where
  tag : Nat
  core : Nat
  addr : Nat
  fetch : Bool := false
  dead : Bool := false
deriving DecidableEq, Repr

/-- What a publication is (15 R518): a completion record's phase byte, with its list and ring; one whose list's queue
has been cancelled since (02 R97); a ring's message, which waits for all that the records it will cover publish
(02 R109); or anything else. -/
inductive PubKind where
  | phase (q start m : Nat) (irqNow : Bool)
  | orphan (agent m : Nat) (irqNow : Bool)
  | ringMsg (m : Nat)
  | plain
deriving DecidableEq, Repr

/-- A write or message sent only once every MWR of the agents `needs` is placed (15 R518). -/
structure Pub where
  needs : List Nat
  kind : PubKind
  tx : Tx
deriving DecidableEq, Repr

/-! ## The mirror (16) -/

/-- A write in the journal of a shadow (16 R536): the bundle on which it was first sent, and the frame and kind of the
marker that has closed it. -/
structure JEntry where
  bundle : Nat
  kind : Nat
  addr : Nat
  data : List Byte
  poison : Bool
  mark : Option (Nat × Nat) := none
deriving DecidableEq, Repr

/-- A marker a shadow has received on a bundle (16 R531, R534), and whether its count matches what came before it. -/
structure Marker where
  bundle : Nat
  frame : Nat
  kind : Nat
  openFrame : Nat
  inUse : Nat
  matched : Bool
deriving DecidableEq, Repr

/-- What waits at its home or its bundle behind the close of an earlier epoch (16 R534): the number of its own epoch,
counted as the primary closes them, and an MFWD, or the marker of a bundle with its frame as address and its byte 14. -/
structure Behind where
  epoch : Nat
  kind : Nat
  addr : Nat
  data : List Byte := []
  poison : Bool := false
  marker : Option Nat := none
  mask : Nat := 0
deriving DecidableEq, Repr

/-- A running SNAPSHOT (16 R542, R543): its list, its cut, the granules that were dirty when it started and are not yet
shipped, those it shipped, whether a store broke its cut, and whether its marker has been sent. -/
structure Snap where
  queue : Nat
  start : Nat
  cut : Nat
  todo : List (Nat × Nat)
  done : List (Nat × Nat) := []
  broken : Bool := false
  marked : Bool := false
deriving DecidableEq, Repr

/-- The mirror engine beside its registers. A granule is (home, number): home n a slice, 1,152 + p a port. -/
structure Mirror where
  peerState : Nat := 0
  /-- Dirty granules, and those shipped since the last committed cut (16 R541, R545). -/
  dirty : List (Nat × Nat) := []
  shipped : List (Nat × Nat) := []
  snap : Option Snap := none
  /-- The epochs not closed on every bundle, oldest first, as (frame, open frame, byte 14 of their markers); how many older
  ones are closed; the close marks arrived, by bundle and source; the markers sent, by bundle (16 R534, R535). -/
  closing : List (Nat × Nat × Nat) := []
  gone : Nat := 0
  arrived : List ((Nat × Nat) × Nat) := []
  marked : List (Nat × Nat) := []
  /-- Whether epoch traffic has started (16 R529), the first epoch, and the last one acknowledged. -/
  epochs : Bool := false
  first : Nat := 0
  acked : Option Nat := none
  /-- MFWD and markers that wait behind the close of an earlier epoch (16 R534). -/
  behind : List Behind := []
  /-- MFWD sent, and received, on each bundle since the previous marker. -/
  sent : List (Nat × Nat) := []
  recvd : List (Nat × Nat) := []
  /-- MFWD received and not yet applied, in the order received, and the markers received for them. -/
  journal : List JEntry := []
  markers : List Marker := []
  /-- The open frame the shadow applied last (16 R539), and whether it has applied one. -/
  openFrame : Nat := 0
  applied : Bool := false
  /-- The timer of 16 R546 has expired and the witness decides. -/
  waitsWitness : Bool := false
  /-- The RESYNC stream: the queue of the command, if it was one, and the blocks that it has shipped (16 R553). -/
  resync : Option (Option Nat) := none
  resyncPos : Nat := 0
  /-- Risk inputs held (16 R544): Hearth request, sag or swell, droop, one residue failure, two. -/
  riskReq : Bool := false
  riskSag : Bool := false
  riskDroop : Bool := false
  riskRes : Nat := 0
  /-- Corrected records of the last 6,250 frames, the frame of each, and the level held for them. -/
  riskCe : List Nat := []
  riskCeHeld : Nat := 0
  /-- Whether the peer is declared lost (16 R537). -/
  lost : Bool := false
deriving DecidableEq, Repr

/-! ## The Kiln and the engines (02) -/

/-- What the Kiln holds beside its registers (02 R59-R63, R98-R106): acquisition, whether it was entered after a loss,
misses in it, run of ticks in the window, whether the next source message replaces the frame number, and the period
and cap in force. -/
structure Kiln where
  acq : Bool := false
  acqLost : Bool := false
  acqMiss : Nat := 0
  inWin : Nat := 0
  adopt : Bool := false
  period : Nat := 160
  cap : Nat := 4000
  tickClk : Nat := 0
  pulses : Nat := 0
deriving DecidableEq, Repr

/-- A LAUNCH that has been checked (02 R84-R86): its list, its command's index, its cores, those that have not ended
their part, whether they have started, the status their faults call for, and its parameters. -/
structure Launch where
  queue : Nat
  start : Nat
  idx : Nat
  cores : List Nat
  left : List Nat
  started : Bool := false
  /-- The engine stopped cores of it after the grace (R101, R102). -/
  cut : Bool := false
  status : Nat := 0
  fields : Nat := 0
  code : Nat := 0
  entry : Nat := 0
  arg0 : Word64 := 0
  arg1 : Word64 := 0
  det : Bool := false
  overlap : Bool := false
  priv : BitVec 2 := 0
  stageRule : Nat := 0
  stages : List Byte := []
  firedAt : Nat := 0
  /-- Its place among the starts of launches and the fallow passes (18 R595). -/
  startedAt : Nat := 0
  /-- Fields that hold a core meeting 18 R595, and the op and core of the first (18 R613). -/
  suspect : List Nat := []
  suspectOp : Nat := 0
  suspectCore : Nat := 0
  suspectEpc : Nat := 0
  /-- The exchanged fields of a replay, each suspect field with its donor (18 R597, R598), and whether it has run. -/
  pairs : List (Nat × Nat) := []
  replayed : Bool := false
deriving DecidableEq, Repr

/-- A command list the Kiln has fetched the header of (02 R79-R81, R95-R102). `status` is the status its record will
carry, `reportOnly` a list that is not run (R81, R88, R95), `left` the firing ticks to its deadline, `idx` the next
command to start, `busy` a command that has started and not finished, `holds` a WAIT whose operation is at its sync
unit, `stop` an abort or a failed command: no further command starts. -/
structure CmdList where
  start : Nat
  count : Nat := 0
  next : Bool := false
  irqNow : Bool := false
  budget : Nat := 1
  cring : Nat := 0
  target : Nat := 0
  tag : Nat := 0
  status : Nat := 0
  reportOnly : Bool := false
  /-- A firing tick has come for it, and only the room of its ring held it (R92, R95). -/
  stalled : Bool := false
  late : Bool := false
  fired : Option Nat := none
  left : Nat := 0
  idx : Nat := 0
  done : Nat := 0
  busy : Bool := false
  holds : Bool := false
  stop : Bool := false
  /-- The abort policy stops the list (R101); a command of it was cancelled, or a kernel stopped after the grace
  (R102). -/
  aborting : Bool := false
  cut : Bool := false
  ranPast : Bool := false
  replayed : Bool := false
  capped : Bool := false
  stolen : Nat := 0
  ended : Option Nat := none
  /-- Source bytes, or rows under transpose, that a COPY has moved (R87). -/
  pos : Nat := 0
  /-- A command waits for the placement of its writes, with the status it then ends with, and one of them was refused or
  met an uncorrectable location (09 R333, 12 R434, 15 R515). -/
  drain : Bool := false
  drainSt : Nat := 0
  refused : Bool := false
  /-- Bytes 0-30 of the record are written (R91). -/
  recording : Bool := false
  /-- The commands whose slot has met a parity error, and whether the COPY has been run again (18 R594, R602). -/
  parity : List Nat := []
  rerun : Bool := false
  /-- Byte 31 of the record is written (R91). -/
  out : Bool := false
  /-- The bytes of a command in progress, and the handle entries it read when it started (08 R307). -/
  cmd : List Byte := []
  refs : List (Word64 × Word64) := []
  /-- The LAUNCHes of it that have completed: steps that may yet become suspect (18 R595, R607). -/
  past : List Launch := []
deriving DecidableEq, Repr

/-- A queue (02 R70-R79): the slot count at which the next header starts, the lists in order, and the SWATH sequence
number (14 R490). -/
structure Queue where
  fetch : Nat := 0
  lists : List CmdList := []
  swathSeq : Nat := 0
deriving DecidableEq, Repr

/-- A completion ring (02 R88-R92, R109): records written since enable, and how many of them no message covers. -/
structure Ring where
  written : Nat := 0
  unsignalled : Nat := 0
  /-- The lists whose records no message covers, as agents. -/
  covers : List Nat := []
deriving DecidableEq, Repr

/-! ## Undefined contents -/

/-- Bytes lo .. hi - 1 of a scratchpad hold the free values of number n. -/
structure Undef where
  pad : Nat
  lo : Nat
  hi : Nat
  n : Nat
deriving DecidableEq, Repr

/-- Whether the part holds offset o of scratchpad k. -/
def Undef.has (u : Undef) (k o : Nat) : Bool := u.pad == k && decide (u.lo ≤ o ∧ o < u.hi)

/-! ## The pins (01 R34-R44) -/

/-- The sideband pins and the reference clock. `slot` is the strap; `true` on an active-low pin is high. -/
structure Pins where
  refclk : Bool := false
  modResetN : Bool := true
  pwrGood : Bool := false
  alertN : Bool := true
  slot : BitVec 2 := 3
deriving DecidableEq, Repr

/-! ## The device -/

/-- The Q1152 with its queue of waiting commands. -/
structure State where
  /-- Commands waiting, first in, first out: the model's own (log entry 2). -/
  pending : List Instr := []
  /-- Counter that names fresh free values: the model's own (log entry 3). -/
  freeCount : Nat := 0
  /-- Core-clock cycles since the cold reset (03 R139, 00 R6). -/
  clk : Nat := 0
  pins : Pins := {}
  /-- The MMIO registers that differ from their cold values, by register and element. -/
  regs : List ((Reg × Nat) × Word64) := []
  /-- Bits of w1s fields that the latest register write has set in the cycle in which hardware is to clear them
  (00 R15). -/
  clash : List ((Reg × Nat) × Nat) := []
  /-- Memory: device address (sliced for near memory) and byte, rising, no zero byte listed. -/
  mem : List Host.Cell := []
  /-- Base addresses of the granules that read as uncorrectable (08 R299, 09 R333, R345). -/
  bad : List Nat := []
  /-- The parts of scratchpads whose content is undefined (02 R101, 18 R593). -/
  undef : List Undef := []
  /-- Addresses of an undefined scratchpad written with zero since. -/
  zeroed : List Nat := []
  cores : List (Nat × Core) := []
  kiln : Kiln := {}
  queues : List (Nat × Queue) := []
  rings : List (Nat × Ring) := []
  launches : List Launch := []
  /-- The queue each engine served last (R96), the rounding register of each copy engine (07 R279). -/
  turn : List (Nat × Nat) := []
  xlfsr : List (Nat × Word32) := []
  pubs : List Pub := []
  swath : Option Swath := none
  sieveRes : List SieveRes := []
  hearth : Hearth := {}
  cones : Cones := {}
  upkeep : Upkeep := {}
  ras : Ras := {}
  sec : Sec := {}
  mgt : Mgt := {}
  resets : Resets := {}
  reqs : List Req := []
  resps : List Resp := []
  /-- Acknowledgements of posted writes in flight. -/
  acks : List Ack := []
  msgs : List Msg := []
  mcs : List McWrite := []
  combs : List CombPkt := []
  /-- Rounds on their way from a destination router into the combining queue (10 R384). -/
  rounds : List CombPkt := []
  combEntries : List ((Nat × Nat) × CombEntry) := []
  /-- Waiters of each sync object, oldest first: agent, n, identifier (12 R451). -/
  waiters : List (Nat × List (Nat × Nat × Nat)) := []
  /-- The bank row each scratchpad's sweeper reads next (08 R301). -/
  sweep : List (Nat × Nat) := []
  syncOps : List SyncOp := []
  syncAns : List SyncAns := []
  mrds : List Mrd := []
  /-- Reads of host memory that wait for a free tag, oldest first (15 R511). -/
  mrdWaits : List Mrd := []
  mirror : Mirror := {}
  recs : List Rec := []
  bundles : List ((LinkId × Nat) × Bundle) := []
deriving DecidableEq, Repr

/-- Right after the input voltage is applied (00 R18): every register at its cold value, nothing listed in memory,
no command waiting. Cold sequencing (17 R562) is the first thing that happens. -/
def State.reset : State := {}

end Sys2Proof.Machine
end

