-- ==== Sys2Proof/Machine/Flit.lean ====
section
/-! DEFINITION. What the bundles put on the wire: codewords, flits with their CRC, and the slots of transactions
(15 R498, R502-R509, 16 R531). -/

namespace Sys2Proof.Machine

/-! ## Codewords (15 R498) -/

/-- The lanes that carry traffic: all 16, or the half in use (15 R501). -/
def activeLanes (halved : Bool) (half : Nat) : List Nat := if halved then nats 8 (8 * half) 1 else nats 16 0 1

/-- Symbols of a codeword that arrive wrong: those in error, and those that lanes carry which deliver nothing. The symbols
go round-robin over the active lanes. -/
def codewordWrong (r : Codeword) (lanes : List Nat) : Nat :=
  ((nats 544 0 1).filter (fun i => r.errors.any (fun x => x.val == i) ||
    natBit r.dead.toNat (lanes.getD (i % lanes.length) 0))).length

/-! ## Flits (15 R502, R503) -/

/-- One step of the CRC, most significant bit first. -/
def crcBit (c : Word64) : Word64 := if c.getLsbD 63 then (c <<< 1) ^^^ 0x42F0_E1EB_A9EA_3693 else c <<< 1

/-- A byte taken into the CRC. -/
def crcByte (c : Word64) (b : Byte) : Word64 :=
  crcBit (crcBit (crcBit (crcBit (crcBit (crcBit (crcBit (crcBit (c ^^^ (b.setWidth 64 <<< 56)))))))))

/-- CRC-64 of bytes, from all ones, inverted. -/
def crc64 (bs : List Byte) : Word64 := ~~~ (bs.foldl crcByte 0xFFFF_FFFF_FFFF_FFFF)

/-- A list cut or filled with zeros to n bytes. -/
def padTo (n : Nat) (bs : List Byte) : List Byte := (bs ++ List.replicate n 0).take n

/-- Bytes 0-247 of a flit. -/
def flitBody (f : Flit) : List Byte :=
  leBytes 2 f.seq.toNat ++
  leBytes 2 (f.ack.toNat + (if f.ackValid then 2 ^ 12 else 0) + (if f.nak then 2 ^ 13 else 0)) ++
  [f.kind, f.postedCredit, f.nonPostedCredit, 0] ++ padTo 240 f.slots

/-- Whether the CRC of a flit holds. -/
def flitCrcGood (f : Flit) : Bool := f.crc == crc64 (flitBody f)

/-- A flit with its CRC. -/
def flitSealed (f : Flit) : Flit := { f with crc := crc64 (flitBody f) }

/-- The 256 bytes of a flit. -/
def flitBytes (f : Flit) : List Byte := flitBody f ++ leBytes 8 f.crc.toNat

/-! ## Transactions as sent (15 R508, R509, 16 R531) -/

/-- The type of a transaction. -/
def TxKind.code : TxKind → Nat
  | .mrd => 1 | .mwr => 2 | .msi => 3 | .fsync => 4 | .cpl => 0x10 | .cple => 0x11
  | .mfwd => 0x20 | .mepoch => 0x21 | .mack => 0x22 | .mhb => 0x23 | .mgasp => 0x24 | .mpair => 0x25

/-- The header of a transaction: type, flags, bytes 2-5 by type, orig, address. The place of a write's context, and the
content of MPAIR's data slot, are the model's (log entry 55). -/
def Tx.header (t : Tx) : List Byte :=
  let flags := (if t.poison then 2 else 0) + (if t.resend then 4 else 0)
  let orig := if t.resend then t.orig.2 % 4096 + t.orig.1 * 4096 else 0
  let len := if t.kind = .mrd then t.want - 1 else if t.data = [] ∨ t.kind = .msi then 0 else t.data.length - 1
  let two := match t.kind with
    | .mrd | .mwr | .cpl | .cple => t.tag % 4096 + t.ctx % 16 * 4096
    | .mpair => 0
    | _ => t.tag % 65536
  [BitVec.ofNat 8 t.kind.code, BitVec.ofNat 8 flags] ++
  (match t.kind with
   | .msi => padTo 4 t.data
   | .mpair => leBytes 2 two ++ [15, 0]
   | _ => leBytes 2 two ++ [BitVec.ofNat 8 len, BitVec.ofNat 8 (if t.kind = .cple then t.status else 0)]) ++
  leBytes 2 orig ++ leBytes 8 (if t.kind = .mpair then 0 else t.addr % 2 ^ 48)

/-- The data slots of a transaction. -/
def Tx.payload (t : Tx) : List Byte :=
  match t.kind with
  | .msi => []
  | .mpair => [BitVec.ofNat 8 t.tag, BitVec.ofNat 8 t.status, 0, 0] ++ leBytes 4 t.addr
  | _ => t.data

/-- The slots of a transaction as bytes: its header, then its data from byte 0 of the next slot. -/
def Tx.slotBytes (t : Tx) : List Byte := t.header ++ padTo (16 * (t.slots - 1)) t.payload

/-- The data flits that a transaction takes, 15 slots each; a longer one continues in the next flit. -/
def Tx.flits (t : Tx) : Nat := (t.slots + 14) / 15

/-! ## Transactions as received (15 R507-R509, 16 R531) -/

/-- What a receiver makes of the slots of its data flits: slots of a transaction that go on in the next flit, transactions
discarded for R509, the tags and contexts of reads among them, and the posted and non-posted slots taken. -/
structure Scan where
  left : Nat := 0
  bad : Nat := 0
  reads : List (Nat × Nat) := []
  posted : Nat := 0
  nonPosted : Nat := 0
deriving DecidableEq, Repr

/-- The types a link's receiver accepts: host to device, or those of the mirror profile. -/
def rxType (l : LinkId) (t : Nat) : Bool :=
  match l with
  | .vcl => decide (t ∈ [0x05, 0x08, 0x09, 0x0A, 0x0B, 0x10, 0x11])
  | .mir => decide (t ∈ [0x04, 0x20, 0x21, 0x22, 0x23, 0x24, 0x25])

/-- Whether the reserved fields of a received header are 0 (R508). -/
def headerClean (l : LinkId) (h : List Byte) : Bool :=
  let t := leAt h 0 1
  natBits (leAt h 1 1) 7 3 == 0 && (leAt h 5 1 == 0 || t == 0x11) && (t != 0x20 || natBits (leAt h 2 2) 15 2 == 0) &&
  (leAt h 6 2 == 0 || natBit (leAt h 1 1) 2) && natBits (leAt h 6 2) 15 14 == 0 &&
  (t == 0x05 || t == 0x0A || t == 0x0B ||
    (natBits (leAt h 8 8) 63 50 == 0 && (natBits (leAt h 8 8) 49 48 == 0 || (l == .vcl && (t == 8 || t == 9)))))

/-- The slots of a received transaction, of either direction; one of a reserved type has no known length and counts as a
header alone. -/
def rxSlots (h : List Byte) : Nat :=
  let t := leAt h 0 1
  if t = 0x02 ∨ t = 0x09 ∨ t = 0x10 ∨ t = 0x20 then 1 + (leAt h 4 1 + 16) / 16
  else if t = 0x04 ∨ t = 0x21 ∨ t = 0x23 ∨ t = 0x25 then 2 else 1

/-- One slot of a data flit. -/
def scanSlot (l : LinkId) (r : Scan) (h : List Byte) : Scan :=
  if 0 < r.left then { r with left := r.left - 1 }
  else if h.all (· == 0) then r
  else
    let t := leAt h 0 1
    let n := rxSlots h
    let r := { r with left := n - 1 }
    let r := if t ∈ [0x01, 0x08, 0x0B] then { r with nonPosted := r.nonPosted + n }
      else if t = 0x10 ∨ t = 0x11 then r else { r with posted := r.posted + n }
    if rxType l t && headerClean l h then r
    else
      let w := leAt h 2 2
      { r with bad := r.bad + 1,
               reads := if l = .vcl ∧ (t = 0x08 ∨ t = 0x01) then r.reads ++ [(natBits w 11 0, natBits w 15 12)] else r.reads }

/-- The 15 slots of a data flit, after `left` slots that the flit before left open. -/
def flitScan (l : LinkId) (f : Flit) (left : Nat) : Scan :=
  (nats 15 0 16).foldl (fun r o => scanSlot l r (((padTo 240 f.slots).drop o).take 16)) { left := left }

/-! ## Sending on a bundle (15 R502, R504-R507) -/

/-- Slots of receive space the device advertises for each bundle, posted and non-posted (15 R507). -/
def rxSpace : Nat × Nat := (2048, 512)

/-- A flit goes out: with the acknowledgement of what has been accepted, and with the credit of the slots taken since. -/
def Bundle.emit (u : Bundle) (kind seq : Nat) (slots : List Byte) (nak : Bool) : Bundle :=
  let p := if u.hold then 0 else min 255 (rxSpace.1 - u.rxPosted)
  let n := min 255 (rxSpace.2 - u.rxNonPosted)
  { u with
    unackedRx := 0, rxPosted := u.rxPosted + p, rxNonPosted := u.rxNonPosted + n
    out := some (flitSealed ⟨BitVec.ofNat 12 seq, BitVec.ofNat 12 u.rxSeq, u.rxAny, nak, BitVec.ofNat 8 kind,
      BitVec.ofNat 8 p, BitVec.ofNat 8 n, padTo 240 slots, 0⟩) }

/-- A data flit that carries the slots of a transaction from slot p on. -/
def Bundle.emitData (u : Bundle) (seq : Nat) (t : Tx) (p : Nat) : Bundle :=
  u.emit 0 seq ((t.slotBytes.drop (16 * p)).take 240) false

/-- The class of a transaction for credit (15 R507): 0 completions, 1 non-posted, 2 posted. -/
def Tx.cls (t : Tx) : Nat := match t.kind with | .cpl | .cple => 0 | .mrd => 1 | _ => 2

/-- Whether credit and the replay buffer allow a transaction now (15 R505, R507). -/
def maySend (u : Bundle) (t : Tx) : Bool :=
  decide (u.replay.length + t.flits ≤ 1024) &&
  (match t.cls with
   | 0 => true
   | 1 => decide (t.slots ≤ u.nonPosted)
   | _ => decide (t.slots ≤ u.posted))

/-- The flits of a transaction are numbered, kept for replay and sent. -/
def sendFlits (u : Bundle) (t : Tx) : Bundle :=
  (nats t.flits 0 15).foldl (fun u p =>
    Bundle.emitData { u with txSeq := (u.txSeq + 1) % 4096, replay := u.replay ++ [⟨u.txSeq, 0, t, p⟩] } u.txSeq t p) u

/-- A transaction is sent: it spends credit, and a posted one is counted until PLACED covers it, a resent one staying
counted on its first bundle (15 R504-R507, R515). -/
def formFlit (l : LinkId) (u : Bundle) (t : Tx) : Bundle :=
  let u := sendFlits u t
  match t.kind with
  | .cpl | .cple => u
  | .mrd => { u with nonPosted := u.nonPosted - t.slots }
  | .mwr | .msi | .fsync =>
    if l = .mir ∨ t.resend = true then { u with posted := u.posted - t.slots }
    else
      let n := (u.sentPosted + 1) % 2 ^ 64
      { u with posted := u.posted - t.slots, sentPosted := n, unplaced := u.unplaced ++ [(n, t)] }
  | _ => { u with posted := u.posted - t.slots }

end Sys2Proof.Machine
end

