-- ==== Sys2Proof/Machine/Ops.lean ====
section
/-! DEFINITION. The operations every meaning is written over: registers and their fields, time, cores, event bits and
messages, error records, and memory at its homes. -/

namespace Sys2Proof.Machine

/-! ## Registers (00 R11-R15) -/

/-- The cold value of a register (00 R16). -/
def coldValue (r : Reg) : Nat := (regRow r).rows.foldl (fun a f => natSetBits a f.hi f.lo f.cold) 0

/-- A register element as it stands. -/
def State.reg (s : State) (r : Reg) (i : Nat) : Word64 := mget s.regs (r, i) (BitVec.ofNat 64 (coldValue r))

/-- A register element replaced whole. -/
def State.setReg (s : State) (r : Reg) (i : Nat) (v : Word64) : State := { s with regs := mput s.regs (r, i) v }

/-- A field of a register element. -/
def State.get (s : State) (f : Fld) (i : Nat := 0) : Nat := natBits (s.reg f.reg i).toNat f.hi f.lo

/-- A field of a register element written by hardware. -/
def State.set (s : State) (f : Fld) (v : Nat) (i : Nat := 0) : State :=
  s.setReg f.reg i (BitVec.ofNat 64 (natSetBits (s.reg f.reg i).toNat f.hi f.lo v))

/-- A one-bit field. -/
def State.flag (s : State) (f : Fld) (i : Nat := 0) : Bool := s.get f i == 1

/-- The largest value of a field, at which the saturating counters stop. -/
def Fld.max (f : Fld) : Nat := 2 ^ (f.hi + 1 - f.lo) - 1

/-- A counter that saturates counts `k` more. -/
def State.bump (s : State) (f : Fld) (i : Nat := 0) (k : Nat := 1) : State :=
  s.set f (min f.max (s.get f i + k)) i

/-- A counter that wraps counts `k` more. -/
def State.bumpWrap (s : State) (f : Fld) (i : Nat := 0) (k : Nat := 1) : State := s.set f (s.get f i + k) i

/-- Hardware clears the bits `m` of a w1s field; a write that sets one of them in the same cycle wins (00 R15). -/
def hwClear (f : Fld) (i m : Nat) (s : State) : State :=
  let old := s.get f i
  let kept := natBits (mget s.clash (f.reg, i) 0) f.hi f.lo &&& m
  let t := s.set f (old - (old &&& (m - kept))) i
  if kept = 0 then t else { t with clash := [] }

/-! ## Time (00 R6) -/

/-- The device timestamp in nanoseconds: the core clock runs at 1.7 GHz (00 R2). -/
def State.now (s : State) : Nat := s.clk * 10 / 17

/-- The current frame number (02 R65). -/
def State.frame (s : State) : Nat := s.get F.klnFrameNum_count

/-! ## Cores -/

/-- Core `c`. -/
def State.core (s : State) (c : Nat) : Core := mget s.cores c {}

/-- Core `c` replaced. -/
def State.setCore (s : State) (c : Nat) (k : Core) : State := { s with cores := mput s.cores c k }

/-- The scalar part of core `c` changed. -/
def State.updSc (s : State) (c : Nat) (f : Scalar → Scalar) : State :=
  s.setCore c { s.core c with sc := f (s.core c).sc }

/-- Core `c` changed. -/
def State.updCore (s : State) (c : Nat) (f : Core → Core) : State := s.setCore c (f (s.core c))

/-- A service core (00 R8). -/
def isService (c : Nat) : Bool := 1152 ≤ c

/-! ## Coordinates and unit identifiers (00 R8, R20-R22, 01 R46, R47, R677) -/

/-- The router of core c: x, y. A service core has its corner router (01 R47). -/
def coreXY (c : Nat) : Nat × Nat :=
  if c < 1152 then (c % 48, c / 48)
  else if c = 1152 then (0, 0) else if c = 1153 then (47, 0) else if c = 1154 then (0, 23) else (47, 23)

/-- The router of a far-memory port (01 R46). -/
def portXY (p : Nat) : Nat × Nat := (2 + 6 * (p % 16 % 4) + 24 * (p / 16), 2 + 6 * (p % 16 / 4))

/-- The router of a bundle (01 R47). -/
def bundleXY (l : LinkId) (b : Nat) : Nat × Nat :=
  match l with
  | .vcl => if b = 0 then (4, 12) else if b = 1 then (12, 4) else (12, 20)
  | .mir => if b = 0 then (35, 4) else if b = 1 then (35, 20) else (43, 12)

/-- A unit identifier (00 R20, R21). -/
def unitId (cls : Nat) (xy : Nat × Nat) (sub : Nat) : Nat :=
  cls * 2 ^ 28 + (if 24 ≤ xy.1 ∧ xy.1 < 48 then 2 ^ 27 else 0) + xy.1 * 2 ^ 21 + xy.2 * 2 ^ 16 + sub

/-- The unit of a core's sub-unit: class 0x0, or 0x9 for a service core (00 R22, 08 R325). -/
def coreUnit (c sub : Nat) : Nat := unitId (if isService c then 9 else 0) (coreXY c) sub

/-- A unit of the module (00 R21): die 0, x 63, y 31. -/
def moduleUnit (cls sub : Nat) : Nat := cls * 2 ^ 28 + 63 * 2 ^ 21 + 31 * 2 ^ 16 + sub

/-- The unit of engine e (01 R677): 0 compute, 1-8 copy, 9 sieve, 10 mirror. -/
def engineUnit (e : Nat) : Nat :=
  if e = 0 then unitId 12 (23, 11) 1
  else if e ≤ 8 then unitId 5 (5 + 12 * ((e - 1) % 4), 6 + 12 * ((e - 1) / 4)) (e - 1)
  else if e = 9 then unitId 6 (23, 12) 0
  else unitId 8 (35, 4) 0x200

/-- The field of a core (00 R8). -/
def fieldOf (c : Nat) : Nat := (c / 48 / 8) * 6 + c % 48 / 8

/-- The local index of a core in its field (02 R84). -/
def localOf (c : Nat) : Nat := (c / 48 % 8) * 8 + c % 48 % 8

/-- The core with local index `i` of field `f`. -/
def coreAt (f i : Nat) : Nat := (8 * (f / 6) + i / 8) * 48 + 8 * (f % 6) + i % 8

/-- Mesh links between two routers (01 R51). -/
def hops (a b : Nat × Nat) : Nat := (a.1 - b.1) + (b.1 - a.1) + (a.2 - b.2) + (b.2 - a.2)

/-- Whether two routers lie on different dies (01 R30). -/
def seam (a b : Nat × Nat) : Bool := (24 ≤ a.1) != (24 ≤ b.1)

/-! ## The companion link: what the device sends (15 R508-R521) -/

/-- A bundle of a link. -/
def State.bundle (s : State) (l : LinkId) (b : Nat) : Bundle := mget s.bundles (l, b) {}

/-- A bundle replaced. -/
def State.setBundle (s : State) (l : LinkId) (b : Nat) (v : Bundle) : State :=
  { s with bundles := mput s.bundles (l, b) v }

/-- The state field of a bundle (15 R499, R524, 16 R557). -/
def bstat (l : LinkId) : Fld := match l with | .vcl => F.vclBstat_state | .mir => F.mirBstat_state

/-- A bundle that is active or degraded. -/
def usable (s : State) (l : LinkId) (b : Nat) : Bool := s.get (bstat l) b == 6 || s.get (bstat l) b == 7

/-- The first of bundles b, b + 1, b + 2 modulo 3 that is active or degraded (15 R511). -/
def pickBundle (s : State) (l : LinkId) (b : Nat) : Option Nat :=
  if usable s l b then some b else if usable s l ((b + 1) % 3) then some ((b + 1) % 3)
  else if usable s l ((b + 2) % 3) then some ((b + 2) % 3) else none

/-- Whether a transaction may go out on a bundle at once: traffic is not held (15 R499), none of its class waits there,
and it has credit and room. -/
def sendsNow (s : State) (l : LinkId) (b : Nat) (t : Tx) : Bool :=
  usable s l b && (s.bundle l b).waiting.all (fun x => x.cls != t.cls) && maySend (s.bundle l b) t

/-- Sends on a bundle, behind the transactions of its class already waiting there. -/
def sendOn (l : LinkId) (b : Nat) (t : Tx) (s : State) : State :=
  let u := s.bundle l b
  s.setBundle l b (if sendsNow s l b t then formFlit l u t else { u with waiting := u.waiting ++ [t] })

/-- The bundle of a context (15 R511, R523). -/
def ctxBundle (s : State) (ctx : Nat) : Nat := natBits (s.reg .vclCtxMap 0).toNat (2 * ctx + 1) (2 * ctx)

/-- Sends a device transaction to the host on its context's bundle; with no usable bundle it is discarded
(15 R511, R521). -/
def sendHost (t : Tx) (s : State) : State :=
  match pickBundle s .vcl (ctxBundle s t.ctx) with
  | some b => sendOn .vcl b t s
  | none => s

/-- An address of the host region (21 R667). -/
def isHostAddr (a : Nat) : Bool := 0x1000_0000_0000 ≤ a && a < 2 ^ 48

/-- An interrupt message to an address of the host region. -/
def postMsi (ctx addr data : Nat) (s : State) : State :=
  sendHost { kind := .msi, ctx := ctx, addr := addr - 0x1000_0000_0000, data := leBytes 4 data } s

/-- An interrupt message (02 R108, 15 R518): outside the host region it is discarded and msg_err set, which is an event of
the link with its own message (02 R110). -/
def sendMsi (ctx addr data : Nat) (s : State) : State :=
  if isHostAddr addr then postMsi ctx addr data s
  else if s.flag F.vclEvtStat_msg_err then s
  else
    let s := s.set F.vclEvtStat_msg_err 1
    let a := (s.reg .vclEvtMsgAddr 0).toNat
    if natBit (s.get F.vclEvtEn_en) F.vclEvtStat_msg_err.lo && isHostAddr a then
      postMsi 0 a (s.reg .vclEvtMsgData 0).toNat s
    else s

/-! ## Event bits (02 R110) -/

/-- The enable field, message address and message data registers of the block an event bit belongs to. The cones use
Hearth's message registers (17 R590). Blocks without enables send no message. -/
def evtRegs (r : Reg) : Option (Fld × Reg × Reg) :=
  match r with
  | .klnEvtStat => some (F.klnEvtEn_en, .klnEvtMsgAddr, .klnEvtMsgData)
  | .vclEvtStat => some (F.vclEvtEn_en, .vclEvtMsgAddr, .vclEvtMsgData)
  | .mirEvtStat => some (F.mirEvtEn_en, .mirEvtMsgAddr, .mirEvtMsgData)
  | .hrtEvtStat => some (F.hrtEvtEn_en, .hrtEvtMsgAddr, .hrtEvtMsgData)
  | .conEvtStat => some (F.conEvtEn_en, .hrtEvtMsgAddr, .hrtEvtMsgData)
  | .rasEvtStat => some (F.rasEvtEn_en, .rasEvtMsgAddr, .rasEvtMsgData)
  | .secEvtStat => some (F.secEvtEn_en, .secEvtMsgAddr, .secEvtMsgData)
  | _ => none

/-- The bit of MGT_CTL.evt_mask that selects an event (20 R664). -/
def alertClass (f : Fld) : Option Nat :=
  match f.reg, f.lo with
  | .klnEvtStat, 0 => some 0
  | .hrtEvtStat, 2 | .hrtEvtStat, 3 => some 1
  | .conEvtStat, 0 | .conEvtStat, 1 | .conEvtStat, 3 => some 2
  | .mirEvtStat, 0 | .mirEvtStat, 1 => some 3
  | .vclEvtStat, 4 => some 4
  | .secEvtStat, 0 => some 5
  | _, _ => none

/-- Whether ALERT_N is to be low (20 R658). -/
def alertLow (s : State) : Bool :=
  (s.flag F.mgtCtl_alert_en && s.mgt.fifo.any (fun r => decide (s.get F.mgtCtl_alert_sev ≤ r.sev))) ||
  s.mgt.events.any (fun e => natBit (s.get F.mgtCtl_evt_mask) e)

/-- ALERT_N is driven anew; in I3C mode its fall raises an in-band interrupt. It is high without rails. -/
def settleAlert (s : State) : State :=
  let high := !(s.pins.pwrGood && alertLow s)
  let ibi := s.pins.alertN && !high && s.flag F.mgtStat_i3c
  { s with pins := { s.pins with alertN := high }, mgt := { s.mgt with ibi := s.mgt.ibi + (if ibi then 1 else 0) } }

/-- An event waits for its acknowledgement as a PLDM event. -/
def noteEvent (f : Fld) (s : State) : State :=
  match alertClass f with
  | some e => settleAlert (if e ∈ s.mgt.events then s else { s with mgt := { s.mgt with events := s.mgt.events ++ [e] } })
  | none => s

/-- Hardware sets an event bit; one message is sent when an enabled bit goes from 0 to 1 (02 R110). -/
def raise (f : Fld) (s : State) : State :=
  if s.flag f then s else
  let s := noteEvent f (s.set f 1)
  match evtRegs f.reg with
  | some (en, a, d) =>
    if natBit (s.get en) f.lo then sendMsi 0 (s.reg a 0).toNat (s.reg d 0).toNat s else s
  | none => s

/-- A state sensor's event to the named receiver of platform events, on a change (20 R655). -/
def stateEvent (sensor old new : Nat) (s : State) : State :=
  if old = new || s.mgt.receiver.isNone || !s.sec.firmware then s
  else { s with mgt := { s.mgt with
      replies := s.mgt.replies ++ [⟨1, 0x0A, 0, leBytes 2 sensor ++ [BitVec.ofNat 8 new, BitVec.ofNat 8 old]⟩] } }

/-- SEC_BOOT_STAT.state changes. -/
def bootGoto (st : Nat) (s : State) : State :=
  stateEvent 0x300 (s.get F.secBootStat_state) st (s.set F.secBootStat_state st)

/-- Debug is unlocked with a bit of the scope, which a later token in check or refused leaves as it is (19 R648, R649). -/
def dbgScope (i : Nat) (s : State) : Bool := natBit (s.get F.secDbgStat_scope) i

/-- A debugger is attached: debug is unlocked with scope bit 0 (19 R647). -/
def dbgAttached (s : State) : Bool := dbgScope 0 s

/-! ## Instructions under way -/

/-- Whether an instruction is under way that goes on where it stopped (03 R146, 04 R182, 06 R235). -/
def Wait.midway : Wait → Bool
  | .data | .elem | .rows _ _ _ => true
  | _ => false

/-! ## Error records in flight to the RAS block (18 R612) -/

/-- Thermal cone nearest a router (17 R582): the first index at least distance. -/
def nearestCone (xy : Nat × Nat) : Nat :=
  (nats 96 0 1).foldl (fun best i =>
    if hops xy (2 + 4 * (i % 12), 1 + 3 * (i / 12)) < hops xy (2 + 4 * (best % 12), 1 + 3 * (best / 12)) then i else best) 0

/-- The temp field of a record (18 R612): the DRAM reading of a memory unit, else the nearest cone. -/
def recTemp (s : State) (unit : Nat) : Nat :=
  let x := natBits unit 26 21
  let y := natBits unit 20 16
  let cls := unit / 2 ^ 28
  if cls = 2 then s.get F.conDram_temp (4 * natBits unit 27 27 + (x % 24 / 12 + 2 * (y / 12)))
  else if cls = 3 then s.get F.conDram_temp (8 + (if 24 ≤ x then 16 else 0) + (y - 2) / 6 * 4 + (x % 24 - 2) / 6)
  else s.get F.conTherm_temp (nearestCone (x, y))

/-- The mv field of a record: the core rail set point, or the input for a module unit (18 R612). -/
def recMv (s : State) (unit : Nat) : Nat :=
  if natBits unit 26 21 = 63 then s.get F.hrtVin_v_mv
  else if natBit unit 27 then s.get F.hrtVcore_die1_mv else s.get F.hrtVcore_die0_mv

/-- Writes an error record: it is in flight to the RAS block, which numbers it (18 R612). -/
def record (sev unit op : Nat) (details : List Byte) (s : State) : State :=
  { s with recs := s.recs ++ [⟨s.now, s.frame, sev, unit, op, recTemp s unit, recMv s unit, details⟩] }

/-! ## The address map (21 R667, 09 R326-R328, R340, R341) -/

/-- What a device address reaches. -/
inductive Region where
  | far
  | near
  | spad (k : Nat)
  | mmio
  | host
  | gap
deriving DecidableEq, Repr

/-- The region of an address (21 R667-R669). The upper half of a compute-core window is reached by no agent. -/
def regionOf (a : Nat) : Region :=
  if a < 0x0168_0000_0000 then .far
  else if 0x0200_0000_0000 ≤ a ∧ a < 0x0209_0000_0000 then .near
  else if 0x0280_0000_0000 ≤ a ∧ a < 0x0289_0000_0000 then .near
  else if 0x0300_0000_0000 ≤ a ∧ a < 0x0300_9080_0000 then
    let k := (a - 0x0300_0000_0000) / 0x20_0000
    if k < 1152 ∧ 0x10_0000 ≤ (a - 0x0300_0000_0000) % 0x20_0000 then .gap else .spad k
  else if 0x03F0_0000_0000 ≤ a ∧ a < 0x03F0_0400_0000 then .mmio
  else if 0x1000_0000_0000 ≤ a ∧ a < 2 ^ 48 then .host
  else .gap

/-- The sliced address of a near-memory address (09 R328); other addresses are their own. -/
def sliced (a : Nat) : Nat :=
  if 0x0280_0000_0000 ≤ a ∧ a < 0x0289_0000_0000 then
    let o := a - 0x0280_0000_0000
    let f := o / 0x8000_0000
    let r := o % 0x8000_0000
    let gi := r / 4096
    let li := gi % 64
    let x := 8 * (f % 6) + li % 8
    let y := 8 * (f / 6) + li / 8
    0x0200_0000_0000 + (y * 48 + x) * 0x200_0000 + gi / 64 * 4096 + r % 4096
  else a

/-- The slice of a near-memory address (09 R327). -/
def sliceOf (a : Nat) : Nat := (sliced a - 0x0200_0000_0000) / 0x200_0000

/-- XOR of the 5-bit pieces of G (09 R341). -/
def portHash (G : Nat) : Nat :=
  (G % 32) ^^^ (G / 32 % 32) ^^^ (G / 1024 % 32) ^^^ (G / 32768 % 32) ^^^ (G / 2 ^ 20 % 32) ^^^ (G / 2 ^ 25 % 32)
    ^^^ (G / 2 ^ 30 % 8)

/-- Port and local offset of a far-memory address (09 R340, R341). -/
def farPlace (s : State) (a : Nat) : Nat × Nat :=
  let L := s.get F.fmcMap_local_gib
  let H := 32 * (45 - L) * 2 ^ 30
  if a < H then (portHash (a / 256), a / 256 / 32 * 256 + a % 256)
  else ((a - H) / (L * 2 ^ 30), (45 - L) * 2 ^ 30 + (a - H) % (L * 2 ^ 30))

/-- Subchannel, bank, row and raw line of a port-local offset (09 R343). -/
def farRow (loc : Nat) : Nat × Nat × Nat × Nat :=
  let n := loc / 64
  let G := n / 15
  (G % 2, G / 2 % 16, G / 256, 16 * G + n % 15)

/-- Bytes of the granule that carries one code (08 R297, 09 R332, R343). -/
def granule (a : Nat) : Nat :=
  match regionOf a with
  | .far => 64
  | .near => 32
  | _ => 8

/-- The home that serves an address (09 R327, R341, 08 R302). -/
def homeOf (s : State) (a : Nat) : Home :=
  match regionOf a with
  | .far => .far (farPlace s a).1
  | .near => .near (sliceOf a)
  | .spad k => .spad k
  | _ => .host 0

/-! ## Memory bytes -/

/-- What an address not listed reads as: the fill's zero (09 R355). -/
def memDefault : Byte := 0

/-- A byte written, keeping the list rising and free of default bytes. -/
def memPut (m : List Host.Cell) (a : Nat) (v : Byte) : List Host.Cell :=
  match m with
  | [] => if v = memDefault then [] else [(a, v)]
  | (b, w) :: t =>
    if a < b then (if v = memDefault then (b, w) :: t else (a, v) :: (b, w) :: t)
    else if a = b then (if v = memDefault then t else (a, v) :: t)
    else (b, w) :: memPut t a v

/-- The canonical form: addresses strictly rising, no default byte. -/
def memWf : List Host.Cell → Bool
  | [] => true
  | [(_, v)] => v != memDefault
  | (a, v) :: (b, w) :: t => v != memDefault && decide (a < b) && memWf ((b, w) :: t)

/-- Bytes lo .. hi - 1 become the default again. -/
def memClear (m : List Host.Cell) (lo hi : Nat) : List Host.Cell := m.filter (fun p => p.1 < lo || hi ≤ p.1)

/-- A byte of memory as its home would deliver it, were it good. -/
def State.byte (s : State) (a : Nat) : Byte :=
  let a := sliced a
  match s.mem.find? (fun p => p.1 == a) with
  | some p => p.2
  | none =>
    match regionOf a with
    | .spad k =>
      match s.undef.find? (fun u => u.has k (a % 0x20_0000)) with
      | some u => if a ∈ s.zeroed then 0 else Config.undefByte u.n (a % 0x20_0000)
      | none => memDefault
    | _ => memDefault

/-- A byte of memory replaced. -/
def State.putByte (s : State) (a : Nat) (v : Byte) : State :=
  let a := sliced a
  let s := { s with mem := memPut s.mem a v }
  match regionOf a with
  | .spad k => if s.undef.any (fun u => u.has k (a % 0x20_0000)) ∧ v = 0 then { s with zeroed := a :: s.zeroed } else s
  | _ => s

/-- `n` bytes from an address. -/
def State.bytes (s : State) (a n : Nat) : List Byte := (nats n a 1).map s.byte

/-- Bytes stored from an address. -/
def State.putBytes (s : State) (a : Nat) (bs : List Byte) : State :=
  match bs with
  | [] => s
  | b :: t => (s.putByte a b).putBytes (a + 1) t

/-! ## Memory through its code (08 R297-R299, 09 R332, R333, R343, R345, R357, R358) -/

/-- The bases of the granules that n bytes from a touch, in the canonical address. -/
def granules (a n : Nat) : List Nat :=
  let a := sliced a
  let g := granule a
  if n = 0 then [] else nats ((a + n - 1) / g - a / g + 1) (a / g * g) g

/-- The unit of a granule's memory and the details its record carries (09 R358, 08 R298, 19 R626). -/
def granuleUnit (s : State) (g : Nat) : Nat × List Byte :=
  match regionOf g with
  | .near =>
    let o := (g - 0x0200_0000_0000) % 0x200_0000
    (unitId 2 (coreXY (sliceOf g)) (o / 2048 % 16), leBytes 8 g)
  | .far =>
    let pl := farPlace s g
    let (sub, bank, row, raw) := farRow pl.2
    (unitId 3 (portXY pl.1) ((if sub = 0 then 0x1000 else 0x2000) + bank),
      leBytes 8 g ++ leBytes 4 (pl.2 / 64) ++ leBytes 4 raw ++ leBytes 4 row)
  | .spad k =>
    if isService k then (unitId 9 (coreXY k) 5, leBytes 8 (g % 0x20_0000))
    else (unitId 1 (coreXY k) (g % 0x20_0000 / 128 % 16), leBytes 8 g)
  | _ => (0, [])

/-- The error counter a granule's event counts in: corrected or not (09 R337, R354). -/
def countEcc (s : State) (g : Nat) (ue : Bool) : State :=
  match regionOf g with
  | .near => s.bump (if ue then F.nmcErrcnt_ue else F.nmcErrcnt_ce) (sliceOf g)
  | .far => s.bump (if ue then F.fmcErrcnt_ue else F.fmcErrcnt_ce) (farPlace s g).1
  | _ => s

/-- One record and one count for a granule (09 R358). -/
def eccRecord (sev op g req : Nat) (s : State) : State :=
  let (u, d) := granuleUnit s g
  countEcc (record sev u op (d ++ leBytes 4 req) s) g (sev == 2)

/-- What the code finds in granule g, where it is not known bad already. -/
def eccAt (ue : Bool) (g req : Nat) (s : State) : State :=
  if g ∈ s.bad then s else if ue then { s with bad := s.bad ++ [g] } else eccRecord 1 1 g req s

/-- What the access finds beside the granules already known bad (log entry 6). -/
def eccFind (e : Ecc) (gs : List Nat) (req : Nat) (s : State) : State :=
  match e, gs with
  | .corrected, g :: _ => eccAt false g req s
  | .uncorrectable, g :: _ => eccAt true g req s
  | .each l, _ => l.foldl (fun s p => match gs[p.1]? with | some g => eccAt p.2 g req s | none => s) s
  | _, _ => s

/-- Whether a port has failed (09 R352). -/
def portFailed (s : State) (p : Nat) : Bool := natBit (s.get F.fmcFailed_ports) p

/-- Reads n bytes at their home: nothing when a granule is uncorrectable or its port has failed. -/
def memRead (a n : Nat) (e : Ecc) (req : Nat) (s : State) : State × Option (List Byte) :=
  let gs := granules a n
  let s := eccFind e gs req s
  let dead := match homeOf s a with | .far p => portFailed s p | _ => false
  let badGs := gs.filter (· ∈ s.bad)
  let s := badGs.foldl (fun s g => eccRecord 2 3 g req s) s
  (s, if dead || !badGs.isEmpty then none else some (s.bytes a n))

/-- The granules that a store of n bytes at a covers only in part. -/
def partGranules (a n : Nat) : List Nat :=
  (granules a n).filter (fun g => g < sliced a || sliced a + n < g + granule (sliced a))

/-- Stores bytes at their home: narrower than a granule they are merged, and nothing is stored when such a granule
is uncorrectable; a granule covered whole becomes good (08 R299, 09 R333). -/
def memWrite (a : Nat) (bs : List Byte) (e : Ecc) (req : Nat) (s : State) : State × Bool :=
  let gs := granules a bs.length
  let part := partGranules a bs.length
  let s := eccFind e part req s
  let badGs := part.filter (· ∈ s.bad)
  let dead := match homeOf s a with | .far p => portFailed s p | _ => false
  if dead then (record 2 (unitId 3 (portXY (farPlace s a).1) 0) 4 (leBytes 8 a ++ leBytes 4 req) s, true)
  else if badGs.isEmpty then
    ({ s.putBytes a bs with bad := s.bad.filter (· ∉ gs) }, true)
  else (badGs.foldl (fun s g => eccRecord 2 4 g req s) s, false)

end Sys2Proof.Machine
end

