-- ==== Sys2Proof/Machine/CoreBase.lean ====
section
/-! DEFINITION. The scalar registers, segments, handle copy and performance counters of a core (03 R113, R133, R134,
08 R305, R307, 20 R661-R663). -/

namespace Sys2Proof.Machine

/-! ## Registers -/

/-- g[r] as an instruction reads it: g0 is 0 (03 R113), and the load delay slot reads the old value (03 R130, R132). -/
def Scalar.gr (k : Scalar) (r : Nat) : Word64 :=
  if r = 0 then 0 else
  match k.shadow with
  | some sh => if sh.reg.toNat = r then sh.old else mget k.g r 0
  | none => mget k.g r 0

/-- g[r] written; a write to g0 is discarded (03 R113). A later write to a divide's register stands (03 R130). -/
def Scalar.setG (k : Scalar) (r : Nat) (v : Word64) : Scalar :=
  if r = 0 then k else
  { k with g := mput k.g r v, divide := k.divide.map (fun d => if d.rd.toNat = r then { d with rd := 0 } else d) }

/-! ## Segments (03 R133, R134) -/

/-- A failed check: cause code and info. -/
structure Fail where
  code : Nat
  info : Nat := 0
deriving DecidableEq, Repr

/-- Segment register i. -/
def Scalar.sgm (k : Scalar) (i : Nat) : Seg := mget k.seg i {}

/-- The checks of an access of n bytes at offset o through segment i, in order (03 R134, 04 R169). -/
def checkSeg (k : Scalar) (i o n align : Nat) (write : Bool) : Option Fail :=
  let g := k.sgm i
  let info := i + (if write then 16 else 0)
  if (if write then !g.w else !g.r) then some ⟨4, info⟩
  else if g.limit.toNat < o + n then some ⟨3, info⟩
  else if (g.base.toNat + o) % align ≠ 0 then some ⟨5, info⟩
  else none

/-- The device address of offset o in segment i. -/
def segAddr (k : Scalar) (i o : Nat) : Nat := (k.sgm i).base.toNat + o

/-! ## The handle-table copy (08 R305, R307) -/

/-- An entry of the core's copy, if it is valid. -/
def handleEntry (k : Core) (h : Nat) : Option (Word64 × Word64) :=
  let e := mget k.htab h (0, 0)
  if e.1.toNat / 2 ^ 63 = 1 then some e else none

/-- An entry of the core's copy whose parity is wrong is fetched again from the KLN block (08 R309). -/
def refetchHandle (c h : Nat) (s : State) : State :=
  let i := 64 * (s.core c).sc.ctx.toNat + h
  s.updCore c (fun k => { k with htab := mput k.htab h (s.reg .klnHtabW0 i, s.reg .klnHtabW1 i) })

/-- Entry h of the copy is read, with a parity error or without one. -/
def readHandle (c h : Nat) (parity : Bool) (s : State) : State := if parity && decide (h < 64) then refetchHandle c h s else s

/-- The code segment an entry names, if valid with execute permission. -/
def handleCode (k : Core) (h : Nat) : Option CodeSeg :=
  match handleEntry k h with
  | some e => if natBit e.1.toNat 57 then
      some ⟨BitVec.ofNat 7 h, BitVec.ofNat 48 e.1.toNat, BitVec.ofNat 48 e.2.toNat, true,
        BitVec.ofNat 2 (natBits e.1.toNat 59 58), natBit e.1.toNat 55⟩ else none
  | none => none

/-! ## Performance counters (20 R661-R663) -/

/-- A counter of event `evt` counts `n` more: it wraps to 0, sets ovf and, with oie, the pending bit (20 R663). -/
def pctrAdd (v : Word64) (n : Nat) : Word64 × Bool :=
  let cnt := natBits v.toNat 47 0 + n
  if cnt < 2 ^ 48 then (BitVec.ofNat 64 (natSetBits v.toNat 47 0 cnt), false)
  else (BitVec.ofNat 64 (natSetBits (natSetBits v.toNat 47 0 cnt) 62 62 1), natBit v.toNat 61)

/-- Counts an event at a core in every enabled counter that selects it. -/
def pctrScalar (evt n : Nat) (k : Scalar) : Scalar :=
  k.pctr.foldl (fun k p =>
    if natBit p.2.toNat 63 ∧ natBits p.2.toNat 55 48 = evt then
      let (v, irq) := pctrAdd p.2 n
      { k with pctr := mput k.pctr p.1 v, ip := if irq then k.ip ||| 4 else k.ip }
    else k) k

end Sys2Proof.Machine
end

