-- ==== Sys2Proof/Machine/Net.lean ====
section
/-! DEFINITION. Sending on the mesh: routes, link monitors, descriptors, messages, performance counters (10, 20 R661). -/

namespace Sys2Proof.Machine

/-! ## Performance counters (20 R662) -/

/-- Counts `n` events `evt` at core c; a service core counts no event 0x08-0x0B or 0x0F (20 R662). -/
def pctrEvent (c evt n : Nat) (s : State) : State :=
  if isService c ∧ (8 ≤ evt ∧ evt ≤ 0xB ∨ evt = 0xF) then s
  else if (s.core c).sc.pctr = [] then s else s.updSc c (pctrScalar evt n)

/-! ## Routes and link monitors (10 R366, R387) -/

/-- Whether the output link `dir` (0 -x, 1 +x, 2 -y, 3 +y) of router (x, y) lies on the X-then-Y route from a to b. -/
def onRoute (a b : Nat × Nat) (x y dir : Nat) : Bool :=
  match dir with
  | 0 => decide (y = a.2 ∧ b.1 < x ∧ x ≤ a.1)
  | 1 => decide (y = a.2 ∧ a.1 ≤ x ∧ x < b.1)
  | 2 => decide (x = b.1 ∧ b.2 < y ∧ y ≤ a.2)
  | _ => decide (x = b.1 ∧ a.2 ≤ y ∧ y < b.2)

/-- The router the next link of the route from a to b leads to. -/
def nextHop (a b : Nat × Nat) : Nat × Nat :=
  if a.1 < b.1 then (a.1 + 1, a.2) else if b.1 < a.1 then (a.1 - 1, a.2)
  else if a.2 < b.2 then (a.1, a.2 + 1) else (a.1, a.2 - 1)

/-- Flits of a packet of `n` payload bytes: the first carries `first` (10 R362). -/
def flits (n first : Nat) : Nat := if n ≤ first then 1 else 1 + (n - first + 127) / 128

/-- Whether monitor k watches network `vn` on a link that `on` selects by router and direction. -/
def monitored (s : State) (on : Nat → Nat → Nat → Bool) (vn k : Nat) : Bool :=
  s.flag F.mshMonSel_en k && natBit (s.get F.mshMonSel_vn k) vn &&
  on (s.get F.mshMonSel_x k) (s.get F.mshMonSel_y k) (s.get F.mshMonSel_dir k)

/-- The monitors count the `n` flits of a packet on network `vn` (0 request, 1 response, 2 message, 3 combine) that each
link of `on` carries once (10 R387). -/
def meterOn (on : Nat → Nat → Nat → Bool) (vn n : Nat) (s : State) : State :=
  (nats 8 0 1).foldl (fun s k => if monitored s on vn k then s.bumpWrap F.mshMonFlits_flits k n else s) s

/-- A packet from one router to another. -/
def meter (a b : Nat × Nat) (vn n : Nat) (s : State) : State := meterOn (onRoute a b) vn n s

/-- The links of the tree of a multicast: those of the routes to its targets, each once (10 R372). -/
def onTree (a : Nat × Nat) (ts : List (Nat × Nat)) (x y dir : Nat) : Bool := ts.any (fun t => onRoute a t x y dir)

/-- Traffic whose division into packets the spec leaves open: the monitors of its links count an open number of flits
(log entry 14). -/
def meterOpen (on : Nat → Nat → Nat → Bool) (vn : Nat) (s : State) : State :=
  (nats 8 0 1).foldl (fun s k =>
    if monitored s on vn k then
      { s with freeCount := s.freeCount + 1 }.bumpWrap F.mshMonFlits_flits k (Config.freeWord s.freeCount).toNat
    else s) s

/-- An engine or a bundle at router a and a home at router b: requests one way, answers the other (10 R363). A unit of the
module has no router (00 R21): its traffic counts an open number on every link. -/
def meterEngine (a b : Nat × Nat) (s : State) : State :=
  if a.1 = 63 then meterOpen (fun _ _ _ => true) 1 (meterOpen (fun _ _ _ => true) 0 s)
  else meterOpen (onRoute b a) 1 (meterOpen (onRoute a b) 0 s)

/-- The router of the unit that holds the register at an MMIO offset, where the spec places it: the Kiln and the doorbells
(01 R677), a far port (01 R46), a slice (09 R327), the mirror engine (01 R677), the security block (19 R625), a core's debug
window (19 R645). -/
def regXY (off : Nat) : Option (Nat × Nat) :=
  if 0x10_0000 ≤ off ∧ off < 0x40_0000 then some (23, 11)
  else if 0x100_0000 ≤ off ∧ off < 0x120_0000 then some (portXY ((off - 0x100_0000) / 0x1_0000))
  else if 0x141_0000 ≤ off ∧ off < 0x141_0000 + 0x100 * 1152 then some (coreXY ((off - 0x141_0000) / 0x100))
  else if 0x1D0_0000 ≤ off ∧ off < 0x1E0_0000 then some (35, 4)
  else if 0x210_0000 ≤ off ∧ off < 0x220_0000 then some (0, 0)
  else if 0x300_0000 ≤ off ∧ off < 0x300_0000 + 0x1000 * 1156 then some (coreXY ((off - 0x300_0000) / 0x1000))
  else none

/-- An access from a bundle at router a to the register at an offset: a request one way, an answer to a read the other. A
block that the spec does not place counts an open number on every link (log entry 14). -/
def meterRegs (a : Nat × Nat) (off : Nat) (read : Bool) (s : State) : State :=
  match regXY off with
  | some b => let s := meter a b 0 1 s; if read then meter b a 1 1 s else s
  | none =>
    let s := meterOpen (fun _ _ _ => true) 0 s
    if read then meterOpen (fun _ _ _ => true) 1 s else s

/-- The router of a unit identifier (00 R20). -/
def unitXY (u : Nat) : Nat × Nat := (natBits u 26 21, natBits u 20 16)

/-- A core's packet enters the mesh for some targets: monitors and the injection counter (20 R662, event 0x0E). -/
def injectTree (c : Nat) (ts : List (Nat × Nat)) (vn n : Nat) (s : State) : State :=
  pctrEvent c 0xE 1 (meterOn (onTree (coreXY c) ts) vn n s)

/-- A core's packet enters the mesh for one target. -/
def inject (c : Nat) (dst : Nat × Nat) (vn n : Nat) (s : State) : State :=
  pctrEvent c 0xE 1 (meter (coreXY c) dst vn n s)

/-- What the checks find of a packet (10 R385): counts, event bits and record, and whether it is poisoned. -/
def transit (t : Transit) (s : State) : State × Bool :=
  match t with
  | .clean => (s, false)
  | .corrected r sub =>
    (record 1 (unitId 4 (coreXY r) sub.toNat) 1 [] (raise F.mshEvtStat_link_ce (s.bump F.mshErrcnt_ce)), false)
  | .poisoned r sub =>
    (record 2 (unitId 4 (coreXY r) sub.toNat) 3 [] (raise F.mshEvtStat_link_ue (s.bump F.mshErrcnt_ue)), true)

/-- The same of the two packets of the next access of a command: whether the request is poisoned, and the answer. -/
def roundTrip (m : List RoundTrip) (s : State) : State × Bool × Bool :=
  let t := m.headD {}
  let a := transit t.out s
  let b := transit t.back a.1
  (b.1, a.2, b.2)

/-- The 256-byte blocks that n bytes from a meet, each an access of its own (09 R327, R341). -/
def blocksOf (a n : Nat) : Nat := if n = 0 then 0 else (a + n - 1) / 256 - a / 256 + 1

/-- The payload bytes of a message packet (10 R362). -/
def MsgKind.size : MsgKind → Nat
  | .message _ _ _ bytes _ => bytes.length
  | .datagram _ _ p _ => p.length + 8
  | _ => 8

/-- A core sends a message. -/
def sendMsg (src dst : Nat) (k : MsgKind) (s : State) : State :=
  inject src (coreXY dst) 2 (flits k.size 112) { s with msgs := s.msgs ++ [⟨src, dst, k⟩] }

/-- The oldest message from src to dst, taken off the mesh (10 R367). -/
def takeMsg (src dst : Nat) (s : State) : Option (MsgKind × State) :=
  match takeFirst (fun m => m.src == src && m.dst == dst) s.msgs with
  | some (m, rest) => some (m.kind, { s with msgs := rest })
  | none => none

/-- The oldest message from src to stop d, taken off the mesh, with what the checks found of it (10 R385). A poisoned packet
that carries no payload still acts by its fields (log entry 56). -/
def arrive {n : Nat} (src : Nat) (d : Hop n) (s : State) : Option (MsgKind × State) :=
  (takeMsg src d.stop s).map (fun p => (p.1, (transit d.mesh p.2).1))

/-- The home's router. -/
def homeXY : Home → Nat × Nat
  | .spad k => coreXY k
  | .near n => coreXY n
  | .far p => portXY p
  | .host b => bundleXY .vcl b

/-- A core sends a memory request to its home (10 R363). -/
def sendReq (r : Req) (s : State) : State :=
  inject r.src (homeXY r.home) 0 (flits r.data.length 112) { s with reqs := s.reqs ++ [r] }

/-- The places of what a home has sent a core and is still on its way, responses and acknowledgements. -/
def placesOf (s : State) (h : Home) (c : Nat) : List Nat :=
  (s.resps.filter (fun r => r.dst == c && r.home == h)).map (·.place) ++
  (s.acks.filter (fun x => x.core == c && x.home == h)).map (·.place)

/-- The place of the next: behind them all (10 R367). -/
def nextPlace (s : State) (h : Home) (c : Nat) : Nat := (placesOf s h c).foldl (fun m p => max m (p + 1)) 0

/-- A home returns a response on the response network (10 R363). -/
def sendResp (h : Home) (r : Resp) (s : State) : State :=
  meter (homeXY h) (coreXY r.dst) 1 (flits r.data.length 112)
    { s with resps := s.resps ++ [{ r with home := h, place := nextPlace s h r.dst }] }

/-- An acknowledgement of a posted write, or of a write-back of line `line` (08 R303, R678). -/
def sendAck (h : Home) (c : Nat) (ok : Bool) (s : State) (line : Option Nat := none) : State :=
  meter (homeXY h) (coreXY c) 1 1 { s with acks := s.acks ++ [⟨c, ok, h, line, nextPlace s h c⟩] }

/-- Whether a response for core c may arrive now: nothing of its home to that core is ahead of it (10 R367). -/
def respHere (s : State) (c : Nat) (r : Resp) : Bool := r.dst == c && (placesOf s r.home c).all (fun p => decide (r.place ≤ p))

/-- Whether an acknowledgement for core c may arrive now. -/
def ackHere (s : State) (c : Nat) (x : Ack) : Bool := x.core == c && (placesOf s x.home c).all (fun p => decide (x.place ≤ p))

/-! ## Sync operations on the mesh (12 R442, R450) -/

/-- The router of the unit of object p. -/
def syncXY (p : Nat) : Nat × Nat := (3 + 6 * (p / 256 % 8), 11 + p / 256 / 8)

/-- The router of an agent: a core, or the engine of queue n as 1,156 + n (01 R677). -/
def agentXY (a : Nat) : Nat × Nat := if a < 1156 then coreXY a else unitXY (engineUnit ((a - 1156) / 16))

/-- An operation sent to its unit. -/
def sendSync (o : SyncOp) (s : State) : State :=
  let s := { s with syncOps := s.syncOps ++ [o] }
  if o.agent < 1156 then inject o.agent (syncXY o.obj) 2 1 s else meter (agentXY o.agent) (syncXY o.obj) 2 1 s

/-! ## Target descriptors (10 R370, R371) -/

/-- A valid descriptor. -/
def descOk (d : Nat) : Bool :=
  decide (natBits d 63 40 = 0 ∧ natBits d 5 0 ≤ natBits d 11 6 ∧ natBits d 16 12 ≤ natBits d 21 17 ∧
    natBits d 11 6 ≤ 47 ∧ natBits d 21 17 ≤ 23)

/-- Whether a descriptor selects core c. -/
def descHas (d c : Nat) : Bool :=
  decide (natBits d 5 0 ≤ c % 48 ∧ c % 48 ≤ natBits d 11 6 ∧ natBits d 16 12 ≤ c / 48 ∧ c / 48 ≤ natBits d 21 17) &&
  natBit (natBits d 39 22) (fieldOf c)

/-- The cores a descriptor selects. -/
def descCores (d : Nat) : List Nat := (nats 1152 0 1).filter (descHas d)

/-- A refused descriptor is counted and flagged (10 R371, R376, R386). -/
def refuseDesc (s : State) : State := raise F.mshEvtStat_refused (s.bump F.mshDropCnt_refused)

/-- Whether a core runs a kernel of context x (10 R373, 11 R402). -/
def runsCtx (s : State) (c : Nat) (x : BitVec 4) : Bool :=
  let k := s.core c
  decide (c < 1152) && k.run == .running && k.kernel.isSome && k.sc.ctx == x

end Sys2Proof.Machine
end

