-- ==== Sys2Proof/Machine/Memory.lean ====
section
/-! DEFINITION. Memory at its homes: the firmware reserve, mirrored stores, and the requests that cores send to a
scratchpad, a near-memory controller or a far port (08 R302, R303, 09 R331-R345, R357, 12 R439, 16 R533, R541,
19 R626, R627). -/

namespace Sys2Proof.Machine

/-! ## The firmware reserve (19 R627) -/

/-- Whether an address lies in the firmware reserve. -/
def inReserve (a : Nat) : Bool :=
  match regionOf a with
  | .near => decide (sliceOf a ∈ [0, 47, 1104, 1151]) && decide (0x1F0_0000 ≤ sliced a % 0x200_0000)
  | _ => false

/-! ## What a store into mirrored memory does (16 R533, R541, R543) -/

/-- Whether an address lies in an enabled mirrored region; near regions are matched by the sliced address. -/
def mirrored (s : State) (a : Nat) : Bool :=
  let a := sliced a
  !inReserve a && (nats 16 0 1).any (fun r => s.flag F.mirRegionBase_en r &&
    decide (s.get F.mirRegionBase_base r * 4096 ≤ a ∧
      a < s.get F.mirRegionBase_base r * 4096 + s.get F.mirRegionLen_len r * 4096))

/-- The mirror bundles in use, ascending. -/
def mirBundles (s : State) : List Nat := (nats 3 0 1).filter (usable s .mir)

/-- The bundle of an address's 256-byte range (16 R532). -/
def mirBundleOf (s : State) (a : Nat) : Option Nat := (mirBundles s)[a / 256 % (mirBundles s).length]?

/-- Epochs that the primary has ended: the number of the current one (16 R534). -/
def epochNow (s : State) : Nat := s.mirror.gone + s.mirror.closing.length

/-- Epochs whose markers have left on bundle b. -/
def epochsMarked (s : State) (b : Nat) : Nat := max (mget s.mirror.marked b 0) s.mirror.gone

/-- An MFWD goes to the bundle of its range, where it is sent behind the markers of the epochs before its own, and behind
what waits of that range (16 R531, R532, R534). -/
def queueMfwd (x : Behind) (s : State) : State :=
  match mirBundleOf s x.addr with
  | none => s
  | some b =>
    let m := s.mirror
    if epochsMarked s b < x.epoch ∨ m.behind.any (fun y => y.marker.isNone && y.addr / 256 == x.addr / 256) then
      { s with mirror := { m with behind := m.behind ++ [x] } }
    else
      let s := sendOn .mir b { kind := .mfwd, tag := x.kind, addr := x.addr, data := x.data, poison := x.poison,
                               slots := 1 + (x.data.length + 15) / 16 } s
      { s with mirror := { s.mirror with sent := mput s.mirror.sent b (mget s.mirror.sent b 0 + 1) } }

/-- Sends an MFWD of the current epoch. -/
def sendMfwd (kind a : Nat) (bytes : List Byte) (poison : Bool) (s : State) : State :=
  queueMfwd { epoch := epochNow s, kind := kind, addr := a, data := bytes, poison := poison } s

/-- The home and 64 KiB granule of an address (16 R541). -/
def mirGranule (s : State) (a : Nat) : Nat × Nat :=
  match homeOf s a with
  | .near n => (n, sliced a % 0x200_0000 / 65536)
  | .far p => (1152 + p, (farPlace s a).2 / 65536)
  | _ => (0, 0)

/-- A forward crosses the mesh from its home to its mirror bundle. -/
def meterForward (a : Nat) (s : State) : State :=
  match mirBundleOf s (sliced a) with
  | some b => meterOpen (onRoute (homeXY (homeOf s a)) (bundleXY .mir b)) 0 s
  | none => s

/-- A store the home has made at a: forwarded once epoch traffic has started (R529), or its granule marked dirty, in states
3 and 4. A store into a dirty granule not yet shipped breaks the cut of a running SNAPSHOT. -/
def afterStore (a n : Nat) (poison : Bool) (s : State) : State :=
  let st := s.get F.mirStat_state
  if (st = 3 ∨ st = 4) ∧ mirrored s a = true then
    if s.get F.mirCtl_mode = 0 then
      if !s.mirror.epochs then s else
      let g := granule a
      let lo := a / g * g
      let hi := (a + n + g - 1) / g * g
      sendMfwd 0 (sliced lo) (s.bytes lo (hi - lo)) poison (meterForward a s)
    else
      let m := s.mirror
      let q := mirGranule s a
      let brk := m.snap.any (fun x => decide (q ∈ x.todo))
      let s := if brk then raise F.mirEvtStat_snap_overlap s else s
      { s with mirror := { m with
          dirty := if q ∈ m.dirty then m.dirty else m.dirty ++ [q]
          snap := m.snap.map (fun x => { x with broken := x.broken || brk }) } }
  else s

/-! ## Loads and stores as the home serves them -/

/-- Whether the far port of an address has failed (09 R352). -/
def homeDead (s : State) (a : Nat) : Bool :=
  match homeOf s a with | .far p => portFailed s p | _ => false

/-- A read at its home: reserve bytes read as zeros to those not trusted. `none` when uncorrectable. -/
def homeLoad (a n : Nat) (e : Ecc) (req : Nat) (trusted : Bool) (s : State) : State × Option (List Byte) :=
  if inReserve a && !trusted then (raise F.secEvtStat_reserve s, some (List.replicate n 0)) else memRead a n e req s

/-- A store that leaves its target reading as uncorrectable: what lies under 8-byte words `words` of it (08 R318,
10 R385). -/
def storeBad (a : Nat) (words : List Nat) (s : State) : State :=
  let gs := words.map (fun w => sliced (a + 8 * w) / granule (a + 8 * w) * granule (a + 8 * w))
  { s with bad := s.bad ++ (gs.filter (· ∉ s.bad)).dedup }

/-- A store at its home, words `words` of it as uncorrectable: `false` when its read-modify-write met an uncorrectable
granule. -/
def homeStoreWords (a : Nat) (bs : List Byte) (words : List Nat) (e : Ecc) (req : Nat) (trusted : Bool) (s : State) :
    State × Bool :=
  if inReserve a && !trusted then (raise F.secEvtStat_reserve s, true)
  else
    let r := memWrite a bs e req s
    if r.2 && !homeDead s a then (afterStore a bs.length (!words.isEmpty) (storeBad a words r.1), true) else r

/-- A store at its home. -/
def homeStore (a : Nat) (bs : List Byte) (e : Ecc) (req : Nat) (trusted : Bool) (s : State) : State × Bool :=
  homeStoreWords a bs [] e req trusted s

/-- A posted write that carries poison: its target reads as uncorrectable, with a record (10 R385, 15 R516). -/
def poisonStore (a : Nat) (bs : List Byte) (req : Nat) (trusted : Bool) (s : State) : State :=
  let gs := granules a bs.length
  let s := (homeStoreWords a bs (nats ((bs.length + 7) / 8) 0 1) .clean req trusted { s with bad := s.bad.filter (· ∉ gs) }).1
  if inReserve a && !trusted then s
  else gs.foldl (fun s g => eccRecord 2 4 g req s) { s with bad := s.bad ++ gs.filter (· ∉ s.bad) }

/-- Whether a home serves a request to address a now: its memory's fill has ended (09 R355); the bank is not held for a
repair (09 R336, R351); no retrain slice holds the channel's bus (09 R348), and the channel is not in self refresh
(17 R571). -/
def homeServes (s : State) (h : Home) (a : Nat) : Bool :=
  match h with
  | .spad _ => s.hearth.onDieFilled
  | .near n => s.hearth.nearFilled &&
      !(s.flag F.nmcStat_repairing n && s.get F.nmcRepair_bank n == (sliced a - 0x0200_0000_0000) % 0x200_0000 / 2048 % 16)
  | .far p =>
    let r := farRow (farPlace s a).2
    decide (3 ≤ s.get F.fmcStat_state p) && !s.upkeep.selfRefresh && !(mget s.upkeep.cal p {}).running &&
    !(decide (p ∈ s.upkeep.holds) && s.get F.fmcRepair_sub p == r.1 && s.get F.fmcRepair_bank p == r.2.1)
  | .host _ => true

/-- Whether the homes of n bytes from a all serve a request now. -/
def rangeServes (s : State) (a n : Nat) : Bool :=
  (nats ((a + n + 63) / 64 - a / 64) (a / 64 * 64) 64).all (fun x => homeServes s (homeOf s x) x)

/-- The sender of a store: the agent, the unit, and whether the agent is told of an uncorrectable location. -/
structure Writer where
  agent : Nat
  unit : Nat
  told : Bool := false
deriving DecidableEq, Repr

/-- One block of a store at its home; it waits there while the home is held (09 R336, R348, R351, R355). `false` when its
read-modify-write met an uncorrectable granule, of which the writer is told (09 R333). -/
def storeBlock (w : Writer) (a : Nat) (bs : List Byte) (e : Ecc) (poison : Bool) (s : State) : State × Bool :=
  if !rangeServes s a bs.length then
    ({ s with upkeep := { s.upkeep with late := s.upkeep.late ++ [⟨w.agent, w.unit, w.told, a, bs, poison⟩] } }, true)
  else if poison then (poisonStore a bs w.unit false s, true)
  else homeStore a bs e w.unit false s

/-- Stores of a range in blocks that cross no 256-byte boundary, each at its own home (09 R327, R328, R341); `e` counts the
granules that they cover in part, and `m` says what the checks find of each block's packets (10 R385). -/
def storeRange (w : Writer) : Nat → Nat → List Byte → Ecc → List RoundTrip → State → State × Bool
  | 0, _, _, _, _, s => (s, true)
  | f + 1, a, bs, e, m, s =>
    if bs = [] then (s, true) else
    let k := 256 - a % 256
    let t := roundTrip m (meterEngine (unitXY w.unit) (homeXY (homeOf s a)) s)
    let r := storeBlock w a (bs.take k) e t.2.1 t.1
    let q := storeRange w f (a + k) (bs.drop k) (e.from (partGranules a (min k bs.length)).length) (m.drop 1) r.1
    (q.1, r.2 && q.2)

/-- A read of a range in blocks that cross no 256-byte boundary, each at its own home; `e` counts granules from the
range's first, and `m` says what the checks find of each block's packets. Nothing when a block cannot be read, or its
answer comes poisoned (10 R385). -/
def loadRange (req : Nat) : Nat → Nat → Nat → Ecc → List RoundTrip → State → State × Option (List Byte)
  | 0, _, _, _, _, s => (s, some [])
  | f + 1, a, n, e, m, s =>
    if n = 0 then (s, some []) else
    let k := min n (256 - a % 256)
    let t := roundTrip m (meterEngine (unitXY req) (homeXY (homeOf s a)) s)
    let r := if t.2.1 then (t.1, none) else homeLoad a k e req false t.1
    let q := loadRange req f (a + k) (n - k) (e.from (granules a k).length) (m.drop 1) r.1
    (q.1, match r.2, q.2 with | some x, some y => if t.2.2 then none else some (x ++ y) | _, _ => none)

/-- The new value of an atomic's location (12 R438): n bytes, old and operands as numbers. -/
def amoNew (fn n old b cmp : Nat) : Nat :=
  let w := 8 * n
  let lt := decide (BitVec.toInt (BitVec.ofNat w old) < BitVec.toInt (BitVec.ofNat w b))
  match fn with
  | 0 => (old + b) % 2 ^ w
  | 1 => b
  | 2 => if old = cmp then b else old
  | 3 => old &&& b
  | 4 => old ||| b
  | 5 => old ^^^ b
  | 6 => if lt then b else old
  | _ => if lt then old else b

/-- An atomic at its home (12 R439): the old value, or nothing when the location is uncorrectable. -/
def homeAmo (fn n a b cmp : Nat) (e : Ecc) (req : Nat) (trusted : Bool) (s : State) : State × Option (List Byte) :=
  match homeLoad a n e req trusted s with
  | (s, none) => (s, none)
  | (s, some bytes) =>
    ((homeStore a (leBytes n (amoNew fn n (ofLeBytes bytes) b cmp)) .clean req trusted s).1, some bytes)

/-! ## Serving a core's request -/

/-- The answer to a read or an atomic goes back on the response network; `u` is what the mesh makes of it, and a poisoned
one is uncorrectable to its requester (10 R385). -/
def answerReq (r : Req) (u : Transit) (q : State × Option (List Byte)) : State :=
  let v := transit u q.1
  match q.2 with
  | some bytes => sendResp r.home { dst := r.src, kind := r.kind, addr := r.addr, data := bytes, bad := v.2 } v.1
  | none => sendResp r.home { dst := r.src, kind := r.kind, addr := r.addr, data := [], bad := true } v.1

/-- Serves one request (09 R331, R333, R345, 08 R302, R303, R678): the answer goes back on the response network. A request
that came poisoned reads as uncorrectable, or writes its target so (10 R385). -/
def serve (r : Req) (e : Ecc) (poison : Bool) (u : Transit) (s : State) : State :=
  let req := coreUnit r.src 0
  match r.kind with
  | .fill | .fetch | .land _ | .read => answerReq r u (if poison then (s, none) else homeLoad r.addr r.n e req r.trusted s)
  | .write =>
    if poison then sendAck r.home r.src true (transit u (poisonStore r.addr r.data req r.trusted s)).1
    else
      match homeStore r.addr r.data e req r.trusted s with
      | (s, ok) => sendAck r.home r.src ok (transit u s).1
  | .writeBack words =>
    sendAck r.home r.src true (transit u (if poison then poisonStore r.addr r.data req r.trusted s
      else (homeStoreWords r.addr r.data words e req r.trusted s).1)).1 (some (r.addr / 64))
  | .amo fn b cmp => answerReq r u (if poison then (s, none) else homeAmo fn r.n r.addr b cmp e req r.trusted s)

/-- Whether a multicast write of a core to a home comes before its requests there (10 R367). -/
def mcFirst (h : Home) (src : Nat) (s : State) : Bool := s.mcs.any (fun m => m.src == src && h == .spad m.dst && m.after == 0)

/-- The multicast writes behind a request that has arrived are one nearer. -/
def reqTaken (h : Home) (src : Nat) (l : List McWrite) : List McWrite :=
  l.map (fun m => if m.src = src ∧ h = .spad m.dst then { m with after := m.after - 1 } else m)

/-- The oldest request of a core at a home is served, or waits there. `t` and `u` are what the mesh makes of it and of its
answer. -/
def serveFrom (h : Home) (src : Nat) (e : Ecc) (t u : Transit) (s : State) : State :=
  match takeFirst (fun r => r.src == src && r.home == h) s.reqs with
  | some (r, rest) =>
    if mcFirst h src s || !homeServes s h r.addr then s
    else
      let v := transit t { s with reqs := rest, mcs := reqTaken h src s.mcs }
      serve r e v.2 u v.1
  | none => s

def execScratchpadRemoteAccess (c src : CoreId) (r : HomeReport) (s : State) : Host.Outcome State Fault Refusal :=
  .next (serveFrom (.spad c) src r.ecc r.inbound r.answer s)
def execNearMemoryRequest (n : TileId) (src : CoreId) (r : HomeReport) (s : State) : Host.Outcome State Fault Refusal :=
  .next (serveFrom (.near n) src r.ecc r.inbound r.answer s)
def execFarMemoryRequest (p : PortId) (src : CoreId) (r : HomeReport) (s : State) : Host.Outcome State Fault Refusal :=
  .next (serveFrom (.far p) src r.ecc r.inbound r.answer s)

/-! ## Reads and writes of host memory by a core (15 R511, R512, R521) -/

/-- The I/O address of a host address. -/
def ioAddr (a : Nat) : Nat := a - 0x1000_0000_0000

/-- The lowest tag that no read in flight holds, if one is free. -/
def freeTag (s : State) : Option Nat := (nats 4096 0 1).find? (fun t => s.mrds.all (fun m => m.tag != t))

/-- The bundle at which traffic of a context for host memory leaves the mesh. -/
def hostBundle (s : State) (x : Nat) : Nat := (pickBundle s .vcl (ctxBundle s x)).getD 0

/-- The kind of a fill, of the instruction cache or the data cache. -/
def fillKind (fetch : Bool) : ReqKind := if fetch then .fetch else .fill

/-- A line is read from host memory under a tag of its own; while all 4,096 are in flight the read waits for one
(15 R511). -/
def sendMrd (m : Mrd) (s : State) : State :=
  match freeTag s with
  | none => { s with mrdWaits := s.mrdWaits ++ [m] }
  | some t => sendHost { kind := .mrd, ctx := (s.core m.core).sc.ctx.toNat, addr := ioAddr m.addr, tag := t, agent := m.core,
                         want := 64 } { s with mrds := s.mrds ++ [{ m with tag := t }] }

/-- A line fill from host memory: an MRD, or an error answer at once when no bundle is usable. -/
def hostFill (c : Nat) (fetch : Bool) (a : Nat) (s : State) : State :=
  let x := (s.core c).sc.ctx.toNat
  let b := hostBundle s x
  let s := inject c (bundleXY .vcl b) 0 1 s
  if (pickBundle s .vcl (ctxBundle s x)).isNone then
    sendResp (.host b) { dst := c, kind := fillKind fetch, addr := a, data := [], bad := true } s
  else sendMrd { tag := 0, core := c, addr := a, fetch := fetch } s

/-- Whether the companion link has a usable bundle (15 R521). -/
def linkUp (s : State) : Bool := (nats 3 0 1).any (usable s .vcl)

/-- A write-back to host memory: an MWR, poisoned when the line holds a bad word; the bundle accepts it (08 R678). Without a
bundle it is discarded, and the core's next release fails (15 R515, R521). -/
def hostWriteBack (c a : Nat) (bytes : List Byte) (poison : Bool) (s : State) : State :=
  let x := (s.core c).sc.ctx.toNat
  let b := hostBundle s x
  let t : Tx := { kind := .mwr, ctx := x, addr := ioAddr a, data := bytes, poison := poison, agent := c, slots := 5 }
  let s := if linkUp s then s else s.updCore c (fun k => { k with hostRefused := true })
  sendAck (.host b) c true (sendHost t (inject c (bundleXY .vcl b) 0 (flits bytes.length 112) s)) (some (a / 64))

/-- Whether no write of an agent to host memory awaits its placement (15 R515), and none waits at a home that is held. -/
def hostQuiet (s : State) (agent : Nat) : Bool :=
  s.bundles.all (fun p => p.1.1 != .vcl ||
    (p.2.waiting.all (fun t => t.kind != .mwr || t.agent != agent) &&
     p.2.unplaced.all (fun u => u.2.kind != .mwr || u.2.agent != agent))) &&
  s.upkeep.late.all (fun l => l.agent != agent)

end Sys2Proof.Machine
end

