-- ==== Sys2Proof/Machine/Cache.lean ====
section
/-! DEFINITION. The scalar data cache and a core's accesses to memory: own scratchpad, other scratchpads through the
mesh, and lines of near, far and host memory through the cache (08 R302, R303, R310-R318, R325, 09 R357, 18 R598). -/

namespace Sys2Proof.Machine

/-! ## Sets and replacement (08 R311, R313) -/

/-- The set of line number `l` = a[47:6]. -/
def cacheSet (l : Nat) : Nat :=
  l % 128 ^^^ l / 2 ^ 7 % 128 ^^^ l / 2 ^ 14 % 128 ^^^ l / 2 ^ 21 % 128 ^^^ l / 2 ^ 28 % 128 ^^^ l / 2 ^ 35 % 128

/-- One step of the replacement register. -/
def lfsr16 (x : BitVec 16) : BitVec 16 := if x.getLsbD 0 then (x >>> 1) ^^^ 0xB400 else x >>> 1

/-- The line with number `l`, wherever it is held (08 R312). -/
def Cache.find (k : Cache) (l : Nat) : Option Line :=
  match k.main.find? (fun p => p.2.addr == l) with
  | some p => some p.2
  | none =>
    match k.victim.find? (fun x => x.addr == l) with
    | some x => some x
    | none => k.side.find? (fun x => x.addr == l)

/-- The cache without a line. -/
def Cache.drop (k : Cache) (l : Nat) : Cache :=
  { k with main := k.main.filter (fun p => p.2.addr != l), victim := k.victim.filter (fun x => x.addr != l),
           side := k.side.filter (fun x => x.addr != l) }

/-- A held line changed where it is. -/
def Cache.upd (k : Cache) (l : Nat) (f : Line → Line) : Cache :=
  let g := fun x : Line => if x.addr = l then f x else x
  { k with main := k.main.map (fun p => (p.1, g p.2)), victim := k.victim.map g, side := k.side.map g }

/-- A line enters the main array; what it displaces enters the victim cache, which a service core has not; a line
pushed out is returned (08 R313, R314, R325). -/
def Cache.enter (svc : Bool) (k : Cache) (l : Line) : Cache × Option Line :=
  let set := cacheSet l.addr
  match (nats 4 (4 * set) 1).find? (fun i => k.main.all (fun p => p.1 != i)) with
  | some i => ({ k with main := mput k.main i l }, none)
  | none =>
    let r := lfsr16 k.lfsr
    let i := 4 * set + r.toNat % 4
    let old := (k.main.find? (fun p => p.1 == i)).map Prod.snd
    let k := { k with lfsr := r, main := mput k.main i l }
    match old with
    | none => (k, none)
    | some o =>
      if svc then (k, some o)
      else if k.victim.length < 8 then ({ k with victim := k.victim ++ [o] }, none)
      else ({ k with victim := k.victim.drop 1 ++ [o] }, k.victim.head?)

/-! ## Write-backs and fills -/

/-- The data cache of a core changed. -/
def State.updDc (s : State) (c : Nat) (f : Cache → Cache) : State :=
  s.updCore c (fun k => { k with dcache := f k.dcache })

/-- Whether a core's requests may reach the firmware reserve (19 R627). -/
def trustedCore (s : State) (c : Nat) : Bool := isService c || (s.core c).sc.pl == 3

/-- A dirty line is written back: an uncorrectable word writes a record and goes on as such (08 R318, R678). -/
def writeBack (c : Nat) (l : Line) (s : State) : State :=
  let a := 64 * l.addr
  let s := if l.bad = [] then s else record 2 (coreUnit c 3) 5 [] s
  let s := s.updCore c (fun k => { k with unacked := k.unacked + 1 })
  match homeOf s a with
  | .host _ => hostWriteBack c a l.data (l.bad != []) s
  | h => sendReq { src := c, home := h, kind := .writeBack l.bad, addr := a, n := 64, data := l.data,
                   trusted := isService c || l.trusted } s

/-- A line pushed out of the caches. -/
def pushOut (c : Nat) (o : Option Line) (s : State) : State :=
  match o with
  | some l => if l.dirty then writeBack c l s else s
  | none => s

/-- A line enters the main array of a core's data cache. -/
def enterLine (c : Nat) (l : Line) (s : State) : State :=
  let r := Cache.enter (isService c) (s.core c).dcache l
  pushOut c r.2 (s.updDc c (fun _ => r.1))

/-- A write-back on its way. -/
def Req.isWriteBack (r : Req) : Bool := match r.kind with | .writeBack _ => true | _ => false

/-- Whether both write-back buffers of a core hold lines that their memories have not taken (08 R314). -/
def buffersBusy (s : State) (c : Nat) : Bool := decide (2 ≤ (s.reqs.filter (fun r => r.src == c && r.isWriteBack)).length)

/-- Whether a line may enter the main array of cache k now: what it pushes out finds a write-back buffer (08 R314). -/
def mayEnter (s : State) (c : Nat) (k : Cache) (l : Line) : Bool :=
  match (Cache.enter (isService c) k l).2 with
  | some o => !(o.dirty && buffersBusy s c)
  | none => true

/-- A miss register is claimed and the line requested from its home. -/
def claimMiss (c l : Nat) (stores : List (Nat × List Byte)) (waiters : Nat) (prefetch : Bool) (s : State) : State :=
  let s := s.updDc c (fun k => { k with miss := k.miss ++
    [{ addr := l, stores := stores, waiters := waiters, prefetch := prefetch, trusted := !stores.isEmpty && trustedCore s c }] })
  match homeOf s (64 * l) with
  | .host _ => hostFill c false (64 * l) s
  | h => sendReq { src := c, home := h, kind := .fill, addr := 64 * l, n := 64, data := [], trusted := trustedCore s c } s

/-- Whether every request of a miss register is in use (08 R316). -/
def Miss.isFull (m : Miss) : Bool := decide (8 ≤ m.stores.length + m.waiters + (if m.asked then 1 else 0))

/-- A prefetch of a line: dropped when it is held, being filled, without a free register, or outside the region of
the line before it (08 R317). -/
def prefetchLine (c l : Nat) (s : State) : State :=
  let k := (s.core c).dcache
  if isService c || (k.find l).isSome || k.miss.any (fun m => m.addr == l) || decide (8 ≤ k.miss.length) ||
     regionOf (64 * l) != regionOf (64 * (l - 1)) then s
  else claimMiss c l [] 0 true s

/-- The stream detector sees a demand miss to line l (08 R317). -/
def streamMiss (c l : Nat) (s : State) : State :=
  let s := if (s.core c).dcache.lastMiss = some (l - 1) ∧ 0 < l then prefetchLine c (l + 1) s else s
  s.updDc c (fun k => { k with lastMiss := some l })

/-- A primary demand miss: the register, the counter and the stream detector (08 R316, R317). -/
def demandMiss (c l : Nat) (stores : List (Nat × List Byte)) (waiters : Nat) (s : State) : State :=
  streamMiss c l (pctrEvent c 5 1 (claimMiss c l stores waiters false s))

/-- A secondary demand miss: its register takes the request (08 R316, R317). -/
def joinMiss (c l : Nat) (f : Miss → Miss) (s : State) : State :=
  streamMiss c l (pctrEvent c 6 1 (s.updDc c (fun k => { k with miss := k.miss.map (fun m =>
    if m.addr = l then { f m with prefetch := false } else m) })))

/-- The miss registers of a cache of a core (08 R316, R319, R325). -/
def missRegs (c : Nat) : Nat := if isService c then 1 else 8

/-! ## Accesses -/

/-- What an access finds: its bytes, a wait for data on its way, a wait for room, or an uncorrectable location. -/
inductive Got where
  | ok (bytes : List Byte)
  | wait
  | full
  | bad
deriving DecidableEq, Repr

/-- The 8-byte words of a line that bytes [o, o + n) touch. -/
def wordsOf (o n : Nat) : List Nat := nats ((o + n + 7) / 8 - o / 8) (o / 8) 1

/-- Bytes of a list replaced from offset o. -/
def patch (d : List Byte) (o : Nat) (bs : List Byte) : List Byte := d.take o ++ bs ++ d.drop (o + bs.length)

/-- A held line comes to the main array; a hit in the side buffer prefetches the next (08 R312, R317). -/
def promote (c l : Nat) (s : State) : State :=
  let k := (s.core c).dcache
  if k.main.any (fun p => p.2.addr == l) then s
  else
    match k.find l with
    | none => s
    | some x =>
      let s := enterLine c x (s.updDc c (fun k => k.drop l))
      if k.side.any (fun y => y.addr == l) then prefetchLine c (l + 1) s else s

/-- Whether a held line may come to the main array now. -/
def mayPromote (s : State) (c : Nat) (x : Line) : Bool :=
  let k := (s.core c).dcache
  k.main.any (fun p => p.2.addr == x.addr) || mayEnter s c (k.drop x.addr) x

/-- What the codes of a held line find when an access of operation `op` reads its words `ws` (08 R318), and whether the
access meets an uncorrectable dirty line. A clean line with an error is invalidated; the access then misses. -/
def lineCheck (c l : Nat) (ws : List Nat) (op : Nat) (e : Ecc) (s : State) : State × Bool :=
  let unit := coreUnit c 3
  match (s.core c).dcache.find l with
  | none => (s, false)
  | some x =>
    match e.first with
    | .parity copy =>
      if x.dirty || copy then
        (record 2 unit op [] (s.updDc c (fun k => k.upd l (fun y => { y with dirty := true, bad := nats 8 0 1 }))), true)
      else (s.updDc c (fun k => k.drop l), false)
    | e =>
      if ws = [] then (s, false)
      else if ws.any (· ∈ x.bad) || e == .uncorrectable then
        if x.dirty then
          (record 2 unit op [] (if ws.any (· ∈ x.bad) then s
            else s.updDc c (fun k => k.upd l (fun y => { y with bad := y.bad ++ ws.take 1 }))), true)
        else (record 1 unit 1 [] (s.updDc c (fun k => k.drop l)), false)
      else if e = .corrected then (record 1 unit 1 [] s, false)
      else (s, false)

/-- A read of n bytes of one line (08 R312, R316, R318, 09 R357). `once` is whether the request does not wait yet. -/
def lineRead (c a n : Nat) (e : Ecc) (once : Bool) (s : State) : State × Got :=
  let l := a / 64
  if !once && decide (l ∈ (s.core c).dcache.failed) then
    (s.updDc c (fun k => { k with failed := k.failed.filter (· != l) }), .bad)
  else
    let r := lineCheck c l (wordsOf (a % 64) n) 3 e s
    if r.2 then (r.1, .bad)
    else
      let s := r.1
      let k := (s.core c).dcache
      match k.find l with
      | some x => if mayPromote s c x then (promote c l s, .ok ((x.data.drop (a % 64)).take n)) else (s, .full)
      | none =>
        if k.miss.any (fun m => m.addr == l) then
          if !once then (s, .wait)
          else if k.miss.any (fun m => m.addr == l && m.isFull) then (s, .full)
          else (joinMiss c l (fun m => { m with waiters := m.waiters + 1 }) s, .wait)
        else if missRegs c ≤ k.miss.length then (s, .full)
        else (demandMiss c l [] 1 s, .wait)

/-- A store of bytes into one line (08 R315, R316, R318, R325). -/
def lineWrite (c a : Nat) (bs : List Byte) (e : Ecc) (s : State) : State × Got :=
  let l := a / 64
  let o := a % 64
  let ws := wordsOf o bs.length
  let own := trustedCore s c
  if isService c && decide (l ∈ (s.core c).dcache.failed) then
    (s.updDc c (fun k => { k with failed := k.failed.filter (· != l) }), .bad)
  else
    let r := lineCheck c l (ws.filter (fun w => 8 * w < o || o + bs.length < 8 * w + 8)) 4 e s
    if r.2 then (r.1, .bad)
    else
      let s := r.1
      let k := (s.core c).dcache
      match k.find l with
      | some x =>
        if mayPromote s c x then
          (promote c l (s.updDc c (fun k => k.upd l (fun y =>
            { y with data := patch y.data o bs, dirty := true, bad := y.bad.filter (· ∉ ws), trusted := y.trusted || own }))), .ok [])
        else (s, .full)
      | none =>
        if k.miss.any (fun m => m.addr == l) then
          if isService c then (s, .wait)
          else if k.miss.any (fun m => m.addr == l && m.isFull) then (s, .full)
          else (joinMiss c l (fun m => { m with stores := m.stores ++ [(o, bs)], trusted := m.trusted || own }) s, .ok [])
        else if bs.length = 64 ∧ !isService c then
          let x : Line := { addr := l, data := bs, dirty := true, bad := [], trusted := own }
          if mayEnter s c k x then (enterLine c x s, .ok []) else (s, .full)
        else if missRegs c ≤ k.miss.length then (s, .full)
        else if isService c then (demandMiss c l [] 1 s, .wait)
        else (demandMiss c l [(o, bs)] 0 s, .ok [])

/-- The pieces of [a, a + n) in each aligned block of m bytes, as (address, length). -/
def piecesOf (m : Nat) : Nat → Nat → Nat → List (Nat × Nat)
  | 0, _, _ => []
  | f + 1, a, n => if n = 0 then [] else
      let k := min n (m - a % m)
      (a, k) :: piecesOf m f (a + k) (n - k)

/-- The pieces in each line. -/
def pieces (f a n : Nat) : List (Nat × Nat) := piecesOf 64 f a n

/-- The outcome of two parts of one access: the first error, then any wait. -/
def Got.and : Got → Got → Got
  | .bad, _ => .bad
  | _, .bad => .bad
  | .full, _ => .full
  | _, .full => .full
  | .wait, _ => .wait
  | _, .wait => .wait
  | .ok a, .ok b => .ok (a ++ b)

/-! ### Replay (18 R598) -/

/-- The core whose role in a pair of exchanged fields core c has. -/
def swapCore (pairs : List (Nat × Nat)) (c : Nat) : Nat :=
  if 1152 ≤ c then c else
  match pairs.find? (fun p => p.1 == fieldOf c || p.2 == fieldOf c) with
  | some p => coreAt (if p.1 = fieldOf c then p.2 else p.1) (localOf c)
  | none => c

/-- Where a core's role is played while a replay of a context runs: every router translates the context's core-addressed
traffic between the exchanged fields (18 R598). -/
def xlatCtx (s : State) (x c : Nat) : Nat :=
  match s.launches.find? (fun l => l.queue % 16 == x && l.pairs.any (fun p => p.1 == fieldOf c || p.2 == fieldOf c)) with
  | some l => swapCore l.pairs c
  | none => c

/-- The same for traffic of core `src`, whose kernel gives the context. -/
def xlatCore (s : State) (src dst : Nat) : Nat :=
  if (s.core src).kernel.isSome then xlatCtx s (s.core src).sc.ctx.toNat dst else dst

/-- The same for a class-0 address that an engine uses for a context. -/
def xlatDev (s : State) (ctx a : Nat) : Nat :=
  match regionOf a with
  | .spad k => if k < 1152 then a - k * 0x20_0000 + xlatCtx s ctx k * 0x20_0000 else a
  | _ => a

/-- The same for a class-0 address. -/
def xlatAddr (s : State) (src a : Nat) : Nat :=
  match regionOf a with
  | .spad k => a - k * 0x20_0000 + xlatCore s src k * 0x20_0000
  | _ => a

/-! ### Reads and writes of a core in any region -/

/-- A read of another scratchpad: one request, whose answer the core takes when it comes (08 R302). -/
def remoteRead (c k a n : Nat) (s : State) : State × Got :=
  match takeFirst (fun r => respHere s c r && r.kind == .read && r.addr == a) s.resps with
  | some (r, rest) =>
    ({ s with resps := rest }.updCore c (fun k => { k with rdWait := k.rdWait.filter (· != (a, n)) }),
     if r.bad then .bad else .ok r.data)
  | none =>
    if (a, n) ∈ (s.core c).rdWait then (s, .wait)
    else (sendReq { src := c, home := .spad k, kind := .read, addr := a, n := n, data := [], trusted := trustedCore s c }
      (s.updCore c (fun k => { k with rdWait := k.rdWait ++ [(a, n)] })), .wait)

/-- A read of n bytes by a core. -/
def dataRead (c a n : Nat) (e : Ecc) (once : Bool) (s : State) : State × Got :=
  let a := xlatAddr s c a
  match regionOf a with
  | .spad k =>
    if k = c then
      match memRead a n e (coreUnit c 0) s with
      | (s, some b) => (s, .ok b)
      | (s, none) => (s, .bad)
    else remoteRead c k a n s
  | _ => (pieces (n / 64 + 2) a n).foldl (fun r p =>
      let q := lineRead c p.1 p.2 (if p.1 = a then e else .clean) once r.1
      (q.1, Got.and r.2 q.2)) (s, .ok [])

/-- A write of bytes by a core: its own scratchpad at once, another's posted, the rest through the cache. -/
def dataWrite (c a : Nat) (bs : List Byte) (e : Ecc) (s : State) : State × Got :=
  let a := xlatAddr s c a
  match regionOf a with
  | .spad k =>
    if k = c then
      match memWrite a bs e (coreUnit c 0) s with
      | (s, true) => (s, .ok [])
      | (s, false) => (s, .bad)
    else (sendReq { src := c, home := .spad k, kind := .write, addr := a, n := bs.length, data := bs,
                    trusted := trustedCore s c } (s.updCore c (fun k => { k with unacked := k.unacked + 1 })), .ok [])
  | _ => (pieces (bs.length / 64 + 2) a bs.length).foldl (fun r p =>
      let q := lineWrite c p.1 ((bs.drop (p.1 - a)).take p.2) (if p.1 = a then e else .clean) r.1
      (q.1, Got.and r.2 q.2)) (s, .ok [])

/-! ## Cache maintenance (08 R322, R323, 12 R429-R431) -/

/-- The lines of a core's data cache, wherever held. -/
def Cache.lines (k : Cache) : List Line := k.main.map Prod.snd ++ k.victim ++ k.side

/-- What the code of line `l` finds as it leaves for memory, the i-th of those that go: a word that is uncorrectable goes
out as such, a corrected one writes its record (08 R318). -/
def wentOut (c i : Nat) (e : Ecc) (l : Line) (s : State) : State × Line :=
  (nats 8 0 1).foldl (fun (q : State × Line) j =>
    match (e.from (8 * i + j)).first with
    | .uncorrectable => if j ∈ q.2.bad then q else (q.1, { q.2 with bad := q.2.bad ++ [j] })
    | .parity _ => (q.1, { q.2 with bad := nats 8 0 1 })
    | .corrected => (record 1 (coreUnit c 3) 1 [] q.1, q.2)
    | _ => q) (s, l)

/-- Lines are cleaned: the dirty ones among `p` written back and kept; `e` is what their codes find. -/
def cleanLines (c : Nat) (p : Line → Bool) (s : State) (e : Ecc := .clean) : State :=
  let ls := (s.core c).dcache.lines.filter (fun l => l.dirty && p l)
  let s := ls.zipIdx.foldl (fun s l =>
    let q := wentOut c l.2 e l.1 s
    writeBack c q.2 q.1) s
  ls.foldl (fun s l => s.updDc c (fun k => k.upd l.addr (fun y => { y with dirty := false, trusted := false }))) s

/-- Lines are discarded, dirty or not. -/
def discardLines (c : Nat) (p : Line → Bool) (s : State) : State :=
  s.updDc c (fun k => { k with main := k.main.filter (fun q => !p q.2), victim := k.victim.filter (fun l => !p l),
                               side := k.side.filter (fun l => !p l) })

/-- The requests of core c of the kinds `p`, and the answers to them, come to nothing. -/
def dropReads (c : Nat) (p : ReqKind → Bool) (s : State) : State :=
  let gone := fun r : Req => r.src == c && p r.kind
  let ahead := fun m : McWrite => ((s.reqs.filter (fun r => r.src == m.src && r.home == .spad m.dst)).take m.after).filter (fun r => !gone r)
  { s with reqs := s.reqs.filter (fun r => !gone r),
           mcs := s.mcs.map (fun m => { m with after := (ahead m).length }),
           resps := s.resps.filter (fun r => !(r.dst == c && p r.kind)) }

/-- Fills of the caches. -/
def ReqKind.isFill (k : ReqKind) : Bool := match k with | .fill | .fetch => true | _ => false

/-- Reads of loads. -/
def ReqKind.isRead (k : ReqKind) : Bool := match k with | .read => true | _ => false

/-- Reads of landings. -/
def ReqKind.isLand (k : ReqKind) : Bool := match k with | .land _ => true | _ => false

/-- Every line invalidated in both caches, with what their registers hold (08 R324). -/
def resetCaches (c : Nat) (s : State) : State :=
  (dropReads c ReqKind.isFill s).updCore c (fun k => { k with
    dcache := { lfsr := k.dcache.lfsr }, icache := { lfsr := k.icache.lfsr } })

/-- Nothing waits for the fills under way any more. -/
def Cache.abandon (k : Cache) : Cache :=
  { k with failed := [], miss := k.miss.map (fun m => { m with waiters := 0 }) }

/-! ## The instruction cache (08 R319, R320, R325) -/

/-- The instruction cache of a core changed. -/
def State.updIc (s : State) (c : Nat) (f : Cache → Cache) : State :=
  s.updCore c (fun k => { k with icache := f k.icache })

/-- The line that holds the instruction at the pc. -/
def fetchLine (k : Core) : Nat := (k.sc.code.base.toNat + k.sc.pc.toNat) / 64

/-- Whether fetching from line l prefetches the next one. -/
def wantsNext (s : State) (c l : Nat) : Bool :=
  let k := (s.core c).icache
  !isService c && (k.find (l + 1)).isNone && k.miss.all (fun m => m.addr != l + 1) && decide (k.miss.length < 8) &&
  regionOf (64 * (l + 1)) == regionOf (64 * l)

/-- Whether the main array holds the line of the pc, and the next line needs no prefetch: a fetch changes nothing. -/
def fetchSettled (s : State) (c : Nat) : Bool :=
  let l := fetchLine (s.core c)
  (s.core c).icache.main.any (fun p => p.2.addr == l) && !wantsNext s c l

/-- A miss register of the instruction cache is claimed and the line requested. -/
def claimFetch (c l : Nat) (prefetch : Bool) (s : State) : State :=
  let s := s.updIc c (fun k => { k with miss := k.miss ++ [{ addr := l, stores := [], waiters := 0, prefetch := prefetch }] })
  match homeOf s (64 * l) with
  | .host _ => hostFill c true (64 * l) s
  | h => sendReq { src := c, home := h, kind := .fetch, addr := 64 * l, n := 64, data := [], trusted := trustedCore s c } s

/-- The sequential prefetch. -/
def fetchNext (c l : Nat) (s : State) : State := if wantsNext s c l then claimFetch c (l + 1) true s else s

/-- A held line comes to the main array. -/
def promoteFetch (c l : Nat) (s : State) : State :=
  let k := (s.core c).icache
  if k.main.any (fun p => p.2.addr == l) then s
  else match k.find l with
    | some x => s.updIc c (fun k => (Cache.enter (isService c) (k.drop l) x).1)
    | none => s

/-- Fetches at the pc, and whether the word is there: a miss claims a register and stalls (08 R319). -/
def fetch (c : Nat) (s : State) : State × Bool :=
  if fetchSettled s c then (s, true)
  else
    let l := fetchLine (s.core c)
    let k := (s.core c).icache
    if (k.find l).isSome then (fetchNext c l (promoteFetch c l s), true)
    else if k.miss.any (fun m => m.addr == l) then
      (s.updIc c (fun k => { k with miss := k.miss.map (fun m => if m.addr = l then { m with prefetch := false } else m) }), false)
    else if missRegs c ≤ k.miss.length then (s, false)
    else (fetchNext c l (claimFetch c l false (pctrEvent c 7 1 s)), false)

end Sys2Proof.Machine
end

