-- ==== Sys2Proof/Machine/ChanBase.lean ====
section
/-! DEFINITION. The channel unit of a core and what closes its channels (11 R405, R406, R420). -/

namespace Sys2Proof.Machine

/-- The base of a core's scratchpad or SRAM window (08 R292). -/
def ownBase (c : Nat) : Nat := 0x0300_0000_0000 + c * 0x20_0000

/-! ## The channel unit -/

/-- Channel state of a core changed. -/
def State.updChan (s : State) (c : Nat) (f : Chan → Chan) : State :=
  s.updCore c (fun k => { k with chan := f k.chan })

/-- Ring r, if open. -/
def Chan.ring (h : Chan) (r : Nat) : Option RxRing := (h.rx.find? (fun p => p.1 == r)).map Prod.snd

/-- Ring r replaced. -/
def Chan.setRing (h : Chan) (r : Nat) (v : RxRing) : Chan := { h with rx := mput h.rx r v }

/-- Ring r freed. -/
def Chan.dropRing (h : Chan) (r : Nat) : Chan := { h with rx := h.rx.filter (fun p => p.1 != r) }

/-- Send channel i, if in use. -/
def Chan.send (h : Chan) (i : Nat) : Option SendChan := (h.tx.find? (fun p => p.1 == i)).map Prod.snd

/-- Send channel i replaced. -/
def Chan.setSend (h : Chan) (i : Nat) (v : SendChan) : Chan := { h with tx := mput h.tx i v }

/-- Send channel i freed. -/
def Chan.dropSend (h : Chan) (i : Nat) : Chan := { h with tx := h.tx.filter (fun p => p.1 != i) }

/-- The lowest free send channel (11 R402). -/
def Chan.freeSend (h : Chan) : Option Nat := (nats 16 0 1).find? (fun i => (h.send i).isNone)

/-- An open or opening send channel, or an open receive ring other than the datagram ring (11 R391). -/
def chanBusy (k : Core) : Bool := !k.chan.tx.isEmpty || k.chan.rx.any (fun p => p.1 != 16)

/-- A ring is freed: its entries are discarded and a bound sender is told (11 R406). -/
def closeRing (c r : Nat) (s : State) : State :=
  match (s.core c).chan.ring r with
  | none => s
  | some q =>
    let s := s.updChan c (fun h => h.dropRing r)
    match q.bound with
    | some (src, ch) => sendMsg c src (.closeNotice ch) s
    | none => s

/-- A send channel is closed: an end marker follows its messages, or its open request, and the channel is free (11 R405,
R420). One that was refused or is broken sends none (log entry 31); the reply that is still to come to one that is opening
is discarded when it comes. -/
def closeSend (c i : Nat) (s : State) : State :=
  match (s.core c).chan.send i with
  | none => s
  | some q =>
    let s := s.updChan c (fun h => h.dropSend i)
    let s := if q.isOpen ∨ q.reply.isSome then s
      else s.updCore c (fun k => { k with staleOpens := k.staleOpens ++ [(i, q.dst)] })
    if q.broken ∨ q.reply.any (· != 0) then s else sendMsg c q.dst (.endMarker i q.ring) s

/-- What a core's part in a kernel leaves of its channels at its end: closed, freed, discarded (11 R420). -/
def endChannels (c : Nat) (s : State) : State :=
  let k := s.core c
  let s := k.chan.tx.foldl (fun s p => closeSend c p.1 s) s
  let s := k.chan.rx.foldl (fun s p => closeRing c p.1 s) s
  s.updChan c (fun h => { h with rx := [], tx := [], dgRec := none })

/-- The context a datagram's sender runs a kernel of, if any (11 R413). -/
def kernelCtx (k : Core) : Option (BitVec 4) := if k.run == .running && k.kernel.isSome then some k.sc.ctx else none

end Sys2Proof.Machine
end

