-- ==== Sys2Proof/Machine/Kernel.lean ====
section
/-! DEFINITION. Command lists as they run, kernels on their cores, the end of a core's part, and replay
(02 R83-R102, 03 R115, 04 R172, R175, 08 R304, R324, 11 R420, 12 R451-R453, 18 R593-R601). -/

namespace Sys2Proof.Machine

/-! ## Queues and lists -/

/-- Queue q. -/
def State.queue (s : State) (q : Nat) : Queue := mget s.queues q {}

/-- Queue q replaced. -/
def State.setQueue (s : State) (q : Nat) (v : Queue) : State := { s with queues := mput s.queues q v }

/-- The list of a queue that starts at slot count `start`. -/
def State.list (s : State) (q start : Nat) : Option CmdList := (s.queue q).lists.find? (fun l => l.start == start)

/-- A list changed. -/
def State.updList (s : State) (q start : Nat) (f : CmdList → CmdList) : State :=
  let u := s.queue q
  s.setQueue q { u with lists := u.lists.map (fun l => if l.start = start then f l else l) }

/-- The tag of a list. -/
def State.tagOf (s : State) (q start : Nat) : Nat := match s.list q start with | some l => l.tag | none => 0

/-- Whether a list has been fired and has not ended. -/
def CmdList.live (l : CmdList) : Bool := l.fired.isSome && l.ended.isNone

/-- The launches of a list that have not ended. -/
def State.launchesOf (s : State) (q start : Nat) : List Launch :=
  s.launches.filter (fun l => l.queue == q && l.start == start)

/-- A fired list ends once nothing of it runs and no further command starts (02 R89, R101, R102). -/
def settleList (q start : Nat) (s : State) : State :=
  match s.list q start with
  | none => s
  | some l =>
    if l.live && !l.busy && (s.launchesOf q start).isEmpty && (l.stop || l.idx == l.count) then
      s.updList q start (fun l => { l with
        ended := some s.frame
        status := if l.aborting ∧ l.status = 0 ∧ (l.idx < l.count ∨ l.cut) then 1 else l.status })
    else s

/-- A command ends: completed, or ending its list with a status (02 R82, R89). -/
def commandEnd (q start st : Nat) (s : State) : State :=
  settleList q start (s.updList q start (fun l =>
    if st = 0 then { l with busy := false, done := l.done + 1 }
    else { l with busy := false, status := if l.status = 0 then st else l.status, stop := true }))

/-! ## Sync objects on a core's end or interrupt (12 R453) -/

/-- A blocking `wait`, which the unit queues. -/
def SyncKind.queues : SyncKind → Bool
  | .wait _ false => true
  | _ => false

/-- A grant. -/
def SyncAns.isGrant (r : SyncAns) : Bool := !r.err && (match r.kind with | .wait _ false => true | _ => false)

/-- What becomes of the grants on their way to an agent whose fate `p` selects. -/
def setFate (agent : Nat) (p : Fate → Bool) (f : Fate) (s : State) : State :=
  if s.syncAns.any (fun r => r.agent == agent && r.isGrant && p r.fate) then
    { s with syncAns := s.syncAns.map (fun r => if r.agent == agent && r.isGrant && p r.fate then { r with fate := f } else r) }
  else s

/-- An agent's waiter, queued or on its way, is withdrawn; a grant that crosses the withdrawal is kept or returned. -/
def withdraw (agent : Nat) (f : Fate) (s : State) : State :=
  setFate agent (· == .used) f { s with
    waiters := s.waiters.map (fun p => (p.1, p.2.filter (fun x => x.1 != agent)))
    syncOps := s.syncOps.filter (fun o => o.agent != agent || o.kind.queues = false)
    syncAns := s.syncAns.map (fun r => if r.agent == agent && r.err && r.kind.queues then { r with orphan := true } else r) }

/-- A core's part ends: no answer of its operations on their way is used any more (12 R457). -/
def orphanSync (c : Nat) (s : State) : State :=
  { s with
    syncOps := s.syncOps.map (fun o => if o.agent = c then { o with orphan := true } else o)
    syncAns := s.syncAns.map (fun r => if r.agent = c ∧ r.isGrant = false then { r with orphan := true } else r) }

/-- A kept grant is returned by a `sig` of n; one still on its way, when it comes. -/
def returnKept (c : Nat) (s : State) : State :=
  let s := setFate c (· == .kept) .returned s
  match (s.core c).kept with
  | none => s
  | some (_, p, n) => sendSync { agent := c, obj := p, kind := .sig n } (s.updCore c (fun k => { k with kept := none }))

/-! ## The end of a core's part (02 R84, 04 R175, R185, 11 R420) -/

/-- Two statuses that cores of one LAUNCH call for (04 R175). -/
def mergeStatus (a b : Nat) : Nat := if a = 6 ∨ b = 6 then 6 else max a b

/-- The details of a record that names a step: `epc`, queue and tag (18 R613). -/
def stepDetails (s : State) (epc q start : Nat) : List Byte := leBytes 8 epc ++ leBytes 2 q ++ leBytes 8 (s.tagOf q start)

/-- The cores of a field. -/
def fieldCores (f : Nat) : List Nat := (nats 64 0 1).map (coreAt f)

/-- The part below offset n moves from pad a or b to the other. -/
def Undef.swap (n a b : Nat) (u : Undef) : List Undef :=
  if u.pad = a ∨ u.pad = b then
    (if u.lo < min n u.hi then [{ u with pad := if u.pad = a then b else a, hi := min n u.hi }] else []) ++
    (if max n u.lo < u.hi then [{ u with lo := max n u.lo }] else [])
  else [u]

/-- Bytes 0 .. n - 1 of two scratchpads exchanged, defined or not (18 R599). -/
def swapPads (n a b : Nat) (s : State) : State :=
  let A := ownBase a
  let B := ownBase b
  let mv := fun x : Nat => if A ≤ x ∧ x < A + n then x - A + B else if B ≤ x ∧ x < B + n then x - B + A else x
  let touched := fun x : Nat => decide (A ≤ x ∧ x < A + n ∨ B ≤ x ∧ x < B + n)
  let moved := s.mem.filter (fun p => touched p.1)
  let mem := moved.foldl (fun m p => memPut m (mv p.1) p.2) (s.mem.filter (fun p => !touched p.1))
  { s with mem := mem, bad := s.bad.map mv, undef := s.undef.flatMap (Undef.swap n a b), zeroed := s.zeroed.map mv }

/-- The exchanged pairs of fields swap the low sp_kib16 × 16 KiB of their scratchpads. -/
def swapFields (pairs : List (Nat × Nat)) (s : State) : State :=
  let n := s.get F.rasReplayCtl_sp_kib16 * 16384
  pairs.foldl (fun s p => (nats 64 0 1).foldl (fun s i => swapPads n (coreAt p.1 i) (coreAt p.2 i) s) s) s

/-- Whether replay is enabled for a context (18 R596). -/
def replayOn (s : State) (ctx : Nat) : Bool := natBit (s.get F.rasReplayCtl_en) ctx

/-- A launch leaves the engine, and its command ends; another command of its list may be running. A completed step is
remembered until its record is written (18 R595). -/
def launchGone (l : Launch) (st : Nat) (s : State) : State :=
  let s := { s with launches := s.launches.filter (fun x => !(x.queue == l.queue && x.start == l.start && x.idx == l.idx)) }
  settleList l.queue l.start (s.updList l.queue l.start (fun x =>
    if st = 0 then { x with done := x.done + 1, past := x.past ++ [{ l with left := [] }] }
    else { x with status := if x.status = 0 then st else x.status, stop := true }))

/-- Every part of a launch has ended: its command completes, fails, awaits replay, or ends a replay (18 R596, R600).
`refused`: a write of its cores to host memory was refused, and no fence raised it. -/
def launchEnd (l : Launch) (refused : Bool) (s : State) : State :=
  let ctx := l.queue % 16
  let det := stepDetails s l.suspectEpc l.queue l.start
  let unit := coreUnit l.suspectCore 0
  let st := if refused then mergeStatus l.status 6 else l.status
  if l.pairs ≠ [] then
    let s := swapFields l.pairs s
    let fg := match l.pairs.head? with | some p => [BitVec.ofNat 8 p.1, BitVec.ofNat 8 p.2] | none => []
    let failed := l.suspect != [] || l.status != 0
    let s := s.updList l.queue l.start (fun x => { x with replayed := true })
    if l.cut then launchGone l 1 s
    else if failed then launchGone l 5 (raise F.rasEvtStat_replay_fail (s.bump F.rasReplayCnt_failed |> record 2 unit 0x32 (det ++ fg)))
    else launchGone l st (s.bump F.rasReplayCnt_passed |> record 1 unit 0x31 (det ++ fg))
  else if l.cut then launchGone l 1 s
  else if l.suspect ≠ [] then
    if replayOn s ctx then s else launchGone l 5 (record 2 unit l.suspectOp det s)
  else launchGone l st s

/-- The end of a launch whose parts have all ended, once what its cores wrote to host memory is placed; a refused write
that no fence raised gives status 6 (12 R434, 15 R515). -/
def launchSettle (l : Launch) (s : State) : State :=
  if l.cores.any (fun c => !hostQuiet s c) then s
  else
    let refused := l.cores.any (fun c => (s.core c).hostRefused)
    let s := if refused then l.cores.foldl (fun s c => s.updCore c (fun k => { k with hostRefused := false })) s else s
    launchEnd l refused s

/-- The launches that wait for the placement of host writes. -/
def settleLaunches (s : State) : State :=
  (s.launches.filter (fun l => l.started && l.left.isEmpty)).foldl (fun s l => launchSettle l s) s

/-- A core of a list's launch has ended its part with a status. -/
def launchPart (q start c st : Nat) (s : State) : State :=
  match s.launches.find? (fun l => l.queue == q && l.start == start && decide (c ∈ l.left)) with
  | none => s
  | some l =>
    let l' := { l with left := l.left.filter (· != c), status := mergeStatus l.status st }
    let s := { s with launches := s.launches.map (fun x => if x = l then l' else x) }
    if l'.left = [] then launchSettle l' s else s

/-- The end of a core's part in its kernel: channels, waiter and kept grant go, the frame-overrun notice is
discarded, the core runs nothing further, and the compute engine is told. -/
def partEnd (c st : Nat) (s : State) : State :=
  let k := s.core c
  let s := returnKept c (orphanSync c (withdraw c .returned (endChannels c s)))
  let s := s.updCore c (fun x => { x with
    kernel := none, ending := none, wait := .none
    lastCtx := if x.kernel.isSome then some x.sc.ctx else x.lastCtx
    run := if x.run = .running then .idle else x.run
    sc := { x.sc with ip := x.sc.ip &&& 0xEF } })
  match k.kernel with
  | some (q, start) => launchPart q start c st s
  | none => s

/-- A core's stop is complete once its dirty lines are written back and every write is accepted (08 R324). -/
def settlePart (c : Nat) (s : State) : State :=
  match (s.core c).ending with
  | none => s
  | some st =>
    let s := cleanLines c (fun _ => true) s
    let k := s.core c
    if k.unacked = 0 ∧ (k.dcache.miss.all (fun m => m.stores.isEmpty)) then partEnd c st s else s

/-- A core stops executing, its waiter is withdrawn, and its part ends with a status. -/
def stopPart (c st : Nat) (s : State) : State :=
  settlePart c ((orphanSync c (withdraw c .returned s)).updCore c (fun k => { k with
    run := .stopped, wait := .none, ending := some st }))

/-! ## Undefined contents (02 R101, 18 R593) -/

/-- An exception bank of free words a, b and c, from a level that exists (04 R163). -/
def openBank (a b c : Word64) : Bank :=
  ⟨if a.setWidth 2 = (2 : BitVec 2) then 0 else a.setWidth 2, (a >>> 2).setWidth 3, b.setWidth 32, c &&& ~~~3⟩

/-- The scalar registers and CSRs of a core with the free values from number n on; the bits that always read 0 and the
identity of the core in its kernel stay. -/
def Scalar.opened (n : Nat) (k : Scalar) : Scalar :=
  let w := fun i : Nat => Config.freeWord (n + i)
  let pcs := fun i : Nat => (w i &&& ~~~3).setWidth 48
  { k with
    g := (nats 31 1 1).map (fun i => (i, w i))
    pc := pcs 32
    seg := (nats 8 0 1).map (fun i => (i, ⟨(w (40 + i)).setWidth 48, (w (48 + i)).setWidth 48, (w (56 + i)).setWidth 2,
      natBit (w (56 + i)).toNat 2, natBit (w (56 + i)).toNat 3⟩))
    ml := (w 33).setWidth 3, ie := (w 34).setWidth 4
    sup := openBank (w 35) (w 36) (w 37), mach := openBank (w 64) (w 65) (w 66)
    ldsReg := BitVec.ofNat 32 (natBits (w 67).toNat 31 31 * 2 ^ 31 + (w 67).toNat % 32), ldsOld := w 68
    ls := (nats 2 0 1).map (fun i => (i, pcs (70 + i))), le := (nats 2 0 1).map (fun i => (i, pcs (72 + i)))
    lc := (nats 2 0 1).map (fun i => (i, (w (74 + i)).setWidth 32))
    stage := (w 76).setWidth 8, distSel := some ((w 77).setWidth 6)
    pctr := (nats 8 0 1).map (fun i => (i, w (80 + i)))
    slot := none, shadow := none, divide := none }

/-- A core's registers, CSRs, tiles and accumulators hold values the spec leaves open (02 R101, 18 R593). -/
def undefRegs (c : Nat) (s : State) : State :=
  let n := s.freeCount
  let w := fun i : Nat => Config.freeWord (n + i)
  { s with freeCount := n + 2304 }.updCore c (fun k => { k with
    sc := k.sc.opened n
    v := (nats 32 0 1).map (fun i => (i, Config.freeVec (n + 128 + i)))
    tiles := k.tiles.map (fun (p : Nat × Tile) =>
      (p.1, { p.2 with data := (nats p.2.data.length (2048 * p.1) 1).map (Config.undefByte (n + 160)) }))
    accs := (nats 2 0 1).map (fun d => (d, ⟨(nats 1024 0 1).map (fun i => (i, (w (256 + 1024 * d + i)).setWidth 32)), 0⟩))
    matq := []
    tprog := (w 88).setWidth 32
    amax := (nats 4 0 1).map (fun i => (i, (w (92 + i)).setWidth 31 |>.setWidth 32))
    nanrec := (nats 4 0 1).map (fun i => (i, w (96 + i)))
    rlfsr := (w 89).setWidth 32 })

/-- A scratchpad's content is what the spec leaves open. -/
def undefPad (c : Nat) (s : State) : State :=
  { s with
    mem := memClear s.mem (ownBase c) (ownBase c + 0x10_0000)
    undef := s.undef.filter (fun u => u.pad != c) ++ [⟨c, 0, 0x10_0000, s.freeCount⟩]
    zeroed := s.zeroed.filter (fun a => decide (a < ownBase c ∨ ownBase c + 0x10_0000 ≤ a))
    freeCount := s.freeCount + 1 }

/-! ## Suspect steps (18 R595, R596) -/

/-- A suspect step stops every core of the launch as the end of grace does: their registers are undefined, and their
scratchpads too unless a replay is to run from what they hold (18 R596, R599; log entry 26). -/
def suspectStop (l : Launch) (s : State) : State :=
  let keep := replayOn s (l.queue % 16) && l.pairs.isEmpty
  l.left.foldl (fun s d =>
    if (s.core d).ending.isSome then s
    else stopPart d 0 (if keep then undefRegs d s else undefPad d (undefRegs d s))) s

/-- A core makes its step suspect, by an event of operation code `op`: every core of the launch stops at once. -/
def suspectStep (c op : Nat) (s : State) : State :=
  match (s.core c).kernel with
  | none => s
  | some (q, start) =>
    match s.launches.find? (fun l => l.queue == q && l.start == start && decide (c ∈ l.left)) with
    | none => s
    | some l =>
      let f := fieldOf (swapCore l.pairs c)
      let l' := { l with
        suspect := if f ∈ l.suspect then l.suspect else l.suspect ++ [f]
        suspectOp := if l.suspect = [] then op else l.suspectOp
        suspectCore := if l.suspect = [] then c else l.suspectCore
        suspectEpc := if l.suspect ≠ [] then l.suspectEpc
          else if op = 0x10 then (s.core c).sc.mach.epc.toNat else 0 }
      let s := { s with launches := s.launches.map (fun x => if x = l then l' else x) }
      suspectStop l' s

/-! ## The start of a core's part (03 R115, 04 R172, 05 R197, 06 R223, 07 R280, R284, R290, 08 R304, R307, R324) -/

/-- `hs.mix` (03 R162). -/
def hsMix (a b : Word64) : Word64 :=
  let z := a + b * 0x9E3779B97F4A7C15
  let z := (z ^^^ (z >>> 29)) * 0x8F3B2C71D4690E2B
  let z := (z ^^^ (z >>> 32)) * 0xB7E151639A4C2D17
  z ^^^ (z >>> 29)

/-- The seed of a rounding register (07 R280). -/
def roundSeed (tag c n : Nat) : Word32 :=
  let x := (hsMix (BitVec.ofNat 64 tag) (BitVec.ofNat 64 (c * 2 ^ 32 + n))).setWidth 32
  if x = 0 then 1 else x

/-- The handle table of a context as a core copies it. -/
def htabCopy (s : State) (x : Nat) : List (Nat × (Word64 × Word64)) :=
  (nats 64 0 1).filterMap (fun h =>
    let w0 := s.reg .klnHtabW0 (64 * x + h)
    if w0 = 0 then none else some (h, (w0, s.reg .klnHtabW1 (64 * x + h))))

/-- The SYN_VTAB entries of a context as a core copies them. -/
def vtabCopy (s : State) (x : Nat) : List (Nat × Word32) :=
  (s.regs.filterMap (fun p => if p.1.1 = .synVtab ∧ p.1.2 / 1024 = x ∧ p.2 ≠ 0 then some (p.1.2 % 1024, p.2.setWidth 32) else none))

/-- Set bits of a mask below field f: the rank of the field. -/
def popcountBelow (m f : Nat) : Nat := ((nats f 0 1).filter (fun i => natBit m i)).length

/-- The stage of a core under the LAUNCH stage rule (02 R84). -/
def launchStage (l : Launch) (c : Nat) : Byte :=
  match l.stageRule with
  | 0 => l.stages.getD 0 0
  | 1 => BitVec.ofNat 8 (popcountBelow l.fields (fieldOf c))
  | _ => l.stages.getD c 0

/-- A scratchpad cleared to zeros with valid check bits (08 R304). -/
def clearPad (c : Nat) (s : State) : State :=
  { s with
    mem := memClear s.mem (ownBase c) (ownBase c + 0x10_0000)
    bad := s.bad.filter (fun a => decide (a < ownBase c ∨ ownBase c + 0x10_0000 ≤ a))
    undef := s.undef.filter (fun u => u.pad != c)
    zeroed := s.zeroed.filter (fun a => decide (a < ownBase c ∨ ownBase c + 0x10_0000 ≤ a)) }

/-- Starts core c with the role of core `role` in a launch. -/
def startCore (l : Launch) (c role : Nat) (s : State) : State :=
  let ctx := l.queue % 16
  let s := dropReads c (fun k => k.isRead || k.isLand) (resetCaches c s)
  let k := s.core c
  let s := if k.lastCtx.any (fun x => x.toNat != ctx) then clearPad c s else s
  let htab := htabCopy s ctx
  let rank := (l.cores.findIdx? (· == role)).getD 0
  let code : CodeSeg := (handleCode { k with htab := htab } l.code).getD {}
  s.setCore c { k with
    sc := { k.sc with
      g := [(1, l.arg0), (2, l.arg1), (3, BitVec.ofNat 64 role)]
      pc := BitVec.ofNat 48 l.entry
      code := code
      seg := []
      pl := l.priv, ml := 0, ie := 0, ip := 0
      sup := {}, evec := 0
      ldsReg := k.sc.ldsReg &&& 0x7FFFFFFF
      ls := [], le := [], lc := []
      stage := launchStage l role
      ctx := BitVec.ofNat 4 ctx
      pctr := []
      slot := none, shadow := none, divide := none, cp0 := none }
    wait := .none, run := .running, step := false, ending := none
    kernel := some (l.queue, l.start)
    det := l.det
    v := [], tiles := [], accs := [], matq := [], landings := [], tcfgSel := 0, tprog := 0
    amax := [], nanrec := [], nanTrap := none
    rlfsr := roundSeed (s.tagOf l.queue l.start) l.idx rank
    htab := htab
    vtab := vtabCopy s ctx
    chan := {}
    dcache := (s.core c).dcache, icache := (s.core c).icache
    unacked := 0, deferredUe := false, deferredOvf := false, kept := none, hostRefused := false, rdWait := []
    parts := [], maint := [], entered := none }

/-- Whether a core runs no kernel and nothing of one remains on it (02 R86). -/
def coreFree (s : State) (c : Nat) : Bool :=
  let k := s.core c
  k.kernel.isNone && k.ending.isNone && k.run != .running

/-- Whether launch a goes before b for a core both wait for (02 R86). -/
def goesFirst (a b : Launch) : Bool := decide (a.firedAt < b.firedAt ∨ (a.firedAt = b.firedAt ∧ a.queue < b.queue))

/-! ## Replay (18 R597-R600) -/

/-- The corner of a field, in routers. -/
def fieldCorner (f : Nat) : Nat × Nat := (8 * (f % 6), 8 * (f / 6))

/-- Whether a core has passed its latest fallow test. -/
def fallowPassed (s : State) (c : Nat) : Bool := s.ras.passed.any (fun p => p.1 == c) && decide (c ∉ s.ras.failedCores)

/-- Whether a core is retired (18 R611). -/
def coreRetired (s : State) (c : Nat) : Bool := natBit (s.get F.rasRetired_cores (c / 32)) (c % 32)

/-- Whether field g may donate for a launch. -/
def donorOk (s : State) (l : Launch) (used : List Nat) (g : Nat) : Bool :=
  decide (g ∉ l.suspect) && decide (g ∉ used) && (fieldCores g).all (fun c => fallowPassed s c && !coreRetired s c)

/-- The better donor of field f: same die, then nearest corners, then lower number. -/
def betterDonor (f a b : Nat) : Bool :=
  let die := fun x : Nat => if x % 6 < 3 then 0 else 1
  let key := fun x : Nat => ((if die x = die f then 0 else 1) * 1000 + hops (fieldCorner f) (fieldCorner x)) * 100 + x
  decide (key a < key b)

/-- The donor of field f among those allowed. -/
def chooseDonor (s : State) (l : Launch) (used : List Nat) (f : Nat) : Option Nat :=
  ((nats 18 0 1).filter (donorOk s l used)).foldl (fun best g =>
    match best with
    | none => some g
    | some b => if betterDonor f g b then some g else some b) none

/-- The exchanged pairs of a replay, if every suspect field has a donor and there are at most two. -/
def choosePairs (s : State) (l : Launch) : Option (List (Nat × Nat)) :=
  if 2 < l.suspect.length then none else
  l.suspect.foldl (fun acc f => acc.bind (fun ps =>
    (chooseDonor s l (ps.map Prod.snd) f).map (fun g => ps ++ [(f, g)]))) (some [])

/-- A launch that has stopped as suspect and has not been replayed. -/
def awaitsReplay (l : Launch) : Bool := l.started && l.left.isEmpty && !l.suspect.isEmpty && !l.replayed

/-- The cores that a replay with exchanged fields takes: those fields whole, and the launch's others. -/
def takenCores (l : Launch) (ps : List (Nat × Nat)) : List Nat :=
  ps.flatMap (fun p => fieldCores p.1 ++ fieldCores p.2) ++ l.cores.map (swapCore ps)

/-- The cores that launches awaiting replay take ahead of every waiting LAUNCH (18 R597). -/
def replayCores (s : State) : List Nat :=
  (s.launches.filter awaitsReplay).flatMap (fun l =>
    match choosePairs s l with | some ps => takenCores l ps | none => [])

/-- Whether a launch may start: every core of it is free and in service, and neither a replay nor a launch that goes
first waits for one (02 R86, 18 R597, R607). -/
def mayStart (s : State) (l : Launch) : Bool :=
  l.cores.all (fun c => coreFree s c && decide (c ∉ s.ras.withheld)) &&
  (replayCores s).all (fun c => decide (c ∉ l.cores)) &&
  s.launches.all (fun x => x.started || !goesFirst x l || x.cores.all (fun c => decide (c ∉ l.cores)))

/-- KERNEL_LAUNCH (02 R86): the oldest waiting launch of the queue starts on its cores. -/
def kernelLaunch (q : Nat) (s : State) : State :=
  match s.launches.find? (fun l => l.queue == q && !l.started && mayStart s l) with
  | none => s
  | some l =>
    let n := s.ras.order + 1
    let l' := { l with started := true, startedAt := n }
    let s := { s with ras := { s.ras with order := n }, launches := s.launches.map (fun x => if x = l then l' else x) }
    l.cores.foldl (fun s c => startCore l' c c s) s

def execKernelLaunch (q : QueueId) (s : State) : Host.Outcome State Fault Refusal := .next (kernelLaunch q s)

/-- The hour's entry of a unit takes one residue or parity failure that no record of its own reports: its step is replayed
(18 R608, R610). -/
def noteFailure (unit : Nat) (s : State) : State :=
  let own := fun h : Hist => decide (h.unit = unit ∧ h.key = 0)
  let l := s.ras.hourRecs
  let l := if l.any own then l.map (fun h => if own h then { h with residue := min 255 (h.residue + 1) } else h)
    else l ++ [{ unit := unit, hour := 0, residue := 1 }]
  { s with ras := { s.ras with hourRecs := l } }

/-- The replay of a stopped suspect step starts, or its list ends when there can be none (18 R597). The scratchpads are
exchanged before the clear of 08 R304 (DESIGN CHOICE, log entry 30). -/
def replayStart (q : Nat) (s : State) : State :=
  match s.launches.find? (fun l => l.queue == q && awaitsReplay l) with
  | none => s
  | some l =>
    let det := stepDetails s l.suspectEpc l.queue l.start
    match choosePairs s l with
    | none => launchGone l 5 (record 2 (coreUnit l.suspectCore 0) l.suspectOp det s)
    | some ps =>
      let cs := l.cores.map (swapCore ps)
      if (takenCores l ps).all (coreFree s) then
        let fg := match ps.head? with | some p => [BitVec.ofNat 8 p.1, BitVec.ofNat 8 p.2] | none => []
        let l' := { l with suspect := [], status := 0, pairs := ps, replayed := true, left := cs }
        let s := if l.suspectOp = 0x20 then s else noteFailure (coreUnit l.suspectCore 0) s
        let s := record 0 (coreUnit l.suspectCore 0) 0x30 (det ++ fg) (swapFields ps s)
        let s := { s with launches := s.launches.map (fun x => if x = l then l' else x) }
        l.cores.foldl (fun s c => startCore l' (swapCore ps c) c s) s
      else s

def execReplayStart (q : QueueId) (s : State) : Host.Outcome State Fault Refusal := .next (replayStart q s)

end Sys2Proof.Machine
end

