-- ==== Sys2Proof/Machine/CoreOps.lean ====
section
/-! DEFINITION. What every core instruction shares: reading and writing registers, segment checks (03 R134), the
judgement and taking of an exception (04 R174-R177), which event is deliverable (04 R180), issue and retirement
(03 R127, R150, R151). -/

namespace Sys2Proof.Machine

/-! ## Causes (04 R173) -/

/-- The level of a cause. -/
def causeLevel (code : Nat) : Nat :=
  if code = 8 then 3 else if code = 0x11 then 5
  else if code = 0x0D ∨ code = 0x0E ∨ code = 0x0F ∨ code = 0x10 ∨ code = 0x13 then 7 else 6

/-- Whether a cause's target is the machine bank. -/
def causeMachine (code : Nat) : Bool :=
  code = 0x0D ∨ code = 0x0E ∨ code = 0x0F ∨ code = 0x10 ∨ code = 0x13

/-- The status register as the bank `m` shows it (04 R166, R167). -/
def statusWord (k : Scalar) (m : Bool) : Nat :=
  let b := if m && !k.xb then k.mach else k.sup
  k.pl.toNat * 2 ^ 30 + k.ml.toNat * 2 ^ 27 + b.spl.toNat * 2 ^ 24 + b.sml.toNat * 2 ^ 21
    + (if m && k.xb then 2 ^ 20 else 0) + k.ie.toNat * 2 ^ 8 + k.ip.toNat

/-- The cause register (04 R168). -/
def causeWord (code lvl info : Nat) (bd async : Bool) : Word32 :=
  BitVec.ofNat 32 ((if bd then 2 ^ 31 else 0) + (if async then 2 ^ 30 else 0) + lvl * 2 ^ 27 + info % 2 ^ 16 * 2 ^ 8 + code)

/-- epc (04 R170). -/
def epcWord (h : BitVec 7) (off : BitVec 48) : Word64 := BitVec.ofNat 64 (h.toNat * 2 ^ 57 + off.toNat / 4 * 4)

/-- The machine code segment of a core, installed through its debug window (04 R171, 19 R645), with read and execute
permission and the class of its memory (03 R133). -/
def machineCode (s : State) (c : Nat) : CodeSeg :=
  let b := s.get F.dbgMsegBase_base c
  ⟨0x7F, BitVec.ofNat 48 b, BitVec.ofNat 48 (s.get F.dbgMsegLimit_limit c), true,
   match regionOf b with | .near => 1 | .far => 2 | .host => 3 | _ => 0, true⟩

/-- An event taken (04 R177): code, level, info, asynchronous, and its source for the vector slot. -/
structure Event where
  code : Nat
  lvl : Nat
  info : Nat := 0
  async : Bool := false
  source : Nat := 0
deriving DecidableEq, Repr

/-! ## A tile load or store that stops (06 R228, R235) -/

/-- Operand tile i. -/
def Core.tile (k : Core) (i : Nat) : Tile := mget k.tiles i {}

/-- An operand tile changed. -/
def setTile (c i : Nat) (f : Tile → Tile) (s : State) : State :=
  s.updCore c (fun k => { k with tiles := mput k.tiles i (f (k.tile i)) })

/-- The unit an instruction names. -/
def tUnit (w : Word32) : Nat := fld w 25 22

/-- The operation. -/
def tOp (w : Word32) : Nat := fld w 11 9

/-- `tprog` as a stop after j rows leaves it. -/
def tprogWord (w : Word32) (j : Nat) : Word32 := BitVec.ofNat 32 (2 ^ 31 + tUnit w * 2 ^ 24 + tOp w * 2 ^ 16 + j)

/-- A tile load or store stops after j rows (06 R235). -/
def tileStop (c : Nat) (w : Word32) (j : Nat) (s : State) : State :=
  let s := s.updCore c (fun k => { k with tprog := tprogWord w j })
  if tOp w = 1 ∨ 8 ≤ tUnit w then s else setTile c (tUnit w) (fun t => { t with st := .partialLoad }) s

/-- What an event taken mid-instruction leaves of it: a tile load or store stops after its completed rows. -/
def leaveRows (c : Nat) (s : State) : State :=
  match (s.core c).wait with
  | .rows w j _ => tileStop c w j s
  | _ => s

/-! ## Entry -/

/-- Entry to the machine bank (`m`) or the supervisor bank, as one step (04 R177, R187, 03 R132). What the core still
waited for comes to nothing; fills go on. -/
def enterBank (c : Nat) (m : Bool) (ev : Event) (s : State) : State :=
  let s := dropReads c ReqKind.isRead s
  let k := s.core c
  let x := k.sc
  let (off, bd, sh) := match x.slot with
    | some b => (b.branchPc, true, b.shadow)
    | none => (x.pc, false, x.shadow)
  let bank : Bank := ⟨x.pl, x.ml, causeWord ev.code ev.lvl ev.info bd ev.async, epcWord x.code.handle off⟩
  let evec := if m then s.reg .dbgMevec c else x.evec
  let code := if m then machineCode s c else
    (handleCode k (evec.toNat / 2 ^ 58)).getD { handle := BitVec.ofNat 7 (evec.toNat / 2 ^ 58) }
  let slotNo := if ev.code = 0 then 0x18 + ev.source else ev.code
  let pc := natBits evec.toNat 47 12 * 4096 + (if natBit evec.toNat 1 then 0x40 * slotNo else 0)
  s.setCore c { k with
    wait := .none
    dcache := k.dcache.abandon
    rdWait := []
    parts := []
    maint := []
    entered := some m
    sc := { x with
      sup := if m then x.sup else bank
      mach := if m then bank else x.mach
      ldsReg := match sh with
        | some h => BitVec.ofNat 32 (2 ^ 31 + h.reg.toNat)
        | none => x.ldsReg &&& 0x7FFFFFFF
      ldsOld := match sh with | some h => h.old | none => x.ldsOld
      pl := if m then 3 else 1
      ml := if m then 7 else BitVec.ofNat 3 ev.lvl
      code := code
      pc := BitVec.ofNat 48 pc
      slot := none
      shadow := none } }

/-- The fault of fetching at the pc (03 R128, 04 R169). -/
def fetchFault (k : Scalar) : Option Fail :=
  if !k.code.x then some ⟨4, 8⟩ else if k.code.limit.toNat ≤ k.pc.toNat then some ⟨3, 8⟩ else none

/-- The status a part ends with for the code judged (04 R175). -/
def faultStatus (code : Nat) : Nat := if code = 0x0E then 6 else 5

/-- A core stops (04 R175): it executes nothing further, a record of op 0x0040 names it, and its part in the kernel
ends as a fault. -/
def stopCore (c code : Nat) (s : State) : State :=
  let k := s.core c
  let off := match k.sc.slot with | some b => b.branchPc | none => k.sc.pc
  stopPart c (faultStatus code) (record 2 (coreUnit c 0) 0x40
    (leBytes 8 (epcWord k.sc.code.handle off).toNat ++ leBytes 4 (statusWord k.sc (k.sc.pl == 3)) ++ leBytes 6 0
      ++ [BitVec.ofNat 8 code]) s)

/-- The fetch of the handler's first instruction is judged by no level (04 R177). -/
def checkHandler (c : Nat) (s : State) : State :=
  match fetchFault (s.core c).sc with
  | none => s
  | some f =>
    if (s.core c).sc.pl = 3 then stopCore c f.code s else
    let s := enterBank c true ⟨0x10, 7, f.code + 6 * 2 ^ 8, false, 0⟩ s
    match fetchFault (s.core c).sc with
    | none => s
    | some g => stopCore c g.code s

/-- An uncorrectable line met by the fetch of a handler's first instruction, of the machine bank (`m`) or the
supervisor's (04 R177, 08 R320). -/
def handlerFetchUe (c : Nat) (m : Bool) (s : State) : State :=
  if m then stopCore c 0xE s
  else checkHandler c (enterBank c true ⟨0x10, 7, 0xE + 7 * 2 ^ 8, false, 0⟩ s)

/-- A residue failure counts in the risk inputs (16 R544). -/
def residueRisk (s : State) : State := { s with mirror := { s.mirror with riskRes := s.mirror.riskRes + 1 } }

/-- A synchronous fault is judged and entered (04 R174). -/
def judgeFault (c : Nat) (f : Fail) (s : State) : State :=
  let s := if f.code = 0xF then residueRisk s else s
  let x := (s.core c).sc
  let l := causeLevel f.code
  if x.pl = 3 then
    if l ≤ x.ml.toNat then stopCore c f.code s
    else checkHandler c (enterBank c true ⟨f.code, l, f.info, false, 0⟩ s)
  else if causeMachine f.code then checkHandler c (enterBank c true ⟨f.code, l, f.info, false, 0⟩ s)
  else if l ≤ x.ml.toNat ∨ ¬ natBit x.evec.toNat 0 then
    checkHandler c (enterBank c true ⟨0x10, 7, f.code + l * 2 ^ 8, false, 0⟩ s)
  else checkHandler c (enterBank c false ⟨f.code, l, f.info, false, 0⟩ s)

/-- Takes a synchronous fault. Cause 0x13 halts the core of an attached debugger (19 R647). -/
def takeFault (c : Nat) (f : Fail) (s : State) : State :=
  let s := judgeFault c f s
  if f.code = 0x13 ∧ dbgAttached s = true then s.updCore c (fun k => { k with halted := true }) else s

/-! ## Asynchronous events (04 R179-R182) -/

/-- The sources: ip bit, cause code, level, machine target, enable bit of `ie`. -/
def sources : List (Nat × Nat × Nat × Bool × Option Nat) :=
  [(7, 0, 7, true, none), (4, 0x11, 5, false, none), (2, 0, 4, false, some 2), (3, 0, 4, false, some 3),
   (1, 0, 2, false, some 1), (0, 0, 1, false, some 0)]

/-- Pending and enabled (04 R180). -/
def pendEnabled (k : Scalar) (b : Nat × Nat × Nat × Bool × Option Nat) : Bool :=
  natBit k.ip.toNat b.1 && (match b.2.2.2.2 with | some e => natBit k.ie.toNat e | none => true)

/-- Deliverable (04 R180). -/
def deliverableSource (k : Scalar) (b : Nat × Nat × Nat × Bool × Option Nat) : Bool :=
  pendEnabled k b && decide (k.ml.toNat < b.2.2.1) && (b.2.2.2.1 || decide (k.pl.toNat ≤ 1))

/-- The event to take: the highest level, then the lower ip bit (04 R182); `sources` is in that order. -/
def deliverable (k : Scalar) : Option (Nat × Nat × Nat × Bool × Option Nat) := sources.find? (deliverableSource k)

/-- Whether the core stands between instructions, at an element of a `blk` or at a row of a tile access (04 R182, R187,
03 R146, 06 R235). A scalar load whose data has not returned has not executed (DEDUCED, log entry 54). -/
def boundary (k : Core) : Bool :=
  k.sc.divide.isNone &&
  (match k.wait with
   | .none => k.sc.slot.isNone
   | .retry | .grant _ _ | .load _ _ _ _ | .elem | .rows _ _ false => true
   | _ => false)

/-- Whether an event may be taken now: no vector store waits for its fills (05 R220). -/
def atBoundary (k : Core) : Bool := boundary k && k.dcache.miss.all (fun m => !m.vec)

/-- Whether the core runs and no debugger holds it (19 R647). -/
def unheld (k : Core) : Bool := k.run == .running && (!k.halted || k.step)

/-- Whether something is to be taken before the core goes on (04 R182, 06 R254): an event at any boundary, the trap of a
`tmma` at that of an instruction. -/
def eventFirst (k : Core) : Bool :=
  unheld k && boundary k && ((deliverable k.sc).isSome || (k.nanTrap.isSome && !k.wait.midway))

/-- Whether the core may issue: running, not held between instructions, not waiting, and nothing to be taken first
(04 R182). -/
def canIssue (k : Core) : Bool :=
  k.run == .running && (!k.halted || k.step || k.wait.midway) && (k.wait == .none || k.wait == .retry || k.wait.midway) &&
  !eventFirst k

/-! ## Issue and retirement -/

/-- What an instruction does once its decode checks pass: retire (with the load whose delay slot comes next),
transfer with a delay slot, retire to an offset of its own choosing, raise a fault, or wait. -/
inductive Eff where
  | done (s : State) (sh : Option Shadow := none)
  | branch (target : Option (BitVec 48)) (s : State)
  | goto (pc : BitVec 48) (s : State) (sh : Option Shadow := none)
  | trap (f : Fail) (s : State)
  | stay (w : Wait) (s : State)

/-- The kinds of instruction that 03 R127 and R151 treat alike. -/
inductive Kind where
  | plain
  | control
deriving DecidableEq, Repr

/-- The offset after an instruction outside a delay slot, with the loop counts (03 R150). -/
def loopNext (k : Scalar) : BitVec 48 × List (Nat × Word32) :=
  let lc1 := mget k.lc 1 0
  let lc0 := mget k.lc 0 0
  let in1 := lc1 ≠ 0 ∧ k.pc = mget k.le 1 0
  let lcs := if in1 then mput k.lc 1 (lc1 - 1) else k.lc
  if in1 ∧ lc1 - 1 ≠ 0 then (mget k.ls 1 0, lcs) else
  if lc0 ≠ 0 ∧ k.pc = mget k.le 0 0 then
    (if lc0 - 1 ≠ 0 then mget k.ls 0 0 else k.pc + 4, mput lcs 0 (lc0 - 1))
  else (k.pc + 4, lcs)

/-- The state of the scalar core after an instruction retires: next offset, delay slot and load shadow over, and an
armed substitution spent (03 R132, R150); it is counted (20 R662, event 0x02). -/
def retireSc (sh : Option Shadow) (k : Scalar) : Scalar :=
  let k := pctrScalar 2 1 k
  let spent := match k.shadow with | some h => h.armed | none => false
  let k := { k with ldsReg := if spent then k.ldsReg &&& 0x7FFFFFFF else k.ldsReg, shadow := sh }
  match k.slot with
  | some b => { k with pc := b.target.getD (k.pc + 4), slot := none }
  | none => { k with pc := (loopNext k).1, lc := (loopNext k).2 }

/-- A branch or jump retires: its delay slot is next (03 R127). -/
def branchSc (t : Option (BitVec 48)) (k : Scalar) : Scalar :=
  let k := pctrScalar 2 1 k
  let spent := match k.shadow with | some h => h.armed | none => false
  { k with
    ldsReg := if spent then k.ldsReg &&& 0x7FFFFFFF else k.ldsReg
    slot := some ⟨k.pc, t, k.shadow⟩
    shadow := none
    pc := k.pc + 4 }

/-- The loop hazard (03 R151): the instruction at an active loop's end is of a kind, or at a place, not allowed. -/
def loopHazard (kind : Kind) (k : Scalar) : Bool :=
  let atEnd := (mget k.lc 0 0 ≠ 0 ∧ k.pc = mget k.le 0 0) ∨ (mget k.lc 1 0 ≠ 0 ∧ k.pc = mget k.le 1 0)
  decide atEnd && (kind == .control || k.slot.isSome)

/-- Finishes an instruction: what its effect leaves, as the core's next state. While a divide is in flight no
exception is taken: the core waits (03 R123). -/
def finish (c : Nat) (s0 : State) (e : Eff) : State :=
  match e with
  | .done s sh => s.updCore c (fun k => { k with
      sc := retireSc sh k.sc, wait := .none, step := false, parts := [], entered := none })
  | .branch t s => s.updCore c (fun k => { k with
      sc := branchSc t k.sc, wait := .none, step := false, parts := [], entered := none })
  | .goto pc s sh => s.updCore c (fun k => { k with
      sc := { retireSc sh k.sc with pc := pc, lc := k.sc.lc }, wait := .none, step := false, parts := [], entered := none })
  | .trap f s => if (s0.core c).sc.divide.isSome then s0 else
      (takeFault c f s).updCore c (fun k => { k with step := false })
  | .stay w s => s.updCore c (fun k => { k with wait := w })

/-- Issues an instruction at core c: fetch, decode and loop checks in the order of 04 R176, then its body. A fetch that
misses the instruction cache stalls (08 R319). A word that is no instruction's is illegal whichever row carries it
(03 R117, log entry 9). `srcs` are the g registers it reads,
interlocked with a divide in flight (03 R123). `dec` is its own decode check. -/
def issue (c : Nat) (w : Word32) (kind : Kind) (srcs : List Nat) (dec : Core → Option Fail) (body : Core → State → Eff)
    (s : State) : State :=
  let k := s.core c
  if !canIssue k then s
  else if (match k.sc.divide with | some d => decide (d.rd ≠ 0 ∧ d.rd.toNat ∈ srcs) | none => false) then s
  else finish c s <|
    match fetchFault k.sc with
    | some f => .trap f s
    | none =>
      let r := fetch c s
      if !r.2 then .stay k.wait r.1 else
      let s := r.1
      let k := s.core c
      if reservedWord w ∨ (kind = .control ∧ k.sc.slot.isSome) then .trap ⟨1, 0⟩ s else
      match dec k with
      | some f => .trap f s
      | none => if loopHazard kind k.sc then .trap ⟨0x0C, 0⟩ s else body k s

/-- Whether service-core SRAM at a is closed to a core: its mailbox opens at machine level. -/
def sramClosed (c : Nat) (k : Scalar) (a n : Nat) : Bool :=
  match regionOf a with
  | .spad j => decide (1152 ≤ j) && !isService c && !(k.pl == 3 && decide (a % 0x20_0000 + n ≤ 0x1_0000))
  | _ => false

/-- Illegal instruction unless the condition holds (03 R117). -/
def legal (b : Bool) : Core → Option Fail := fun _ => if b then none else some ⟨1, 0⟩

/-- An instruction of a unit a service core lacks (03 R119). -/
def computeOnly (c : Nat) (b : Bool) : Core → Option Fail := legal (b && !isService c)

/-- Writes g[rd] and retires. -/
def writeG (c rd : Nat) (v : Word64) (s : State) : Eff := .done (s.updSc c (fun k => k.setG rd v))

end Sys2Proof.Machine
end

