-- ==== Sys2Proof/Machine/Channel.lean ====
section
/-! DEFINITION. Channels, messages and datagrams (11): the instructions of major 0x19 but `cbsend`, and the arrivals
of their packets. -/

namespace Sys2Proof.Machine

/-- Bytes of the window at the start of which the core's own rings lie: its scratchpad, or a service core's mailbox
(11 R394, 19 R626). -/
def ownBytes (c : Nat) : Nat := if isService c then 0x1_0000 else 0x10_0000

/-- The checks of a channel operand: permission, own scratchpad, limit, alignment (11 R394; the place of the second is the
model's: DESIGN CHOICE, log entry 17). -/
def checkOwn (c : Nat) (k : Scalar) (i o n align : Nat) (write : Bool) : Option Fail :=
  let g := k.sgm i
  let info := i + (if write then 16 else 0)
  if (if write then !g.w else !g.r) then some ⟨4, info⟩
  else if g.cls ≠ 0 ∨ g.base.toNat < ownBase c ∨ ownBase c + ownBytes c < g.base.toNat + min g.limit.toNat (o + n) then
    some ⟨4, info⟩
  else checkSeg k i o n align write

/-- The checks of a payload: one of no units needs read permission only (11 R394). -/
def checkPayload (c : Nat) (k : Scalar) (i o n : Nat) : Option Fail :=
  if n = 0 then (if (k.sgm i).r then none else some ⟨4, i⟩) else checkOwn c k i o n 8 false

/-- The entry header (11 R396). -/
def entryHeader (mtag src len8 seq : Nat) (dg poison skip : Bool) : List Byte :=
  leBytes 8 (mtag * 2 ^ 48 + src * 2 ^ 32 + (if dg then 2 ^ 31 else 0) + (if poison then 2 ^ 30 else 0)
    + (if skip then 2 ^ 29 else 0) + len8 * 2 ^ 16 + seq % 2 ^ 16)

/-- Fields that must be 0 for a function of major 0x19, and the functions a service core has (11 R393, R394). -/
def chanDec (c : Nat) (dgOnly : Bool) (b : Bool) : Core → Option Fail := legal (b && (dgOnly || !isService c))

/-! ## Rings -/

/-- Whether byte ranges [a, a + n) and [b, b + m) meet. -/
def overlaps (a n b m : Nat) : Bool := decide (a < b + m ∧ b < a + n)

/-- `rxopen` (11 R395). -/
def rxopen (c : CoreId) (w : Word32) (s : State) : State :=
  issue c w .plain [raOf w, rbOf w] (chanDec c false (rdOf w == 0 && fld w 7 3 == 0 && fld w 11 8 == 0))
    (fun k s =>
      let gb := (k.sc.gr (rbOf w)).toNat
      let o := (k.sc.gr (raOf w)).toNat
      let r := natBits gb 3 0
      let kk := natBits gb 7 4
      let S := 2 ^ (kk + 8)
      let comb := natBit gb 8
      let p := natBits gb 11 9
      let G := natBits gb 26 16
      let base := segAddr k.sc (fld w 2 0) o - ownBase (xlatCore s c c)
      match checkOwn (xlatCore s c c) k.sc (fld w 2 0) o S S true with
      | some f => .trap f s
      | none =>
        if 8 < kk ∨ natBits gb 63 27 ≠ 0 ∨ natBits gb 15 12 ≠ 0 ∨ (comb = true ∧ (5 < p ∨ S < 64 * 2 ^ p ∨ G = 0 ∨ 1152 < G)) ∨
           (comb = false ∧ (p ≠ 0 ∨ G ≠ 0)) ∨ (k.chan.ring r).isSome ∨
           k.chan.rx.any (fun q => overlaps base S q.2.base q.2.size) then .trap ⟨0xB, 0⟩ s
        else .done (s.updChan c (fun h => h.setRing r
          { base := base, size := S, comb := comb, slotBytes := if comb then 64 * 2 ^ p else 0, group := G }))) s

/-- `rxclose` (11 R406). -/
def rxclose (c : CoreId) (w : Word32) (s : State) : State :=
  issue c w .plain [raOf w] (chanDec c false (rdOf w == 0 && rbOf w == 0 && fld w 7 0 == 0))
    (fun k s =>
      let r := (k.sc.gr (raOf w)).toNat
      if 16 < r then .trap ⟨0xB, 0⟩ s else .done (closeRing c r s)) s

/-- `chclose` (11 R405); of a channel that is not open it is refused (DESIGN CHOICE, log entry 31). -/
def chclose (c : CoreId) (w : Word32) (s : State) : State :=
  issue c w .plain [raOf w] (chanDec c false (rdOf w == 0 && rbOf w == 0 && fld w 7 0 == 0))
    (fun k s =>
      let i := (k.sc.gr (raOf w)).toNat
      match (if i < 16 then k.chan.send i else none) with
      | some q => if q.isOpen then .done (closeSend c i s) else .trap ⟨0xB, 0⟩ s
      | none => .trap ⟨0xB, 0⟩ s) s

/-- The refusal result of a `chopen` (11 R402). -/
def chopenResult (c rd i reason : Nat) (nf : Bool) (s : State) : Eff :=
  if reason = 0 then writeG c rd (BitVec.ofNat 64 i) s
  else if nf then writeG c rd (BitVec.ofNat 64 (2 ^ 63 + reason)) s
  else .trap ⟨0xB, 0⟩ s

/-- `chopen` (11 R402, R403): takes a kept result, waits for one, or reserves a channel and sends the request. An operand out
of range is refused with nf set too (DESIGN CHOICE, log entry 31). -/
def chopen (c : CoreId) (w : Word32) (s : State) : State :=
  issue c w .plain [raOf w, rbOf w] (chanDec c false (fld w 7 1 == 0))
    (fun k s =>
      let dst := xlatCore s c (k.sc.gr (raOf w)).toNat
      let ring := (k.sc.gr (rbOf w)).toNat
      let nf := natBit w.toNat 0
      if 2 ^ 11 ≤ dst ∨ 16 ≤ ring then .trap ⟨0xB, 0⟩ s else
      match k.chan.tx.find? (fun p => !p.2.isOpen && p.2.dst == dst && p.2.ring == ring) with
      | some (i, q) =>
        match q.reply with
        | none => .stay .retry s
        | some 0 => chopenResult c (rdOf w) i 0 nf (s.updChan c (fun h => h.setSend i { q with isOpen := true, reply := none }))
        | some r => chopenResult c (rdOf w) i r nf (s.updChan c (fun h => h.dropSend i))
      | none =>
        match k.chan.freeSend with
        | none => chopenResult c (rdOf w) 0 4 nf s
        | some i =>
          if 1151 < dst then chopenResult c (rdOf w) i 3 nf s else
          .stay .retry (sendMsg c dst (.openReq i ring k.sc.stage.toNat k.sc.ctx)
            (s.updChan c (fun h => h.setSend i { dst := dst, ring := ring })))) s

/-! ## Sending -/

/-- Reads a payload through the core's own port: nothing when a word is uncorrectable (11 R419). -/
def ownRead (c a n : Nat) (e : Ecc) (s : State) : State × Option (List Byte) := memRead a n e (coreUnit c 0) s

/-- `chsend` (11 R397, R404). -/
def chsend (c : CoreId) (w : Word32) (e : Ecc) (s : State) : State :=
  issue c w .plain [rdOf w, raOf w, rbOf w] (chanDec c false (fld w 7 3 == 0))
    (fun k s =>
      let i := (k.sc.gr (rdOf w)).toNat
      let o := (k.sc.gr (raOf w)).toNat
      let gb := (k.sc.gr (rbOf w)).toNat
      let u := natBits gb 8 0
      let L := 8 * (u + 1)
      match checkPayload (xlatCore s c c) k.sc (fld w 2 0) o (8 * u) with
      | some f => .trap f s
      | none =>
        match (if i < 16 then k.chan.send i else none) with
        | none => .trap ⟨0xB, 0⟩ s
        | some q =>
          if !q.isOpen || q.broken || natBits gb 15 9 ≠ 0 || natBits gb 63 32 ≠ 0 || q.size < L then .trap ⟨0xB, 0⟩ s else
          let r := q.T % q.size
          if q.size < r + L then
            if q.T + 8 - q.H ≤ q.size then
              let len8 := (q.size - r) / 8
              .stay .retry (sendMsg c q.dst (.message i q.ring r (entryHeader 0 c len8 q.seq false false true) true)
                (s.updChan c (fun h => h.setSend i { q with T := q.T + q.size - r })))
            else .stay .retry s
          else if q.size < q.T + L - q.H then .stay .retry s
          else
            match ownRead c (xlatAddr s c (segAddr k.sc (fld w 2 0) o)) (8 * u) e s with
            | (s, none) => .trap ⟨0xE, 0⟩ s
            | (s, some bytes) =>
              .done (sendMsg c q.dst
                (.message i q.ring r (entryHeader (natBits gb 31 16) c (u + 1) q.seq false false false ++ bytes) false)
                (s.updChan c (fun h => h.setSend i { q with T := q.T + L, seq := (q.seq + 1) % 2 ^ 16 })))) s

/-! ## Receiving -/

/-- Consumes the head entry: H advances and the bound sender is told (11 R398). -/
def consume (c r : Nat) (s : State) : State :=
  match (s.core c).chan.ring r with
  | none => s
  | some q =>
    match q.entries with
    | [] => s
    | en :: t =>
      let H := q.H + 8 * en.len8
      let s := s.updChan c (fun h => h.setRing r { q with entries := t, H := H })
      match q.bound with
      | some (src, ch) => sendMsg c src (.space ch H) s
      | none => s

/-- Consumes the skip marker at the head, if there is one (11 R400). Two markers never stand next to each other. -/
def consumeSkip (c r : Nat) (s : State) : State :=
  match (s.core c).chan.ring r with
  | some q => match q.entries with
    | en :: _ => if en.skip then consume c r s else s
    | [] => s
  | none => s

/-- The slot of a combining queue with the oldest round (11 R409); rounds are compared modulo 4,096. -/
def oldestSlot (l : List (Nat × CombSlot)) : Option (Nat × CombSlot) :=
  l.foldl (fun best p => match best with
    | none => some p
    | some b => if (b.2.round + 4096 - p.2.round) % 4096 < 2048 then some p else best) none

/-- What a ring offers: an entry's header offset, length in 8-byte units and poison, or that it has ended. -/
inductive Offer where
  | nothing
  | ended
  | entry (off len8 : Nat) (poison : Bool)
deriving DecidableEq, Repr

/-- What ring q offers, skip markers at the head left out. -/
def ringOffer (q : RxRing) : Offer :=
  if q.comb then
    match oldestSlot q.slots with
    | some (i, sl) => if sl.ready then .entry (q.base + i * q.slotBytes) (q.slotBytes / 8) sl.hdr.poison else .nothing
    | none => .nothing
  else
    match q.entries.filter (fun en => !en.skip) with
    | en :: _ => .entry en.off en.len8 en.poison
    | [] => if q.endMark then .ended else .nothing

/-- `chrecv` (11 R400). -/
def chrecv (c : CoreId) (w : Word32) (s : State) : State :=
  issue c w .plain [raOf w] (chanDec c false (rbOf w == 0 && fld w 7 1 == 0))
    (fun k s =>
      let r := (k.sc.gr (raOf w)).toNat
      match (if r ≤ 16 then k.chan.ring r else none) with
      | none => .trap ⟨0xB, 0⟩ s
      | some q =>
        if q.failed then .trap ⟨0xB, 0⟩ s else
        let s := consumeSkip c r s
        match ringOffer q with
        | .entry off len8 poison =>
          writeG c (rdOf w) (BitVec.ofNat 64 (off + len8 * 2 ^ 32 + (if poison then 2 ^ 61 else 0))) s
        | .ended => writeG c (rdOf w) (BitVec.ofNat 64 (2 ^ 62)) s
        | .nothing => if natBit w.toNat 0 then writeG c (rdOf w) (BitVec.ofNat 64 (2 ^ 63)) s else .stay .retry s) s

/-- `chdone` (11 R400, R409). -/
def chdone (c : CoreId) (w : Word32) (s : State) : State :=
  issue c w .plain [raOf w] (chanDec c false (rdOf w == 0 && rbOf w == 0 && fld w 7 0 == 0))
    (fun k s =>
      let r := (k.sc.gr (raOf w)).toNat
      match (if r ≤ 16 then k.chan.ring r else none) with
      | none => .trap ⟨0xB, 0⟩ s
      | some q =>
        if q.failed then .trap ⟨0xB, 0⟩ s else
        match ringOffer q with
        | .entry _ _ _ =>
          if q.comb then
            match oldestSlot q.slots with
            | some (i, _) => .done (s.updChan c (fun h => h.setRing r { q with slots := q.slots.filter (fun p => p.1 != i) }))
            | none => .done s
          else .done (consume c r (consumeSkip c r s))
        | _ => .trap ⟨0xB, 0⟩ s) s

/-- `chsel` (11 R400): the lowest ring of the mask that offers something. -/
def chsel (c : CoreId) (w : Word32) (s : State) : State :=
  issue c w .plain [raOf w] (chanDec c false (rbOf w == 0 && fld w 7 1 == 0))
    (fun k s =>
      let m := (k.sc.gr (raOf w)).toNat
      if 2 ^ 17 ≤ m then .trap ⟨0xB, 0⟩ s else
      match (nats 17 0 1).find? (fun r => natBit m r &&
          (match k.chan.ring r with | some q => ringOffer q != .nothing | none => false)) with
      | some r => writeG c (rdOf w) (BitVec.ofNat 64 r) s
      | none => if natBit w.toNat 0 then writeG c (rdOf w) (BitVec.ofNat 64 (2 ^ 63)) s else .stay .retry s) s

/-! ## Datagrams (11 R413-R417) -/

/-- `dgring` (11 R413). -/
def dgring (c : CoreId) (w : Word32) (s : State) : State :=
  issue c w .plain [raOf w, rbOf w] (chanDec c true (rdOf w == 0 && fld w 7 3 == 0))
    (fun k s =>
      let gb := (k.sc.gr (rbOf w)).toNat
      let o := (k.sc.gr (raOf w)).toNat
      let kk := natBits gb 3 0
      let S := 2 ^ (kk + 8)
      if natBit gb 4 then
        match checkOwn (xlatCore s c c) k.sc (fld w 2 0) o S S true with
        | some f => .trap f s
        | none =>
          let base := segAddr k.sc (fld w 2 0) o - ownBase (xlatCore s c c)
          if 8 < kk ∨ 32 ≤ gb ∨ k.chan.rx.any (fun q => q.1 != 16 && overlaps base S q.2.base q.2.size) then .trap ⟨0xB, 0⟩ s
          else .done (s.updChan c (fun h => h.setRing 16 { base := base, size := S }))
      else if gb ≠ 0 then .trap ⟨0xB, 0⟩ s
      else .done (s.updChan c (fun h => h.dropRing 16))) s

/-- The result of a datagram send (11 R414). -/
def dgResult (t : List (Nat × Option Nat)) : Nat :=
  let acc := (t.filter (fun p => p.2 == some 0)).length
  let ref := t.filter (fun p => p.2 != some 0)
  let low := ref.foldl (fun (b : Option (Nat × Nat)) p => match b with
    | none => some (p.1, p.2.getD 0)
    | some q => if p.1 < q.1 then some (p.1, p.2.getD 0) else b) none
  acc + ref.length * 2 ^ 16 + (match low with | some q => q.2 | none => 0) * 2 ^ 32

/-- `dgsend` and `dgsendm` once their operands are checked (11 R414, R416). -/
def dgSendTo (c : Nat) (w : Word32) (targets : List Nat) (a u tag : Nat) (e : Ecc) (k : Core) (s : State) : Eff :=
  let pending := match k.chan.dgRec with
    | some r => r.targets.any (fun p => p.2.isNone)
    | none => false
  let same := match k.chan.dgRec with
    | some r => r.pc == k.sc.pc && r.handle == k.sc.code.handle
    | none => false
  if pending then .stay .retry s
  else if same then
    writeG c (rdOf w) (BitVec.ofNat 64 (match k.chan.dgRec with | some r => dgResult r.targets | none => 0))
      (s.updChan c (fun h => { h with dgRec := none }))
  else
    match ownRead c a (8 * u) e s with
    | (s, none) => .trap ⟨0xE, 0⟩ s
    | (s, some bytes) =>
      let dg : MsgKind := .datagram k.chan.dgSeq tag bytes (kernelCtx k)
      let s := if targets.isEmpty then s else injectTree c (targets.map coreXY) 2 (flits dg.size 112)
        { s with msgs := s.msgs ++ targets.map (fun t => ⟨c, t, dg⟩) }
      let s := s.updChan c (fun h => { h with dgSeq := h.dgSeq + 1, dgRec := none })
      if targets.isEmpty then writeG c (rdOf w) 0 s
      else .stay .retry (s.updChan c (fun h => { h with
        dgRec := some ⟨k.sc.pc, k.sc.code.handle, targets.map (fun t => (t, none))⟩ }))

/-- `dgsend` (`multi` = false) or `dgsendm`. -/
def dgsend (multi : Bool) (c : CoreId) (w : Word32) (e : Ecc) (s : State) : State :=
  issue c w .plain [rdOf w, raOf w, rbOf w] (chanDec c true (fld w 7 3 == 0))
    (fun k s =>
      let o := (k.sc.gr (raOf w)).toNat
      let gb := (k.sc.gr (rbOf w)).toNat
      let u := natBits gb 20 12
      let d := (k.sc.gr (rdOf w)).toNat
      match checkPayload (xlatCore s c c) k.sc (fld w 2 0) o (8 * u) with
      | some f => .trap f s
      | none =>
        if natBit gb 11 ∨ natBits gb 31 21 ≠ 0 ∨ natBits gb 63 48 ≠ 0 ∨ (multi = true ∧ natBits gb 10 0 ≠ 0) ∨
           (multi = false ∧ 1155 < natBits gb 10 0) then .trap ⟨0xB, 0⟩ s
        else if multi ∧ ¬ descOk d then .trap ⟨0xB, 0⟩ (refuseDesc s)
        else dgSendTo c w ((if multi then descCores d else [natBits gb 10 0]).map (xlatCore s c))
          (xlatAddr s c (segAddr k.sc (fld w 2 0) o)) u
          (natBits gb 47 32) e k s) s

/-- A multicast write leaves a core: one packet that is copied at the forks of its tree, and a copy for each target that
is behind what the core has sent there (10 R367, R372). -/
def sendMc (c : Nat) (ts : List Nat) (off : Nat) (bytes : List Byte) (ctx : BitVec 4) (s : State) : State :=
  if ts = [] then s else
  injectTree c (ts.map coreXY) 0 (flits bytes.length 112) { s with mcs := s.mcs ++ ts.map (fun t =>
    { src := c, dst := t, off := off, data := bytes, ctx := ctx,
      after := (s.reqs.filter (fun r => r.src == c && r.home == .spad t)).length }) }

/-- `mcwr` (11 R418, 10 R371): one copy for each target, each to be acknowledged. -/
def mcwr (c : CoreId) (w : Word32) (e : Ecc) (s : State) : State :=
  issue c w .plain [rdOf w, raOf w, rbOf w] (chanDec c false (fld w 7 3 == 0))
    (fun k s =>
      let o := (k.sc.gr (raOf w)).toNat
      let gb := (k.sc.gr (rbOf w)).toNat
      let n := natBits gb 32 20
      let d := (k.sc.gr (rdOf w)).toNat
      match checkOwn (xlatCore s c c) k.sc (fld w 2 0) o n 1 false with
      | some f => .trap f s
      | none =>
        if n = 0 ∨ 4096 < n ∨ natBits gb 63 33 ≠ 0 then .trap ⟨0xB, 0⟩ s
        else if ¬ descOk d then .trap ⟨0xB, 0⟩ (refuseDesc s)
        else
          match ownRead c (xlatAddr s c (segAddr k.sc (fld w 2 0) o)) n e s with
          | (s, none) => .trap ⟨0xE, 0⟩ s
          | (s, some bytes) =>
            let ts := (descCores d).map (xlatCore s c)
            .done ((sendMc c ts (natBits gb 19 0) bytes k.sc.ctx s).updCore c (fun k => { k with unacked := k.unacked + ts.length }))) s

/-! ## Arrivals -/

/-- Writes an arriving entry into a ring's bytes; a poisoned one is written with its poison bit and payload words
that read as uncorrectable (11 R401, R419). -/
def writeEntry (a : Nat) (bytes : List Byte) (poison : Bool) (s : State) : State :=
  let s := s.putBytes a bytes
  let gs := granules a bytes.length
  let s := { s with bad := s.bad.filter (· ∉ gs) }
  if poison then
    let s := s.putByte (a + 3) (s.byte (a + 3) ||| 0x40)
    { s with bad := s.bad ++ (granules (a + 8) (bytes.length - 8)) }
  else s

/-- The open request reaches its destination: bound or refused, and answered (11 R402). -/
def openRequestArrival (src : TileId) (d : Hop 1152) (s : State) : State :=
  let dst := d.stop
  match arrive src d s with
  | some (.openReq ch ring stage ctx, s) =>
    let k := s.core dst
    if !runsCtx s dst ctx then sendMsg dst src (.openReply ch 3 0) s
    else if k.sc.stage.toNat ≤ stage then sendMsg dst src (.openReply ch 1 0) s
    else
      match k.chan.ring ring with
      | some q =>
        if q.comb ∨ q.bound.isSome ∨ q.endMark then sendMsg dst src (.openReply ch 2 0) s
        else sendMsg dst src (.openReply ch 0 q.size) (s.updChan dst (fun h => h.setRing ring { q with bound := some (src, ch) }))
      | none => sendMsg dst src (.openReply ch 2 0) s
  | _ => s

/-- The answer reaches the opener and is kept in the channel (11 R403). -/
def openReplyArrival (src : TileId) (d : Hop 1152) (s : State) : State :=
  let dst := d.stop
  match arrive src d s with
  | some (.openReply ch reason size, s) =>
    if (ch, src.val) ∈ (s.core dst).staleOpens then
      s.updCore dst (fun k => { k with staleOpens := k.staleOpens.erase (ch, src.val) })
    else
      match (s.core dst).chan.send ch with
      | some q => s.updChan dst (fun h => h.setSend ch { q with reply := some reason, size := size })
      | none => s
  | _ => s

/-- A delivery is dropped and counted (10 R373). -/
def dropDelivery (s : State) : State := raise F.mshEvtStat_ctx_drop (s.bump F.mshDropCnt_ctx_drop)

/-- A message or skip marker is written into its ring and becomes ready (11 R401, R406, R419). -/
def messageArrival (src dst : TileId) (t : Transit) (s : State) : State :=
  match takeMsg src dst s with
  | some (.message ch ring pos bytes skip, s) =>
    let (s, poison) := transit t s
    match (s.core dst).chan.ring ring with
    | some q =>
      if q.failed ∨ q.bound ≠ some (src.val, ch) then dropDelivery s
      else
        let s := writeEntry (ownBase dst + q.base + pos) bytes poison s
        s.updChan dst (fun h => h.setRing ring { q with
          entries := q.entries ++ [⟨q.base + pos, leAt bytes 2 2 % 2 ^ 13, skip, poison⟩] })
    | none => dropDelivery s
  | _ => s

/-- The receiver's H reaches the sender (11 R398). One that comes before the reply of the channel's opening, or from
another core, is of an earlier channel of that number. -/
def spaceUpdateArrival (src : TileId) (d : Hop 1152) (s : State) : State :=
  let dst := d.stop
  match arrive src d s with
  | some (.space ch H, s) =>
    match (s.core dst).chan.send ch with
    | some q => if q.isOpen && q.dst == src then s.updChan dst (fun h => h.setSend ch { q with H := H }) else s
    | none => s
  | _ => s

/-- The end marker arrives behind the channel's messages (11 R405). -/
def endMarkerArrival (src : TileId) (d : Hop 1152) (s : State) : State :=
  let dst := d.stop
  match arrive src d s with
  | some (.endMarker ch ring, s) =>
    match (s.core dst).chan.ring ring with
    | some q => if q.bound = some (src.val, ch) then
        s.updChan dst (fun h => h.setRing ring { q with endMark := true, bound := none }) else s
    | none => s
  | _ => s

/-- The close notice arrives: the channel is broken (11 R406). One that comes before the reply of the channel's opening is
of an earlier channel of that number. -/
def closeNoticeArrival (src : TileId) (d : Hop 1152) (s : State) : State :=
  let dst := d.stop
  match arrive src d s with
  | some (.closeNotice ch, s) =>
    match (s.core dst).chan.send ch with
    | some q => if q.dst == src && (q.isOpen || q.reply == some 0) then
        s.updChan dst (fun h => h.setSend ch { q with broken := true }) else s
    | none => s
  | _ => s

/-- Whether core dst accepts a datagram from src (11 R413). -/
def dgAccepts (s : State) (src dst : Nat) (ctx : Option (BitVec 4)) : Bool :=
  if isService dst || isService src then true
  else match kernelCtx (s.core dst) with
    | some x => ctx == some x
    | none => ctx.isNone

/-- A datagram arrives: placed by 11 R397 with the receiver's own counts, or refused with a reason (11 R415). -/
def datagramArrival (src dst : CoreId) (t : Transit) (s : State) : State :=
  match takeMsg src dst s with
  | some (.datagram seq tag payload ctx, s) =>
    let (s, poison) := transit t s
    if !dgAccepts s src dst ctx then sendMsg dst src (.dgAnswer 3) s else
    match (s.core dst).chan.ring 16 with
    | none => sendMsg dst src (.dgAnswer 2) s
    | some q =>
      let L := payload.length + 8
      let r := q.T % q.size
      let pad := if q.size < r + L then q.size - r else 0
      if q.size < L ∨ (pad ≠ 0 ∧ q.size < q.T + 8 - q.H) ∨ q.size < q.T + pad + L - q.H then
        sendMsg dst src (.dgAnswer 1) s
      else
        let base := ownBase dst + q.base
        let s := if pad = 0 then s else
          writeEntry (base + r) (entryHeader 0 src (pad / 8) seq.toNat true false true) false s
        let at' := (q.T + pad) % q.size
        let s := writeEntry (base + at') (entryHeader tag src (L / 8) seq.toNat true false false ++ payload) poison s
        let skipE := if pad = 0 then [] else [⟨q.base + r, pad / 8, true, false⟩]
        let s := s.updChan dst (fun h => h.setRing 16 { q with
          T := q.T + pad + L, entries := q.entries ++ skipE ++ [⟨q.base + at', L / 8, false, poison⟩] })
        sendMsg dst src (.dgAnswer 0) (s.updSc dst (fun k => { k with ip := k.ip ||| 2 }))
  | _ => s

/-- A target's answer reaches the sender of a datagram and is recorded (11 R414, R416). -/
def datagramAnswerArrival (src : CoreId) (d : Hop 1156) (s : State) : State :=
  match arrive src d s with
  | some (.dgAnswer reason, s) =>
    s.updChan d.stop (fun h => { h with dgRec := h.dgRec.map (fun r => { r with
      targets := r.targets.map (fun p => if p.1 = src.val ∧ p.2.isNone then (p.1, some reason) else p) }) })
  | _ => s

/-! ## The commands -/

def execRxopen (c : CoreId) (w : Word32) (s : State) : Host.Outcome State Fault Refusal := .next (rxopen c w s)
def execRxclose (c : CoreId) (w : Word32) (s : State) : Host.Outcome State Fault Refusal := .next (rxclose c w s)
def execChopen (c : CoreId) (w : Word32) (s : State) : Host.Outcome State Fault Refusal := .next (chopen c w s)
def execChclose (c : CoreId) (w : Word32) (s : State) : Host.Outcome State Fault Refusal := .next (chclose c w s)
def execChsend (c : CoreId) (w : Word32) (e : Ecc) (s : State) : Host.Outcome State Fault Refusal := .next (chsend c w e s)
def execChrecv (c : CoreId) (w : Word32) (s : State) : Host.Outcome State Fault Refusal := .next (chrecv c w s)
def execChdone (c : CoreId) (w : Word32) (s : State) : Host.Outcome State Fault Refusal := .next (chdone c w s)
def execChsel (c : CoreId) (w : Word32) (s : State) : Host.Outcome State Fault Refusal := .next (chsel c w s)
def execDgring (c : CoreId) (w : Word32) (s : State) : Host.Outcome State Fault Refusal := .next (dgring c w s)
def execDgsend (c : CoreId) (w : Word32) (e : Ecc) (s : State) : Host.Outcome State Fault Refusal :=
  .next (dgsend false c w e s)
def execDgsendm (c : CoreId) (w : Word32) (e : Ecc) (s : State) : Host.Outcome State Fault Refusal :=
  .next (dgsend true c w e s)
def execMcwr (c : CoreId) (w : Word32) (e : Ecc) (s : State) : Host.Outcome State Fault Refusal := .next (mcwr c w e s)
def execOpenRequestArrival (src : TileId) (dst : Hop 1152) (s : State) : Host.Outcome State Fault Refusal :=
  .next (openRequestArrival src dst s)
def execOpenReplyArrival (src : TileId) (dst : Hop 1152) (s : State) : Host.Outcome State Fault Refusal :=
  .next (openReplyArrival src dst s)
def execMessageArrival (src dst : TileId) (t : Transit) (s : State) : Host.Outcome State Fault Refusal :=
  .next (messageArrival src dst t s)
def execSpaceUpdateArrival (src : TileId) (dst : Hop 1152) (s : State) : Host.Outcome State Fault Refusal :=
  .next (spaceUpdateArrival src dst s)
def execEndMarkerArrival (src : TileId) (dst : Hop 1152) (s : State) : Host.Outcome State Fault Refusal :=
  .next (endMarkerArrival src dst s)
def execCloseNoticeArrival (src : TileId) (dst : Hop 1152) (s : State) : Host.Outcome State Fault Refusal :=
  .next (closeNoticeArrival src dst s)
def execDatagramArrival (src dst : CoreId) (t : Transit) (s : State) : Host.Outcome State Fault Refusal :=
  .next (datagramArrival src dst t s)
def execDatagramAnswerArrival (src : CoreId) (dst : Hop 1156) (s : State) : Host.Outcome State Fault Refusal :=
  .next (datagramAnswerArrival src dst s)

end Sys2Proof.Machine
end

