-- ==== Sys2Proof/Machine/Fence.lean ====
section
/-! DEFINITION. Releases, acquires, fences and the cache-control instructions, and the arrivals at a core's caches
(08 R316-R324, 12 R425-R432). -/

namespace Sys2Proof.Machine

/-! ## The steps of a release and an acquire (12 R429-R431) -/

/-- How far a release or an acquire has come. -/
inductive Rel where
  | done
  | wait
  | bad
deriving DecidableEq, Repr

/-- The lines the cache steps of a fence act on: all, or those whose address lies in segment n, of a class other than 0
(12 R429). -/
def fenceLines (k : Scalar) (all : Bool) (n : Nat) (l : Line) : Bool :=
  let g := k.sgm n
  all || (g.cls != 0 && decide (g.base.toNat ≤ 64 * l.addr ∧ 64 * l.addr < g.base.toNat + g.limit.toNat))

/-- A release at a scope (12 R430): `bad` when it raises cause 0x0E. -/
def releaseStep (c scope : Nat) (p : Line → Bool) (s : State) (e : Ecc := .clean) : State × Rel :=
  let k := s.core c
  if k.dcache.miss.any (fun m => !m.stores.isEmpty) || !k.landings.isEmpty then (s, .wait) else
  let s := if scope = 0 then s else cleanLines c p s e
  let k := s.core c
  if k.unacked ≠ 0 then (s, .wait)
  else if k.deferredUe then (s.updCore c (fun k => { k with deferredUe := false }), .bad)
  else if scope = 3 then
    if !linkUp s || k.hostRefused then (s.updCore c (fun k => { k with hostRefused := false }), .bad)
    else if hostQuiet s c then (s, .done) else (s, .wait)
  else (s, .done)

/-- An acquire at a scope (12 R431): a landing under way is an earlier load and finishes first (06 R237), and lines being
filled; then the selected lines are flushed. -/
def acquireStep (c scope : Nat) (p : Line → Bool) (s : State) (e : Ecc := .clean) : State × Rel :=
  if (s.core c).landings ≠ [] then (s, .wait)
  else if scope = 0 then (s, .done)
  else if (s.core c).dcache.miss ≠ [] then (s, .wait)
  else
    let s := discardLines c p (cleanLines c p s e)
    if (s.core c).unacked ≠ 0 then (s, .wait) else (s, .done)

/-- Every line. -/
def allLines : Line → Bool := fun _ => true

/-- What a fence, a sync-object instruction, an atomic or `exit` does before its own effect: a deferred overflow is
raised (12 R450), and a kept grant returned unless the instruction takes it (12 R453). -/
def beforeSync (c : Nat) (keep : Bool) (s : State) (body : State → Eff) : Eff :=
  if (s.core c).deferredOvf then .trap ⟨0xA, 0⟩ (s.updCore c (fun k => { k with deferredOvf := false }))
  else body (if keep then s else returnKept c s)

/-! ## Fences (12 R428, R432) -/

/-- The decode checks of a fence. -/
def fenceDec (w : Word32) : Core → Option Fail :=
  legal (fld w 26 12 == 0 && fld w 7 6 == 0 && (fld w 5 5 == 0 || fld w 4 2 == 0))

/-- The acquire part of a fence; a deferred uncorrectable store is raised at it too (08 R303). -/
def fenceAcquire (c : Nat) (w : Word32) (k : Core) (e : Ecc) (s : State) : Eff :=
  if (s.core c).deferredUe then .trap ⟨0xE, 0⟩ (s.updCore c (fun k => { k with deferredUe := false })) else
  match acquireStep c (fld w 1 0) (fenceLines k.sc (fld w 5 5 == 1) (fld w 4 2)) s e with
  | (s, .done) => .done s
  | (s, _) => .stay .retry s

/-- A fence with a release part, an acquire part or both. -/
def fence (rel acq : Bool) (c : CoreId) (w : Word32) (e : Ecc) (s : State) : State :=
  issue c w .plain [] (fenceDec w) (fun k s => beforeSync c false s (fun s =>
    if rel then
      match releaseStep c (fld w 1 0) (fenceLines k.sc (fld w 5 5 == 1) (fld w 4 2)) s e with
      | (s, .done) => if acq then fenceAcquire c w k .clean s else .done s
      | (s, .wait) => .stay .retry s
      | (s, .bad) => .trap ⟨0xE, 0⟩ s
    else fenceAcquire c w k e s)) s

def execFenceRel (c : CoreId) (w : CleanWord) (s : State) : Host.Outcome State Fault Refusal :=
  .next (fence true false c w.word w.ecc s)
def execFenceAcq (c : CoreId) (w : CleanWord) (s : State) : Host.Outcome State Fault Refusal :=
  .next (fence false true c w.word w.ecc s)
def execFenceAr (c : CoreId) (w : CleanWord) (s : State) : Host.Outcome State Fault Refusal :=
  .next (fence true true c w.word w.ecc s)

/-! ## Cache control (08 R322, R323) -/

/-- A single-line function: its decode check, its permission check, and what it does to a line of class 1 to 3. -/
def lineCtl (c : CoreId) (w : Word32) (write : Bool) (f : Nat → Core → State → Eff) (s : State) : State :=
  issue c w .plain [raOf w] (legal (rdOf w == 0 && rbOf w == 0 && fld w 7 3 == 0)) (fun k s =>
    let o := (k.sc.gr (raOf w)).toNat
    match checkSeg k.sc (fld w 2 0) o 1 1 write with
    | some e => .trap e s
    | none =>
      let l := segAddr k.sc (fld w 2 0) o / 64
      if (k.sc.sgm (fld w 2 0)).cls = 0 then .done s
      else if k.dcache.miss.any (fun m => m.addr == l) then .stay .retry s
      else f l k s) s

/-- Waits until memory has accepted the write-backs of the lines `ls`, and the core has been told (08 R323, R678). -/
def maintWait (c : Nat) (ls : List Nat) (s : State) : Eff :=
  if s.reqs.any (fun r => r.src == c && r.isWriteBack && decide (r.addr / 64 ∈ ls)) ||
     s.acks.any (fun x => x.core == c && x.line.any (· ∈ ls)) then
    .stay .retry (s.updCore c (fun k => { k with maint := ls }))
  else .done (if (s.core c).maint = [] then s else s.updCore c (fun k => { k with maint := [] }))

/-- The numbers of the dirty lines among `p`. -/
def dirtyLines (k : Core) (p : Line → Bool) : List Nat := (k.dcache.lines.filter (fun x => x.dirty && p x)).map (·.addr)

/-- `dc.clean` and `dc.flush` of one line. -/
def cleanLine (c : Nat) (flush : Bool) (e : Ecc) (l : Nat) (k : Core) (s : State) : Eff :=
  let isL := fun x : Line => x.addr == l
  if k.maint ≠ [] then maintWait c k.maint s
  else
    let s := cleanLines c isL s e
    maintWait c (dirtyLines k isL) (if flush then discardLines c isL s else s)

/-- `dc.all`. -/
def dcAll (c : CoreId) (w : Word32) (e : Ecc) (s : State) : State :=
  issue c w .plain [] (legal (fld w 26 12 == 0 && fld w 7 2 == 0 && fld w 1 0 != 3)) (fun k s =>
    if k.maint ≠ [] then maintWait c k.maint s
    else if k.dcache.miss ≠ [] then .stay .retry s
    else if fld w 1 0 = 0 then .done (discardLines c allLines s)
    else
      let s := cleanLines c allLines s e
      maintWait c (dirtyLines k allLines) (if fld w 1 0 = 2 then discardLines c allLines s else s)) s

/-- `ic.all`: the instructions after it are fetched again. -/
def icAll (c : CoreId) (w : Word32) (s : State) : State :=
  issue c w .plain [] (legal (fld w 26 12 == 0 && fld w 7 0 == 0)) (fun _ s =>
    .done ((dropReads c (fun k => k == .fetch) s).updIc c (fun k => { lfsr := k.lfsr }))) s

/-- `pf`: a failing check makes it a no-op. -/
def pf (c : CoreId) (w : Word32) (s : State) : State :=
  issue c w .plain [raOf w] (legal (rdOf w == 0 && rbOf w == 0 && fld w 7 3 == 0)) (fun k s =>
    let o := (k.sc.gr (raOf w)).toNat
    if (checkSeg k.sc (fld w 2 0) o 1 1 false).isSome ∨ (k.sc.sgm (fld w 2 0)).cls = 0 then .done s
    else
      let l := segAddr k.sc (fld w 2 0) o / 64
      if isService c || (k.dcache.find l).isSome || k.dcache.miss.any (fun m => m.addr == l) ||
         decide (8 ≤ k.dcache.miss.length) || regionOf (64 * l) == .mmio then .done s
      else .done (claimMiss c l [] 0 true s)) s

def execDcInv (c : CoreId) (w : Word32) (s : State) : Host.Outcome State Fault Refusal :=
  .next (lineCtl c w true (fun l _ s => .done (discardLines c (fun x => x.addr == l) s)) s)
def execDcClean (c : CoreId) (w : CleanWord) (s : State) : Host.Outcome State Fault Refusal :=
  .next (lineCtl c w.word false (fun l k s => cleanLine c false w.ecc l k s) s)
def execDcFlush (c : CoreId) (w : CleanWord) (s : State) : Host.Outcome State Fault Refusal :=
  .next (lineCtl c w.word false (fun l k s => cleanLine c true w.ecc l k s) s)
def execDcAll (c : CoreId) (w : CleanWord) (s : State) : Host.Outcome State Fault Refusal := .next (dcAll c w.word w.ecc s)
def execIcAll (c : CoreId) (w : Word32) (s : State) : Host.Outcome State Fault Refusal := .next (icAll c w s)
def execPf (c : CoreId) (w : Word32) (s : State) : Host.Outcome State Fault Refusal := .next (pf c w s)

/-! ## Acquires of answered operations (12 R431, R450) -/

/-- An answered operation that waits for its acquire retires once every line is flushed and accepted. -/
def settleAcquire (c : Nat) (s : State) : State :=
  match (s.core c).wait with
  | .acquire rd v scope =>
    match acquireStep c scope allLines s with
    | (s, .done) => finish c s (.done (match v with | some x => s.updSc c (fun k => k.setG rd.toNat x) | none => s))
    | (s, _) => s
  | _ => s

/-- An operation's answer is used: the instruction acquires at its scope and then retires. -/
def answered (c : Nat) (rd : BitVec 5) (v : Option Word64) (scope : Nat) (s : State) : State :=
  settleAcquire c (s.updCore c (fun k => { k with wait := .acquire rd v scope }))

/-! ## Arrivals at a core's caches -/

/-- Stores merged into a line's bytes, oldest first. -/
def mergeStores (d : List Byte) (st : List (Nat × List Byte)) : List Byte :=
  st.foldl (fun d p => patch d p.1 p.2) d

/-- The words of a line that stores do not cover completely (09 R357). -/
def uncovered (st : List (Nat × List Byte)) : List Nat :=
  (nats 8 0 1).filter (fun w => !(nats 8 (8 * w) 1).all (fun i => st.any (fun p => decide (p.1 ≤ i ∧ i < p.1 + p.2.length))))

/-- A fill's line enters the caches, or its error is kept for what waits (08 R315-R317, 09 R357). -/
def fillLine (c : Nat) (m : Miss) (r : Resp) (s : State) : State :=
  let s := s.updDc c (fun k => { k with miss := k.miss.filter (fun x => x.addr != m.addr) })
  if r.bad then
    let s := if m.waiters = 0 then s else s.updDc c (fun k => { k with failed := k.failed ++ [m.addr] })
    if m.stores = [] then s
    else
      enterLine c { addr := m.addr, data := mergeStores (List.replicate 64 0) m.stores, dirty := true,
                    bad := uncovered m.stores, trusted := m.trusted }
        (s.updCore c (fun k => { k with deferredUe := true }))
  else if m.prefetch ∧ m.stores = [] then
    s.updDc c (fun k =>
      let side := k.side ++ [{ addr := m.addr, data := r.data, dirty := false, bad := [] }]
      { k with side := if 4 < side.length then side.drop 1 else side })
  else enterLine c { addr := m.addr, data := mergeStores r.data m.stores, dirty := m.stores != [], bad := [],
                     trusted := m.trusted } s

/-- Whether the line of a fill may enter the caches now: not while its victim waits for a write-back buffer
(08 R314). -/
def mayFill (s : State) (c : Nat) (m : Miss) : Bool :=
  (m.prefetch && m.stores == []) || mayEnter s c (s.core c).dcache { addr := m.addr, data := [], dirty := false, bad := [] }

/-- What the code finds as a dirty line leaves for memory (08 R318): an uncorrectable word goes out as such. -/
def spoilVictim (c : Nat) (m : Miss) (e : Ecc) (s : State) : State :=
  match e.first, (Cache.enter (isService c) (s.core c).dcache { addr := m.addr, data := [], dirty := false, bad := [] }).2 with
  | .uncorrectable, some o => s.updDc c (fun k => k.upd o.addr (fun l => if l.dirty then { l with bad := l.bad ++ [0] } else l))
  | .parity copy, some o => s.updDc c (fun k =>
      k.upd o.addr (fun l => if l.dirty || copy then { l with dirty := true, bad := nats 8 0 1 } else l))
  | .corrected, some o => if o.dirty then record 1 (coreUnit c 3) 1 [] s else s
  | _, _ => s

/-- CACHE_FILL_ARRIVAL of a data line: the fill is merged with its stores; what waits for it may go on. `e` is what the
codes of the line it pushes out find. -/
def dataFill (c l : Nat) (e : Ecc) (s : State) : State :=
  match takeFirst (fun r => respHere s c r && r.kind == .fill && r.addr == 64 * l) s.resps,
        (s.core c).dcache.miss.find? (fun m => m.addr == l) with
  | some (r, rest), some m =>
    if mayFill s c m then settleAcquire c (settlePart c (fillLine c m r (spoilVictim c m e { s with resps := rest }))) else s
  | some (_, rest), none => { s with resps := rest }
  | none, _ => s

/-- An uncorrectable line met by the fetch at the pc (08 R320, 04 R177). -/
def fetchUe (c : Nat) (s : State) : State :=
  match (s.core c).entered with
  | some m => handlerFetchUe c m s
  | none => takeFault c ⟨0xE, 0⟩ s

/-- CACHE_FILL_ARRIVAL of an instruction line (08 R319, R320): a demanded line enters the main array, a prefetched one the
side buffer; an uncorrectable line raises cause 0x0E on the fetch that waits for it. With an error found, it is the parity
of a line held that is wrong: the line is invalidated, and the next fetch of it asks again. The words executed are the
sender's (log entry 1). -/
def fetchFill (c l : Nat) (e : Ecc) (s : State) : State :=
  let k := s.core c
  if e ≠ .clean then
    if (k.icache.find l).isSome then record 1 (coreUnit c 4) 1 [] (s.updIc c (fun k => k.drop l)) else s
  else
    match takeFirst (fun r => respHere s c r && r.kind == .fetch && r.addr == 64 * l) s.resps,
          k.icache.miss.find? (fun m => m.addr == l) with
    | some (r, rest), some m =>
      let s := { s with resps := rest }.updIc c (fun k => { k with miss := k.miss.filter (fun x => x.addr != l) })
      if r.bad then
        if !m.prefetch && fetchLine k == l && canIssue k && k.sc.divide.isNone && (fetchFault k.sc).isNone then fetchUe c s else s
      else if m.prefetch then
        s.updIc c (fun k =>
          let side := k.side ++ [{ addr := l, data := r.data, dirty := false, bad := [] }]
          { k with side := if 4 < side.length then side.drop 1 else side })
      else s.updIc c (fun k => (Cache.enter (isService c) k { addr := l, data := r.data, dirty := false, bad := [] }).1)
    | some (_, rest), none => { s with resps := rest }
    | none, _ => s

def execCacheFillArrival (c : CoreId) (line : BitVec 42) (r : LineReport) (s : State) : Host.Outcome State Fault Refusal :=
  .next (if r.fetch then fetchFill c line.toNat r.ecc s else dataFill c line.toNat r.ecc s)

/-- WRITE_ACK_ARRIVAL (08 R303, R678): one posted write is accepted; one that met an uncorrectable location is
raised at the next fence or `exit`. -/
def writeAck (c : Nat) (s : State) : State :=
  match takeFirst (ackHere s c) s.acks with
  | none => s
  | some (x, rest) =>
    let s := { s with acks := rest }.updCore c (fun k => { k with
      unacked := k.unacked - 1, deferredUe := k.deferredUe || !x.ok })
    settleAcquire c (settlePart c s)

def execWriteAckArrival (c : CoreId) (s : State) : Host.Outcome State Fault Refusal := .next (writeAck c s)

/-- SWEEPER_READ (08 R300, R301): the next bank row is read; `finds` names words 0-15 of it. -/
def sweeperRead (c : Nat) (finds : List (Nat × Ecc)) (s : State) : State :=
  let row := mget s.sweep c 0
  let base := ownBase c + row * 128
  let s := { s with sweep := mput s.sweep c ((row + 1) % 8192) }
  (nats 16 base 8).foldl (fun s g =>
    let e := ((finds.find? (fun p => base + 8 * p.1 == g)).map Prod.snd).getD .clean
    (memRead g 8 e (coreUnit c 0) s).1) s

def execSweeperRead (c : TileId) (finds : List (Nat × Ecc)) (s : State) : Host.Outcome State Fault Refusal :=
  .next (sweeperRead c finds s)

end Sys2Proof.Machine
end

