-- ==== Sys2Proof/Machine/Sync.lean ====
section
/-! DEFINITION. Sync objects and on-chip atomics (12 R438-R455). -/

namespace Sys2Proof.Machine

/-! ## Units (12 R442, R450) -/

/-- The input of router b at which a packet from router a arrives: 0 local, 1 -x, 2 +x, 3 -y, 4 +y. -/
def inputOf (a b : Nat × Nat) : Nat :=
  if a.2 < b.2 then 3 else if b.2 < a.2 then 4 else if a.1 < b.1 then 1 else if b.1 < a.1 then 2 else 0

/-- An answer or a grant sent back. -/
def sendAns (r : SyncAns) (s : State) : State :=
  meter (syncXY r.obj) (agentXY r.agent) 2 1 { s with syncAns := s.syncAns ++ [r] }

/-- An error at a unit: event bit, counter and record (12 R447). -/
def syncError (p : Nat) (ovf : Bool) (s : State) : State :=
  let s := if ovf then (raise F.synEvtStat_overflow s).bump F.synErrcnt_overflow
    else (raise F.synEvtStat_underflow s).bump F.synErrcnt_underflow
  record 0 (unitId 14 (syncXY p) (0x100 + p / 256)) (if ovf then 0x42 else 0x43) [] s

/-! ## Applying operations (12 R447, R451, R452) -/

/-- The start of the list of a queue whose command waits for a sync unit. -/
def busyList (s : State) (q : Nat) : Option Nat := ((s.queue q).lists.find? (fun l => l.live && l.busy)).map (·.start)

/-- An applied operation of an engine command ends the command (12 R447, R454). -/
def engineSyncEnd (q st : Nat) (s : State) : State :=
  match busyList s q with
  | some start => commandEnd q start st s
  | none => s

/-- The outcome of an operation that failed, or was performed, told to its agent. -/
def tellAgent (o : SyncOp) (err : Bool) (v : Nat) (s : State) : State :=
  let ans : SyncAns := { agent := o.agent, obj := o.obj, kind := o.kind, value := v, err := err, id := o.id, orphan := o.orphan }
  if 1156 ≤ o.agent then if o.orphan then s else engineSyncEnd (o.agent - 1156) (if err then 7 else 0) s
  else match o.kind with
    | .sig _ => if err then sendAns ans s else s
    | _ => sendAns ans s

/-- A `sig`. -/
def applySig (o : SyncOp) (n : Nat) (s : State) : State :=
  let v := s.get F.synCnt_count o.obj
  if 2 ^ 31 ≤ v + n then tellAgent o true 0 (syncError o.obj true s)
  else tellAgent o false 0 (s.set F.synCnt_count (v + n) o.obj)

/-- A `dec`. -/
def applyDec (o : SyncOp) (n : Nat) (s : State) : State :=
  let v := s.get F.synCnt_count o.obj
  if 2 ^ 31 ≤ n ∨ v < n then tellAgent o true 0 (syncError o.obj false s)
  else tellAgent o false 0 (s.set F.synCnt_count (v - n) o.obj)

/-- A grant to a waiter. -/
def grantTo (p agent n id : Nat) (s : State) : State :=
  sendAns { agent := agent, obj := p, kind := .wait n false, value := 1, id := id } s

/-- A blocking `wait` arrives: an error, a grant at once for n = 0, or a place in the queue. -/
def applyWait (o : SyncOp) (n : Nat) (s : State) : State :=
  if 2 ^ 31 ≤ n then tellAgent o true 0 (syncError o.obj false s)
  else if n = 0 then grantTo o.obj o.agent 0 o.id s
  else { s with waiters := mput s.waiters o.obj (mget s.waiters o.obj [] ++ [(o.agent, n, o.id)]) }

/-- The head waiters whose n the count covers are granted, in order. -/
def grantHeads (p : Nat) : List (Nat × Nat × Nat) → State → State
  | [], s => { s with waiters := mput s.waiters p [] }
  | (a, n, id) :: t, s =>
    let v := s.get F.synCnt_count p
    if n ≤ v then grantHeads p t (grantTo p a n id (s.set F.synCnt_count (v - n) p))
    else { s with waiters := mput s.waiters p ((a, n, id) :: t) }

/-- The grants that object p's count allows. -/
def grants (p : Nat) (s : State) : State :=
  match mget s.waiters p [] with
  | [] => s
  | l => grantHeads p l s

/-- A non-blocking `wait` after the grants of its cycle. -/
def applyNb (o : SyncOp) (n : Nat) (s : State) : State :=
  let v := s.get F.synCnt_count o.obj
  if 2 ^ 31 ≤ n then tellAgent o true 0 (syncError o.obj false s)
  else if n = 0 ∨ ((mget s.waiters o.obj []).isEmpty ∧ n ≤ v) then
    tellAgent o false 1 (s.set F.synCnt_count (v - n) o.obj)
  else tellAgent o false 0 s

/-- One step of 12 R452 over the operations of a cycle: `f` answers the operations it handles. -/
def syncPass (ops : List SyncOp) (f : SyncOp → State → State) (s : State) : State := ops.foldl (fun s o => f o s) s

/-- The operations of a cycle, in the order of 12 R452. -/
def applyCycle (p : Nat) (ops : List SyncOp) (s : State) : State :=
  let s := syncPass ops (fun o s => match o.kind with | .sig n => applySig o n s | _ => s) s
  let s := syncPass ops (fun o s => match o.kind with | .dec n => applyDec o n s | _ => s) s
  let s := syncPass ops (fun o s => match o.kind with | .wait n false => applyWait o n s | _ => s) s
  let s := grants p s
  let s := syncPass ops (fun o s => match o.kind with | .wait n true => applyNb o n s | _ => s) s
  syncPass ops (fun o s => match o.kind with
    | .read => tellAgent o false (s.get F.synCnt_count p) s
    | _ => s) s

/-- The unit of an object (12 R442). -/
def unitOf (p : Nat) : Nat := p / 256

/-- Takes each issuer's oldest operation on the unit of p off the mesh, where it is one on p: one issuer's operations
reach a unit in the order they were sent (10 R367). -/
def takeOps (p : Nat) : List (Hop 1332) → State → List SyncOp × State
  | [], s => ([], s)
  | a :: t, s =>
    match takeFirst (fun o => o.agent == a.stop.val && unitOf o.obj == unitOf p) s.syncOps with
    | some (o, rest) =>
      if o.obj = p then
        let r := takeOps p t (transit a.mesh { s with syncOps := rest }).1
        (o :: r.1, r.2)
      else takeOps p t s
    | none => takeOps p t s

/-- Operations of the issuers reach object p in one cycle, applied in port order. -/
def syncArrive (p : Nat) (issuers : List (Hop 1332)) (s : State) : State :=
  let r := takeOps p issuers s
  let port := fun o : SyncOp => inputOf (agentXY o.agent) (syncXY p)
  let ops := (nats 5 0 1).flatMap (fun i => r.1.filter (fun o => port o == i))
  applyCycle p ops r.2

/-- SYNC_OP_ARRIVAL. -/
def syncOpArrival (p : ObjId) (issuers : List (Hop 1332)) (s : State) : State := syncArrive p issuers s

def execSyncOpArrival (p : ObjId) (issuers : List (Hop 1332)) (s : State) : Host.Outcome State Fault Refusal :=
  .next (syncOpArrival p issuers s)

/-! ## Instructions (12 R446-R450, R453) -/

/-- The object an identifier names for a core, if it names one with the permission of bit `perm` (12 R448, R449). -/
def syncObj (c : Nat) (k : Core) (id perm : Nat) : Option Nat :=
  if isService c then some id
  else
    let e := (mget k.vtab id 0).toNat
    if natBit e 31 && natBit e perm then some (e % 4096) else none

/-- The operands of a sync-object instruction: identifier, object and amount; `none` raises cause 0x0A. -/
def syncArgs (c : Nat) (k : Core) (w : Word32) (perm : Nat) (s : State) (f : Nat → Nat → Nat → State → Eff) : Eff :=
  let id := (k.sc.gr (raOf w)).toNat
  let n := (k.sc.gr (rbOf w)).toNat
  if (if isService c then 4096 else 1024) ≤ id ∨ 2 ^ 32 ≤ n then .trap ⟨0xA, 0⟩ s
  else match syncObj c k id perm with
    | none => .trap ⟨0xA, 0⟩ (raise F.synEvtStat_bad_id s)
    | some p => f id p n s

/-- `sig` (12 R450): the release, then the increment. -/
def sig (c : CoreId) (w : Word32) (e : Ecc) (s : State) : State :=
  issue c w .plain [raOf w, rbOf w] (legal (rdOf w == 0 && fld w 7 2 == 0)) (fun k s =>
    beforeSync c false s (fun s => syncArgs c k w 30 s (fun id p n s =>
      match releaseStep c (fld w 1 0) allLines s e with
      | (s, .done) => .done (sendSync { agent := c, obj := p, kind := .sig n, id := id } s)
      | (s, .wait) => .stay .retry s
      | (s, .bad) => .trap ⟨0xE, 0⟩ s))) s

/-- `wait` (12 R446, R453). -/
def wait (c : CoreId) (w : Word32) (s : State) : State :=
  let nb := fld w 2 2 == 1
  settleAcquire c (issue c w .plain [raOf w, rbOf w] (legal ((nb || rdOf w == 0) && fld w 7 3 == 0)) (fun k s =>
    let mine := fun id n : Nat => !nb && (k.sc.gr (raOf w)).toNat == id && (k.sc.gr (rbOf w)).toNat == n
    let keep := match k.kept with | some (id, _, n) => mine id n | none => false
    let late := s.syncAns.any (fun r => r.agent == c && r.isGrant && r.fate == .kept &&
      (match r.kind with | .wait n _ => mine r.id n | _ => false))
    beforeSync c (keep || late) s (fun s => syncArgs c k w 29 s (fun id p n s =>
      let rd := BitVec.ofNat 5 (rdOf w)
      if keep then
        let s := s.updCore c (fun k => { k with kept := none })
        .stay (.acquire 0 none (fld w 1 0)) s
      else if late then .stay (.grant rd (fld w 1 0)) (setFate c (· == .kept) .used s)
      else .stay (if nb then .sync rd (fld w 1 0) else .grant rd (fld w 1 0))
        (sendSync { agent := c, obj := p, kind := .wait n nb, id := id } s)))) s)

/-- `dec` and `sread`. -/
def decRead (c : CoreId) (w : Word32) (rd : Bool) (s : State) : State :=
  issue c w .plain [raOf w, rbOf w] (legal ((if rd then rbOf w == 0 else rdOf w == 0) && fld w 7 2 == 0)) (fun k s =>
    beforeSync c false s (fun s => syncArgs c k w (if rd then 28 else 29) s (fun id p n s =>
      .stay (.sync (BitVec.ofNat 5 (rdOf w)) (fld w 1 0))
        (sendSync { agent := c, obj := p, kind := if rd then .read else .dec n, id := id } s)))) s

def execSig (c : CoreId) (w : CleanWord) (s : State) : Host.Outcome State Fault Refusal := .next (sig c w.word w.ecc s)
def execWait (c : CoreId) (w : Word32) (s : State) : Host.Outcome State Fault Refusal := .next (wait c w s)
def execDec (c : CoreId) (w : Word32) (s : State) : Host.Outcome State Fault Refusal := .next (decRead c w false s)
def execSread (c : CoreId) (w : Word32) (s : State) : Host.Outcome State Fault Refusal := .next (decRead c w true s)

/-! ## Answers and grants -/

/-- A fault of an instruction that waits for its answer is taken precisely. While a divide is in flight the answer in
`s0` waits (03 R123). -/
def answerFault (c code : Nat) (s0 s : State) : State :=
  if (s.core c).sc.divide.isSome then s0 else takeFault c ⟨code, 0⟩ (s.updCore c (fun k => { k with wait := .none }))

/-- What a unit sends an agent arrives in order (10 R367): whether `r` is the oldest of its unit to its agent. -/
def SyncAns.leads (r : SyncAns) (s : State) : Bool :=
  s.syncAns.find? (fun x => x.agent == r.agent && unitOf x.obj == unitOf r.obj) == some r

/-- SYNC_ANSWER_ARRIVAL (12 R450). A non-blocking `wait` that was not granted retires without an acquire. -/
def syncAnswerArrival (d : Hop 1156) (s : State) : State :=
  let c := d.stop
  match takeFirst (fun r => r.agent == c.val && !r.isGrant && r.leads s) s.syncAns with
  | none => s
  | some (r, rest) =>
    let s0 := s
    let s := (transit d.mesh { s with syncAns := rest }).1
    if r.orphan then s else
    match r.kind, (s.core c).wait with
    | .sig _, _ => s.updCore c (fun k => { k with deferredOvf := true })
    | .wait _ false, .grant _ _ => answerFault c 0xA s0 s
    | .wait _ true, .sync rd scope =>
      if r.err then answerFault c 0xA s0 s
      else if r.value = 0 then finish c s (.done (s.updSc c (fun k => k.setG rd.toNat 0)))
      else answered c rd (some (BitVec.ofNat 64 r.value)) scope s
    | .dec _, .sync _ scope => if r.err then answerFault c 0xA s0 s else answered c 0 none scope s
    | .read, .sync rd scope => answered c rd (some (BitVec.ofNat 64 r.value)) scope s
    | _, _ => s

def execSyncAnswerArrival (c : Hop 1156) (s : State) : Host.Outcome State Fault Refusal := .next (syncAnswerArrival c s)

/-- SYNC_GRANT_ARRIVAL (12 R451, R453, R454): a waiting core goes on, a list's WAIT completes; an agent that has withdrawn
keeps the grant or returns it. -/
def syncGrantArrival (d : Hop 1332) (s : State) : State :=
  let a := d.stop
  match takeFirst (fun r => r.agent == a.val && r.isGrant && r.leads s) s.syncAns with
  | none => s
  | some (r, rest) =>
    let s := (transit d.mesh { s with syncAns := rest }).1
    let n := match r.kind with | .wait n _ => n | _ => 0
    match r.fate with
    | .kept => s.updCore a.val (fun k => { k with kept := some (r.id, r.obj, n) })
    | .returned => sendSync { agent := a.val, obj := r.obj, kind := .sig n, orphan := decide (1156 ≤ a.val) } s
    | .used =>
      if a.val < 1156 then
        match (s.core a.val).wait with
        | .grant _ scope => answered a.val 0 none scope s
        | _ => s
      else
        match (s.queue (a.val - 1156)).lists.find? (fun l => l.live && l.holds) with
        | some l => commandEnd (a.val - 1156) l.start 0 (s.updList (a.val - 1156) l.start (fun l => { l with holds := false }))
        | none => s

def execSyncGrantArrival (a : Hop 1332) (s : State) : Host.Outcome State Fault Refusal := .next (syncGrantArrival a s)

/-! ## Atomics (12 R438, R439) -/

/-- The checks of an atomic on n bytes at offset o of segment i: both permissions and a class with a home, then
limit and alignment, then SRAM closed to the core (19 R626). -/
def checkAmo (c : Nat) (k : Scalar) (i o n : Nat) : Option Fail :=
  let g := k.sgm i
  if !g.r then some ⟨4, i⟩ else if !g.w then some ⟨4, i + 16⟩
  else if g.cls = 3 ∨ (regionOf (segAddr k i o) = .mmio) then some ⟨4, i + 16⟩
  else match checkSeg k i o n n true with
    | some f => some f
    | none => if sramClosed c k (segAddr k i o) n then some ⟨4, i⟩ else none

/-- An atomic once its release is done: at the own scratchpad's bank, or sent to its home. -/
def amoAccess (fn : Nat) (c : Nat) (w : Word32) (n a b cmp : Nat) (e : Ecc) (s : State) : Eff :=
  let a := xlatAddr s c a
  let scope := fld w 1 0
  let rd := BitVec.ofNat 5 (rdOf w)
  if regionOf a = .spad c then
    match homeAmo fn n a b cmp e (coreUnit c 0) (trustedCore s c) s with
    | (s, none) => .trap ⟨0xE, 0⟩ s
    | (s, some bytes) =>
      let v := sext (8 * n) (ofLeBytes bytes)
      .stay (.acquire rd (some v) scope) s
  else
    .stay (.atomic rd n scope) (sendReq { src := c, home := homeOf s a, kind := .amo fn b cmp, addr := a, n := n,
                                          data := leBytes n b, trusted := trustedCore s c } s)

/-- An atomic with function code `fn`. -/
def amo (fn : Nat) (c : CoreId) (w : Word32) (e : Ecc) (s : State) : State :=
  settleAcquire c (issue c w .plain [rdOf w, raOf w, rbOf w] (legal true) (fun k s =>
    let n := if fld w 11 8 = 9 then 8 else 4
    let o := (k.sc.gr (raOf w)).toNat
    match checkAmo c k.sc (fld w 4 2) o n with
    | some f => .trap f s
    | none =>
      beforeSync c false s (fun s =>
        let a := segAddr k.sc (fld w 4 2) o
        let l := a / 64
        if k.dcache.miss.any (fun m => m.addr == l) then .stay .retry s
        else
          let isL := fun x : Line => x.addr == l
          let s := discardLines c isL (cleanLines c isL s)
          match releaseStep c (fld w 1 0) allLines s with
          | (s, .wait) => .stay .retry s
          | (s, .bad) => .trap ⟨0xE, 0⟩ s
          | (s, .done) =>
            let lo := fun x : Word64 => x.toNat % 2 ^ (8 * n)
            amoAccess fn c w n a (lo (k.sc.gr (rbOf w))) (lo (k.sc.gr (rdOf w))) e s)) s)

def execAmoAdd (c : CoreId) (w : Word32) (e : Ecc) (s : State) : Host.Outcome State Fault Refusal := .next (amo 0 c w e s)
def execAmoSwap (c : CoreId) (w : Word32) (e : Ecc) (s : State) : Host.Outcome State Fault Refusal := .next (amo 1 c w e s)
def execAmoCas (c : CoreId) (w : Word32) (e : Ecc) (s : State) : Host.Outcome State Fault Refusal := .next (amo 2 c w e s)
def execAmoAnd (c : CoreId) (w : Word32) (e : Ecc) (s : State) : Host.Outcome State Fault Refusal := .next (amo 3 c w e s)
def execAmoOr (c : CoreId) (w : Word32) (e : Ecc) (s : State) : Host.Outcome State Fault Refusal := .next (amo 4 c w e s)
def execAmoXor (c : CoreId) (w : Word32) (e : Ecc) (s : State) : Host.Outcome State Fault Refusal := .next (amo 5 c w e s)
def execAmoMax (c : CoreId) (w : Word32) (e : Ecc) (s : State) : Host.Outcome State Fault Refusal := .next (amo 6 c w e s)
def execAmoMin (c : CoreId) (w : Word32) (e : Ecc) (s : State) : Host.Outcome State Fault Refusal := .next (amo 7 c w e s)

/-- ATOMIC_RETURN: the home's answer reaches the waiting core. -/
def atomicReturn (c : CoreId) (s : State) : State :=
  match (s.core c).wait with
  | .atomic rd n scope =>
    match takeFirst (fun r => respHere s c r && (match r.kind with | .amo _ _ _ => true | _ => false)) s.resps with
    | none => s
    | some (r, rest) =>
      let s0 := s
      let s := { s with resps := rest }
      if r.bad then answerFault c 0xE s0 s
      else answered c rd (some (sext (8 * n) (ofLeBytes r.data))) scope s
  | _ => s

def execAtomicReturn (c : CoreId) (s : State) : Host.Outcome State Fault Refusal := .next (atomicReturn c s)

/-! ## DBG_SYN_SET (12 R455) -/

/-- Debug is unlocked with the scope of the sync objects (19 R648). -/
def synUnlocked (s : State) : Bool := dbgScope 1 s

/-- A debugger's set of the selected object, while debug is unlocked: the first step of the cycle in which the operations
of the issuers reach it too (12 R452). -/
def dbgSynSet (v : Word32) (issuers : List (Hop 1332)) (s : State) : State :=
  let p := s.get F.dbgSynSel_phys
  let old := s.get F.synCnt_count p
  syncArrive p issuers (
    if !synUnlocked s then s
    else if 2 ^ 31 ≤ v.toNat then raise F.synEvtStat_overflow s
    else record 0 (unitId 14 (syncXY p) (0x100 + p / 256)) 0x41
      (leBytes 4 p ++ leBytes 4 old ++ leBytes 4 v.toNat) (s.set F.synCnt_count v.toNat p))

def execDbgSynSet (v : SynSet) (s : State) : Host.Outcome State Fault Refusal :=
  .next (dbgSynSet v.value v.issuers s)

end Sys2Proof.Machine
end

