-- ==== Sys2Proof/Machine/Fp.lean ====
section
/-! DEFINITION. Numbers: formats, exact values, one rounding, stochastic draws, and the functions whose values the
spec bounds and does not fix (05 R202-R206, 07 R260-R279, 10 R380-R382). -/

namespace Sys2Proof.Machine

/-! ## Formats (07 R262, R263) -/

/-- Which encodings of a format are infinite or NaN. -/
inductive Special where
  /-- E all ones: M = 0 infinite, M ≠ 0 NaN. -/
  | ieee
  /-- FP8 E4M3: E all ones with M all ones is NaN, no infinity. -/
  | topNan
  /-- Neither. -/
  | none
deriving DecidableEq, Repr

/-- A floating-point format: exponent bits, mantissa bits, bias, special encodings, canonical NaN, and whether an
overflow gives an infinity rather than the largest finite value (07 R274). -/
structure Fmt where
  e : Nat
  m : Nat
  bias : Nat
  sp : Special
  nan : Nat
  inf : Bool
deriving DecidableEq, Repr

/-- FP32. -/
def fp32 : Fmt := ⟨8, 23, 127, .ieee, 0x7FC00000, true⟩
/-- BF16. -/
def bf16 : Fmt := ⟨8, 7, 127, .ieee, 0x7FC0, true⟩
/-- FP16. -/
def fp16 : Fmt := ⟨5, 10, 15, .ieee, 0x7E00, true⟩
/-- FP8 E4M3. -/
def e4m3 : Fmt := ⟨4, 3, 7, .topNan, 0x7F, false⟩
/-- FP8 E5M2. -/
def e5m2 : Fmt := ⟨5, 2, 15, .ieee, 0x7E, false⟩
/-- FP6 E3M2. -/
def e3m2 : Fmt := ⟨3, 2, 3, .none, 0, false⟩
/-- FP6 E2M3. -/
def e2m3 : Fmt := ⟨2, 3, 1, .none, 0, false⟩
/-- FP4 E2M1. -/
def e2m1 : Fmt := ⟨2, 1, 1, .none, 0, false⟩

/-- The code of the largest finite magnitude. -/
def Fmt.maxCode (f : Fmt) : Nat :=
  match f.sp with
  | .ieee => (2 ^ f.e - 1) * 2 ^ f.m - 1
  | .topNan => 2 ^ (f.e + f.m) - 2
  | .none => 2 ^ (f.e + f.m) - 1

/-- The exponent of the last place of a subnormal. -/
def Fmt.qmin (f : Fmt) : Int := 1 - (f.bias : Int) - f.m

/-! ## Exact values -/

/-- A number, exactly: NaN, an infinity, or ± mant × 2^exp. -/
inductive Val where
  | nan
  | inf (neg : Bool)
  | fin (neg : Bool) (mant : Nat) (exp : Int)
deriving DecidableEq, Repr

/-- The value of an encoding (07 R262, R263). -/
def Fmt.dec (f : Fmt) (x : Nat) : Val :=
  let x := x % 2 ^ (f.e + f.m + 1)
  let neg := x / 2 ^ (f.e + f.m) == 1
  let E := x / 2 ^ f.m % 2 ^ f.e
  let M := x % 2 ^ f.m
  if f.sp = .ieee ∧ E = 2 ^ f.e - 1 then (if M = 0 then .inf neg else .nan)
  else if f.sp = .topNan ∧ x % 2 ^ (f.e + f.m) = 2 ^ (f.e + f.m) - 1 then .nan
  else if E = 0 then .fin neg M f.qmin
  else .fin neg (2 ^ f.m + M) (f.qmin + (E - 1 : Nat))

/-- An integer as a value; 0 is +0. -/
def Val.ofInt (n : Int) : Val := .fin (decide (n < 0)) n.natAbs 0

/-- A value negated. -/
def Val.neg : Val → Val
  | .nan => .nan
  | .inf s => .inf (!s)
  | .fin s m e => .fin (!s) m e

/-- Whether a value is NaN. -/
def Val.isNan : Val → Bool
  | .nan => true
  | _ => false

/-- The signed integer mant × 2^(exp - e). -/
def scaled (neg : Bool) (m : Nat) (exp e : Int) : Int :=
  let v : Int := (m * 2 ^ (exp - e).toNat : Nat)
  if neg then -v else v

/-- The exact sum; an exact zero of two opposite signs is +0. -/
def Val.add : Val → Val → Val
  | .nan, _ => .nan
  | _, .nan => .nan
  | .inf a, .inf b => if a = b then .inf a else .nan
  | .inf a, _ => .inf a
  | _, .inf b => .inf b
  | .fin a m e, .fin b n g =>
    if m = 0 ∧ n = 0 then .fin (a && b) 0 (min e g)
    else if m = 0 then .fin b n g
    else if n = 0 then .fin a m e
    else
      let q := min e g
      let v := scaled a m e q + scaled b n g q
      .fin (decide (v < 0)) v.natAbs q

/-- The exact product. -/
def Val.mul : Val → Val → Val
  | .nan, _ => .nan
  | _, .nan => .nan
  | .inf a, .inf b => .inf (a != b)
  | .inf a, .fin b n _ => if n = 0 then .nan else .inf (a != b)
  | .fin a m _, .inf b => if m = 0 then .nan else .inf (a != b)
  | .fin a m e, .fin b n g => .fin (a != b) (m * n) (e + g)

/-- Whether a is below b, zeros equal; false with a NaN. -/
def Val.lt : Val → Val → Bool
  | .nan, _ => false
  | _, .nan => false
  | .inf a, .inf b => a && !b
  | .inf a, _ => a
  | _, .inf b => !b
  | .fin a m e, .fin b n g => decide (scaled a m e (min e g) < scaled b n g (min e g))

/-- Whether a equals b, zeros equal; false with a NaN. -/
def Val.eq : Val → Val → Bool
  | .nan, _ => false
  | _, .nan => false
  | .inf a, .inf b => a == b
  | .inf _, _ => false
  | _, .inf _ => false
  | .fin a m e, .fin b n g => decide (scaled a m e (min e g) = scaled b n g (min e g))

/-! ## Rounding (07 R273-R278) -/

/-- How a value is rounded: to nearest even, toward zero, or by a drawn number r. -/
inductive Rnd where
  | nearest
  | trunc
  | draw (r : Nat)
deriving DecidableEq, Repr

/-- The magnitude m × 2^e in units of 2^q, rounded. -/
def roundUnits (rn : Rnd) (m : Nat) (e q : Int) : Nat :=
  if q ≤ e then m * 2 ^ (e - q).toNat
  else
    let sh := (q - e).toNat
    let fl := m / 2 ^ sh
    let rem := m % 2 ^ sh
    match rn with
    | .trunc => fl
    | .nearest =>
      if 2 ^ sh < 2 * rem ∨ (2 * rem = 2 ^ sh ∧ fl % 2 = 1) then fl + 1 else fl
    | .draw r => if r < 65536 * rem / 2 ^ sh then fl + 1 else fl

/-- The encoding of a value rounded once into a format; a NaN of a format without one is +0 (07 R274). A draw into a format
with an infinity takes it as the next magnitude, 2^(emax + 1), whatever the source lies above it by (DESIGN CHOICE, log
entry 24). -/
def Fmt.enc (f : Fmt) (rn : Rnd) (v : Val) : Nat :=
  let sgn := fun s : Bool => if s then 2 ^ (f.e + f.m) else 0
  let top := fun s : Bool => sgn s + (if f.inf then f.maxCode + 1 else f.maxCode)
  match v with
  | .nan => f.nan
  | .inf s => sgn s + (if f.sp = .ieee then f.maxCode + 1 else f.maxCode)
  | .fin s m e =>
    if m = 0 then sgn s
    else
      let q := max f.qmin (e + Nat.log2 m - f.m)
      let u := roundUnits rn m e q
      let code := (q - f.qmin).toNat * 2 ^ f.m + u
      if f.maxCode < code then top s else sgn s + code

/-- A value rounded to an integer, saturated to [lo, hi]; a NaN gives 0 (07 R275). -/
def Val.toInt (rn : Rnd) (lo hi : Int) : Val → Int
  | .nan => 0
  | .inf s => if s then lo else hi
  | .fin s m e =>
    let u : Int := (roundUnits rn m e 0 : Nat)
    max lo (min hi (if s then -u else u))

/-- An FP32 result as 32 bits, to nearest even. -/
def enc32 (v : Val) : Nat := fp32.enc .nearest v

/-- An FP32 word as a value. -/
def dec32 (x : Nat) : Val := fp32.dec x

/-! ## Draws (07 R279) -/

/-- One step of the rounding register. -/
def lfsr32 (x : Nat) : Nat := if x % 2 = 1 then x / 2 ^^^ 0x80200003 else x / 2

/-- `n` steps. -/
def lfsr32n : Nat → Nat → Nat
  | 0, x => x
  | n + 1, x => lfsr32n n (lfsr32 x)

/-- A draw: the register after 16 steps, whose low 16 bits are the number. -/
def draw (x : Nat) : Nat := lfsr32n 16 x

/-! ## Functions the spec bounds (05 R205, 10 R382)

The value is the configuration's free function where that lies within the spec's bound, and else a value within it, so
that nothing but the bound is known. Bounds are judged on approximations that are closer than a margin of 2^-80 of the
value. -/

/-- 2^(2^-i) × 2^126, rounded down, for i = 1 .. 100. -/
def exp2Table : List Nat :=
  [0x5a827999fcef32422cbec4d9baa55f4f, 0x4c1bf828c6dc54b7a356918c17217b7b, 0x45cae0f1f545eb737df23143ac529e48,
   0x42d561b3e6243d8a62e4adc610aa60d9, 0x4166c34c5615d0eb9f1523ada32905ff, 0x40b268f9de0183b9bdf2b293de8a6f7a,
   0x4058f6a7ecccd5b61299ab8cdb737e90, 0x402c6be96af2fb584a6ac4fb04772551, 0x4016321b687027a87fc674a533cbd9e7,
   0x400b18178ba33b141b486ff22688e804, 0x40058bce410147e84a2f2a71570c7978, 0x4002c5d7bff71dae8e38c59c72a4e5c9,
   0x400162e807ee7e5b5b2b352c60245f0f, 0x4000b1730df6a5247426170d231a39ec, 0x400058b9497b8151d5115f56654a4809,
   0x40002c5c955dd70101862fd292b7a0ff, 0x4000162e46d6f26b8bbb607a6df533eb, 0x40000b1722757b1b2935f22b3005edf2,
   0x4000058b90fd3e0c418380b60e6a745b, 0x400002c5c86f3f26767e243a81a445d8, 0x40000162e433c79b65fe728536f3058a,
   0x400000b17218edcfc0591a3daeb1728b, 0x40000058b90c396863d84678f008a0a9, 0x4000002c5c860d5452e1b9b65bbf46ff,
   0x400000162e4302d231af977e11b16cbc] ++
  [0x4000000b172180731ae7a5084f1c9cde, 0x400000058b90bffc0df7ce2a8ac867c1, 0x40000002c5c85feea71ce6a96067d13e,
   0x4000000162e42ff37b96b34f073b7208, 0x40000000b17217f8c7cd69a8c3686f94, 0x4000000058b90bfc266738d506e7fff3,
   0x400000002c5c85fe03d3bd6ab7691555, 0x40000000162e42fefe11e6f56a06d46b, 0x400000000b17217f7e12f58ab8c29d33,
   0x40000000058b90bfbecbfb495d566f6a, 0x4000000002c5c85fdf569dc5aee92a6b, 0x400000000162e42fefa776eb17842733,
   0x4000000000b17217f7d2c5779bc5fac3, 0x400000000058b90bfbe9253c51e3f781, 0x40000000002c5c85fdf4833e49f23a53,
   0x4000000000162e42fefa3dc72d392ccf, 0x40000000000b17217f7d1ded98ac9a51, 0x4000000000058b90bfbe8eb94cda4e23,
   0x400000000002c5c85fdf474d468e2750, 0x40000000000162e42fefa3a2cb4f53b7, 0x400000000000b17217f7d1d06fa9b9df,
   0x40000000000058b90bfbe8e7fa5560f0, 0x4000000000002c5c85fdf473edcad178, 0x400000000000162e42fefa39f30d70fc,
   0x4000000000000b17217f7d1cf890ba8e] ++
  [0x400000000000058b90bfbe8e7c0addcb, 0x40000000000002c5c85fdf473df60f06, 0x4000000000000162e42fefa39ef72f8b,
   0x40000000000000b17217f7d1cf7aa1c7, 0x4000000000000058b90bfbe8e7bd1364, 0x400000000000002c5c85fdf473de7a52,
   0x40000000000000162e42fefa39ef3951, 0x400000000000000b17217f7d1cf79bb2, 0x40000000000000058b90bfbe8e7bcd9b,
   0x4000000000000002c5c85fdf473de6be, 0x400000000000000162e42fefa39ef35b, 0x4000000000000000b17217f7d1cf79ac,
   0x400000000000000058b90bfbe8e7bcd6, 0x40000000000000002c5c85fdf473de6b, 0x4000000000000000162e42fefa39ef35,
   0x40000000000000000b17217f7d1cf79a, 0x4000000000000000058b90bfbe8e7bcd, 0x400000000000000002c5c85fdf473de6,
   0x40000000000000000162e42fefa39ef3, 0x400000000000000000b17217f7d1cf79, 0x40000000000000000058b90bfbe8e7bc,
   0x4000000000000000002c5c85fdf473de, 0x400000000000000000162e42fefa39ef, 0x4000000000000000000b17217f7d1cf7,
   0x400000000000000000058b90bfbe8e7b] ++
  [0x40000000000000000002c5c85fdf473d, 0x4000000000000000000162e42fefa39e, 0x40000000000000000000b17217f7d1cf,
   0x4000000000000000000058b90bfbe8e7, 0x400000000000000000002c5c85fdf473, 0x40000000000000000000162e42fefa39,
   0x400000000000000000000b17217f7d1c, 0x40000000000000000000058b90bfbe8e, 0x4000000000000000000002c5c85fdf47,
   0x400000000000000000000162e42fefa3, 0x4000000000000000000000b17217f7d1, 0x400000000000000000000058b90bfbe8,
   0x40000000000000000000002c5c85fdf4, 0x4000000000000000000000162e42fefa, 0x40000000000000000000000b17217f7d,
   0x4000000000000000000000058b90bfbe, 0x400000000000000000000002c5c85fdf, 0x40000000000000000000000162e42fef,
   0x400000000000000000000000b17217f7, 0x40000000000000000000000058b90bfb, 0x4000000000000000000000002c5c85fd,
   0x400000000000000000000000162e42fe, 0x4000000000000000000000000b17217f, 0x400000000000000000000000058b90bf,
   0x40000000000000000000000002c5c85f]

/-- 2^(f / 2^100) × 2^126 for f < 2^100, by the bits of f from the top. -/
def exp2Frac (f : Nat) : Nat :=
  (exp2Table.zip (List.range 100)).foldl (fun acc p => if f / 2 ^ (99 - p.2) % 2 = 1 then acc * p.1 / 2 ^ 126 else acc) (2 ^ 126)

/-- The floor of a finite value × 2^100. -/
def fix100 (s : Bool) (m : Nat) (e : Int) : Int :=
  let v : Int := if s then -(m : Int) else m
  if -100 ≤ e then v * 2 ^ (e + 100).toNat else v / 2 ^ (-(e + 100)).toNat

/-- 2^x for a fixed-point x (100 fraction bits), as a value with a 126-bit mantissa. -/
def exp2Val (x : Int) : Val := .fin false (exp2Frac (x % 2 ^ 100).toNat) (x / 2 ^ 100 - 126)

/-- |a - b| ≤ |b| / den + units × 2^-149 for finite values (no first term where den is 0), with the margin of |b| × 2^-80. -/
def within (a b : Val) (den units : Nat) : Bool :=
  match Val.add a b.neg, b with
  | .fin _ m e, .fin _ n g =>
    let q := min (min e g) (-149)
    let y := n * 2 ^ (g - q).toNat
    decide (m * 2 ^ (e - q).toNat * 2 ^ 80 * max den 1 ≤
      (if den = 0 then 0 else y * 2 ^ 80) + (y + units * 2 ^ (-149 - q).toNat * 2 ^ 80) * max den 1)
  | _, _ => false

/-- A free FP32 value where it passes a test, else a value that does. -/
def boundedFree (free : Word32) (ok : Val → Bool) (other : Nat) : Nat :=
  if ok (dec32 free.toNat) then free.toNat else other

/-- `vexp2` (05 R205). -/
def vexp2Val (x : Nat) : Nat :=
  match dec32 x with
  | .nan => fp32.nan
  | .inf s => if s then 0 else 0x7F800000
  | .fin s m e =>
    if m = 0 then 0x3F800000
    else if !Val.lt (.fin s m e) (.ofInt 128) then 0x7F800000
    else if !Val.lt (.ofInt (-150)) (.fin s m e) then 0
    else
      let v := exp2Val (fix100 s m e)
      boundedFree (Config.vexp2 (BitVec.ofNat 32 x))
        (fun y => if Val.lt v (.fin false 1 (-126)) then within y v 0 1 else within y v (2 ^ 22) 0) (enc32 v)

/-- log₂ of a mantissa in [1, 2) × 2^126, as fraction bits: by squaring. -/
def log2Frac : Nat → Nat → Nat → Nat
  | 0, _, acc => acc
  | n + 1, y, acc =>
    let z := y * y / 2 ^ 126
    if 2 ^ 127 ≤ z then log2Frac n (z / 2) (2 * acc + 1) else log2Frac n z (2 * acc)

/-- log₂ of m × 2^e, as a value with 90 fraction bits. -/
def log2Val (m : Nat) (e : Int) : Val :=
  let k := Nat.log2 m
  let y := if k ≤ 126 then m * 2 ^ (126 - k) else m / 2 ^ (k - 126)
  let v : Int := (e + k) * 2 ^ 90 + log2Frac 90 y 0
  .fin (decide (v < 0)) v.natAbs (-90)

/-- Whether |a - b| ≤ 2^-22 with a margin of 2^-80. -/
def within22 (a b : Val) : Bool :=
  match Val.add a b.neg with
  | .fin _ m e => !Val.lt (.fin false (2 ^ 58 + 1) (-80)) (.fin false m e)
  | _ => false

/-- `vlog2` (05 R205). -/
def vlog2Val (x : Nat) : Nat :=
  match dec32 x with
  | .nan => fp32.nan
  | .inf s => if s then fp32.nan else 0x7F800000
  | .fin s m e =>
    if m = 0 then 0xFF800000
    else if s then fp32.nan
    else
      let v := log2Val m e
      let near := !Val.lt (.fin false m e) (.fin false 1 (-1)) && !Val.lt (.ofInt 2) (.fin false m e)
      boundedFree (Config.vlog2 (BitVec.ofNat 32 x))
        (fun y => if near then within22 y v else within y v (2 ^ 22) 0) (enc32 v)

/-- The relative bound 2^-23 of a result near v, or one unit in the last place of a subnormal (05 R205). -/
def recipOk (v y : Val) : Bool := if Val.lt v (.fin false 1 (-126)) then within y v 0 1 else within y v (2 ^ 23) 0

/-- `vrcp` (05 R205). -/
def vrcpVal (x : Nat) : Nat :=
  match dec32 x with
  | .nan => fp32.nan
  | .inf s => if s then 0x80000000 else 0
  | .fin s m e =>
    let sg := if s then 2 ^ 31 else 0
    if m = 0 then sg + 0x7F800000
    else
      let v : Val := .fin false (2 ^ 140 / m) (-140 - e)
      sg + boundedFree (BitVec.ofNat 32 ((Config.vrcp (BitVec.ofNat 32 x)).toNat % 2 ^ 31)) (recipOk v) (enc32 v)

/-- The integer square root by n bits from the top. -/
def isqrt : Nat → Nat → Nat → Nat
  | 0, _, r => r
  | n + 1, v, r => if (r + 2 ^ n) * (r + 2 ^ n) ≤ v then isqrt n v (r + 2 ^ n) else isqrt n v r

/-- `vrsqrt` (05 R205). -/
def vrsqrtVal (x : Nat) : Nat :=
  match dec32 x with
  | .nan => fp32.nan
  | .inf s => if s then fp32.nan else 0
  | .fin s m e =>
    if m = 0 then (if s then 2 ^ 31 else 0) + 0x7F800000
    else if s then fp32.nan
    else
      let (m, e) := if e % 2 = 0 then (m, e) else (2 * m, e - 1)
      let v : Val := .fin false (isqrt 121 (2 ^ 240 / m) 0) (-120 - e / 2)
      boundedFree (Config.vrsqrt (BitVec.ofNat 32 x)) (recipOk v) (enc32 v)

/-- E2 of the combine units, for x ≤ 0 (10 R382). -/
def e2Val (x : Nat) : Nat :=
  match dec32 x with
  | .nan => fp32.nan
  | .inf s => if s then 0 else 0x7F800000
  | .fin s m e =>
    if m = 0 then 0x3F800000
    else if Val.lt (.fin s m e) (.ofInt (-149)) then 0
    else
      let f := fix100 s m e
      if f % 2 ^ 100 = 0 ∧ (Val.eq (.fin s m e) (.fin (decide (f < 0)) f.natAbs (-100))) then enc32 (.fin false 1 (f / 2 ^ 100))
      else
        let v := exp2Val f
        boundedFree (Config.combineE2 (BitVec.ofNat 32 x))
          (fun y => if Val.lt v (.fin false 1 (-126)) then within y v 0 1 else within y v 1000000 0) (enc32 v)

end Sys2Proof.Machine
end

