-- ==== Sys2Proof/Machine/Vector.lean ====
section
/-! DEFINITION. The vector unit: arithmetic, permutes, reductions, special functions and conversions (05 R194-R209,
R217-R219), and the first-NaN record (07 R287-R291). -/

namespace Sys2Proof.Machine

/-! ## Registers and lanes (05 R194, R195) -/

/-- The lanes of width w of a register, lane 0 first. -/
def lanesOf (w : Nat) (v : VReg) : List Nat := (List.range (1024 / w)).map (fun i => v.toNat / 2 ^ (w * i) % 2 ^ w)

/-- The register whose lanes of width w these are. -/
def ofLanes (w : Nat) (l : List Nat) : VReg := BitVec.ofNat 1024 (l.foldr (fun x a => a * 2 ^ w + x % 2 ^ w) 0)

/-- v[i]. -/
def Core.vr (k : Core) (i : Nat) : VReg := mget k.v i 0

/-- v[i] written. -/
def State.setV (s : State) (c i : Nat) (v : VReg) : State := s.updCore c (fun k => { k with v := mput k.v i v })

/-- The lane width of a type code. -/
def tyWidth (t : Nat) : Nat := if t = 5 then 8 else if t = 0 ∨ t = 3 then 32 else 16

/-- Whether a type is FP32, BF16 or FP16. -/
def tyF (t : Nat) : Bool := decide (t < 3)

/-- The format of an F type. -/
def tyFmt (t : Nat) : Fmt := if t = 0 then fp32 else if t = 1 then bf16 else fp16

/-- The type field, [5:3]. -/
def tyOf (w : Word32) : Nat := fld w 5 3

/-- The auxiliary field, [2:0]. -/
def auxOf (w : Word32) : Nat := fld w 2 0

/-- An n-bit number as a signed integer. -/
def toSigned (n x : Nat) : Int := (BitVec.ofNat n x).toInt

/-- An integer wrapped to n bits. -/
def wrapTo (n : Nat) (x : Int) : Nat := (BitVec.ofInt n x).toNat

/-! ## The first-NaN record (07 R288-R291) -/

/-- A NaN event fills the record while valid is 0; the flag says whether it traps. -/
def nanEvent (c unit kind pos : Nat) (w : Word32) (pc : BitVec 48) (h : BitVec 7) (s : State) : State × Bool :=
  let k := s.core c
  let r0 := (mget k.nanrec 0 0).toNat
  if natBit r0 63 then (s, false)
  else
    let te := natBit r0 62
    (s.setCore c { k with nanrec :=
      [(0, BitVec.ofNat 64 (2 ^ 63 + (if te then 2 ^ 62 else 0) + h.toNat * 2 ^ 55 + pc.toNat / 4 * 4)),
       (1, w.setWidth 64),
       (2, BitVec.ofNat 64 (unit * 2 ^ 20 + kind * 2 ^ 16 + pos)),
       (3, BitVec.ofNat 64 (s.frame % 2 ^ 48))] }, te)

/-- Retires a vector instruction with its result, unless its NaN traps: kind and lane of the first (05 R219). -/
def vecDone (c : Nat) (w : Word32) (unit : Nat) (nan : Option (Nat × Nat)) (s : State) (commit : State → State) : Eff :=
  let s := pctrEvent c 0xB 1 s
  match nan with
  | none => .done (commit s)
  | some (kind, lane) =>
    let k := (s.core c).sc
    let r := nanEvent c unit kind lane w k.pc k.code.handle s
    if r.2 then .trap ⟨8, 0⟩ r.1 else .done (commit r.1)

/-- The lowest lane whose value is NaN. -/
def nanLane (f : Fmt) (l : List Nat) : Option (Nat × Nat) :=
  (l.findIdx? (fun x => (f.dec x).isNan)).map (fun i => (0, i))

/-! ## Decode (05 R198, R199) -/

/-- The types a function allows. -/
inductive Types where
  | any
  | floats
  | ints
  | only (t : Nat)
  /-- The type field is 0 and not used. -/
  | unused
deriving DecidableEq, Repr

/-- Whether a type is allowed. -/
def Types.has (t : Types) (x : Nat) : Bool :=
  match t with
  | .any => decide (x ≤ 5)
  | .floats => decide (x ≤ 2)
  | .ints => decide (3 ≤ x ∧ x ≤ 5)
  | .only y => x == y
  | .unused => x == 0

/-- The decode check of a function: its types, its auxiliary bits (those of `auxI` for I types only), and the source
fields it uses. -/
def vecDec (c : Nat) (w : Word32) (t : Types) (aux auxI : Nat) (a b : Bool) : Core → Option Fail :=
  let mask := if tyF (tyOf w) then aux else aux ||| auxI
  computeOnly c (t.has (tyOf w) && (auxOf w &&& mask) == auxOf w && (a || raOf w == 0) && (b || rbOf w == 0))

/-! ## Elementwise functions -/

/-- vd := lanes of va and vb under a function of the lane type; `old` are vd's lanes. -/
def vecOp (c : CoreId) (w : Word32) (t : Types) (aux auxI : Nat) (b counts : Bool)
    (f : Nat → Nat → Nat → Nat) (s : State) : State :=
  issue c w .plain [] (vecDec c w t aux auxI true b) (fun k s =>
    let ty := tyOf w
    let n := tyWidth ty
    let out := (lanesOf n (k.vr (raOf w))).zip ((lanesOf n (k.vr (rbOf w))).zip (lanesOf n (k.vr (rdOf w))))
      |>.map (fun p => f p.1 p.2.1 p.2.2)
    vecDone c w 1 (if counts && tyF ty then nanLane (tyFmt ty) out else none) s
      (fun s => s.setV c (rdOf w) (ofLanes n out))) s

/-- An F or an I function of two lanes. -/
def lane2 (w : Word32) (ff : Val → Val → Val) (fi : Int → Int → Int) (a b : Nat) : Nat :=
  let ty := tyOf w
  if tyF ty then (tyFmt ty).enc .nearest (ff ((tyFmt ty).dec a) ((tyFmt ty).dec b))
  else wrapTo (tyWidth ty) (fi (toSigned (tyWidth ty) a) (toSigned (tyWidth ty) b))

/-- An instruction whose multiply carries a residue check (05 R218): on a mismatch its destination is undefined and
cause 0x0F is raised, after a NaN trap. -/
def vecMac (c : CoreId) (w : Word32) (mismatch : Bool) (f : Nat → Nat → Nat → Nat) (s : State) : State :=
  issue c w .plain [] (vecDec c w .any 0 0 true true) (fun k s =>
    let ty := tyOf w
    let n := tyWidth ty
    let out := (lanesOf n (k.vr (raOf w))).zip ((lanesOf n (k.vr (rbOf w))).zip (lanesOf n (k.vr (rdOf w))))
      |>.map (fun p => f p.1 p.2.1 p.2.2)
    match vecDone c w 1 (if tyF ty then nanLane (tyFmt ty) out else none) s
      (fun s => s.setV c (rdOf w) (ofLanes n out)) with
    | .done t sh =>
      if mismatch then .trap ⟨0xF, 0⟩ ({ t with freeCount := t.freeCount + 1 }.setV c (rdOf w) (Config.freeVec t.freeCount))
      else .done t sh
    | e => e) s

/-- A fused multiply-add of lanes: ± a × b + d. -/
def fmaLane (w : Word32) (sub : Bool) (a b d : Nat) : Nat :=
  let ty := tyOf w
  if tyF ty then
    let f := tyFmt ty
    let p := Val.mul (f.dec a) (f.dec b)
    f.enc .nearest (Val.add (if sub then p.neg else p) (f.dec d))
  else
    let n := tyWidth ty
    let p := toSigned n a * toSigned n b
    wrapTo n (toSigned n d + (if sub then -p else p))

/-- Below, with -0 below +0. -/
def ltZ (a b : Val) : Bool :=
  match a, b with
  | .fin true 0 _, .fin false 0 _ => true
  | _, _ => Val.lt a b

/-- The larger, or smaller, of two values, a number before a NaN (05 R203). -/
def pickVal (smaller : Bool) (a b : Val) : Val :=
  match a, b with
  | .nan, x => x
  | x, .nan => x
  | x, y => if (if smaller then ltZ x y else ltZ y x) then x else y

/-- `vmax` and `vmin` of lanes. -/
def maxLane (w : Word32) (smaller : Bool) (a b : Nat) : Nat :=
  let ty := tyOf w
  let n := tyWidth ty
  if tyF ty then (tyFmt ty).enc .nearest (pickVal smaller ((tyFmt ty).dec a) ((tyFmt ty).dec b))
  else if natBit (auxOf w) 0 then (if smaller then min a b else max a b)
  else wrapTo n (if smaller then min (toSigned n a) (toSigned n b) else max (toSigned n a) (toSigned n b))

def execVadd (c : CoreId) (w : Word32) (s : State) : Host.Outcome State Fault Refusal :=
  .next (vecOp c w .any 0 0 true true (fun a b _ => lane2 w Val.add (fun x y => x + y) a b) s)
def execVsub (c : CoreId) (w : Word32) (s : State) : Host.Outcome State Fault Refusal :=
  .next (vecOp c w .any 0 0 true true (fun a b _ => lane2 w (fun x y => Val.add x y.neg) (fun x y => x - y) a b) s)
def execVmul (c : CoreId) (w : Word32) (mismatch : Bool) (s : State) : Host.Outcome State Fault Refusal :=
  .next (vecMac c w mismatch (fun a b _ => lane2 w Val.mul (fun x y => x * y) a b) s)
def execVfma (c : CoreId) (w : Word32) (mismatch : Bool) (s : State) : Host.Outcome State Fault Refusal :=
  .next (vecMac c w mismatch (fmaLane w false) s)
def execVfms (c : CoreId) (w : Word32) (mismatch : Bool) (s : State) : Host.Outcome State Fault Refusal :=
  .next (vecMac c w mismatch (fmaLane w true) s)
def execVmax (c : CoreId) (w : Word32) (s : State) : Host.Outcome State Fault Refusal :=
  .next (vecOp c w .any 0 1 true true (fun a b _ => maxLane w false a b) s)
def execVmin (c : CoreId) (w : Word32) (s : State) : Host.Outcome State Fault Refusal :=
  .next (vecOp c w .any 0 1 true true (fun a b _ => maxLane w true a b) s)

/-- A value without its sign. -/
def Val.abs : Val → Val
  | .nan => .nan
  | .inf _ => .inf false
  | .fin _ m e => .fin false m e

def execVabs (c : CoreId) (w : Word32) (s : State) : Host.Outcome State Fault Refusal :=
  .next (vecOp c w .any 0 0 false true (fun a _ _ => lane2 w (fun x _ => x.abs) (fun x _ => if x < 0 then -x else x) a a) s)
def execVneg (c : CoreId) (w : Word32) (s : State) : Host.Outcome State Fault Refusal :=
  .next (vecOp c w .any 0 0 false true (fun a _ _ => lane2 w (fun x _ => x.neg) (fun x _ => -x) a a) s)

/-! ## Bitwise functions and shifts -/

/-- A function of whole registers: va, vb, vd. -/
def vecWhole (c : CoreId) (w : Word32) (b : Bool) (f : VReg → VReg → VReg → VReg) (s : State) : State :=
  issue c w .plain [] (vecDec c w .unused 0 0 true b) (fun k s =>
    vecDone c w 1 none s (fun s => s.setV c (rdOf w) (f (k.vr (raOf w)) (k.vr (rbOf w)) (k.vr (rdOf w))))) s

def execVand (c : CoreId) (w : Word32) (s : State) : Host.Outcome State Fault Refusal :=
  .next (vecWhole c w true (fun a b _ => a &&& b) s)
def execVor (c : CoreId) (w : Word32) (s : State) : Host.Outcome State Fault Refusal :=
  .next (vecWhole c w true (fun a b _ => a ||| b) s)
def execVxor (c : CoreId) (w : Word32) (s : State) : Host.Outcome State Fault Refusal :=
  .next (vecWhole c w true (fun a b _ => a ^^^ b) s)
def execVbsel (c : CoreId) (w : Word32) (s : State) : Host.Outcome State Fault Refusal :=
  .next (vecWhole c w true (fun a b d => (d &&& a) ||| (~~~d &&& b)) s)
def execVmov (c : CoreId) (w : Word32) (s : State) : Host.Outcome State Fault Refusal :=
  .next (vecWhole c w false (fun a _ _ => a) s)

/-- Lanes of va and a g register: each lane by its index and all lanes. -/
def vecG (c : CoreId) (w : Word32) (t : Types) (aux : Nat) (f : Nat → List Nat → Word64 → List Nat) (s : State) : State :=
  issue c w .plain [rbOf w] (vecDec c w t aux 0 true true) (fun k s =>
    let n := tyWidth (tyOf w)
    vecDone c w 1 none s (fun s => s.setV c (rdOf w)
      (ofLanes n (f n (lanesOf n (k.vr (raOf w))) (k.sc.gr (rbOf w)))))) s

def execVsll (c : CoreId) (w : Word32) (s : State) : Host.Outcome State Fault Refusal :=
  .next (vecG c w .ints 0 (fun n l g => l.map (fun x => x * 2 ^ (g.toNat % n) % 2 ^ n)) s)
def execVsrl (c : CoreId) (w : Word32) (s : State) : Host.Outcome State Fault Refusal :=
  .next (vecG c w .ints 0 (fun n l g => l.map (fun x => x / 2 ^ (g.toNat % n))) s)
def execVsra (c : CoreId) (w : Word32) (s : State) : Host.Outcome State Fault Refusal :=
  .next (vecG c w .ints 0 (fun n l g => l.map (fun x => wrapTo n (toSigned n x / 2 ^ (g.toNat % n)))) s)
def execVslide (c : CoreId) (w : Word32) (s : State) : Host.Outcome State Fault Refusal :=
  .next (vecG c w .any 1 (fun _ l g =>
    (List.range l.length).map (fun i =>
      if natBit (auxOf w) 0 then (if g.toNat ≤ i then l.getD (i - g.toNat) 0 else 0) else l.getD (i + g.toNat) 0)) s)

/-! ## Compares and permutes -/

/-- The condition of `vcmp` (05 R201). -/
def cmpLane (w : Word32) (a b : Nat) : Bool :=
  let ty := tyOf w
  let n := tyWidth ty
  let aux := auxOf w
  if tyF ty then
    let x := (tyFmt ty).dec a
    let y := (tyFmt ty).dec b
    match aux with
    | 0 => Val.eq x y
    | 1 => !Val.eq x y
    | 2 => Val.lt x y
    | 3 => Val.lt x y || Val.eq x y
    | 4 => Val.lt y x
    | 5 => Val.lt y x || Val.eq x y
    | _ => x.isNan || y.isNan
  else
    let x := toSigned n a
    let y := toSigned n b
    match aux with
    | 0 => x == y
    | 1 => x != y
    | 2 => decide (x < y)
    | 3 => decide (x ≤ y)
    | 4 => decide (y < x)
    | 5 => decide (y ≤ x)
    | _ => decide (a < b)

/-- `vcmp`: condition 6 is for F types, 7 for I types. -/
def vcmp (c : CoreId) (w : Word32) (s : State) : State :=
  let n := tyWidth (tyOf w)
  issue c w .plain [] (computeOnly c (decide (tyOf w ≤ 5) && (if tyF (tyOf w) then auxOf w != 7 else auxOf w != 6))) (fun k s =>
    vecDone c w 1 none s (fun s => s.setV c (rdOf w) (ofLanes n
      (((lanesOf n (k.vr (raOf w))).zip (lanesOf n (k.vr (rbOf w)))).map (fun p => if cmpLane w p.1 p.2 then 2 ^ n - 1 else 0))))) s

/-- A permute of the lanes of va and vb. -/
def vecPerm (c : CoreId) (w : Word32) (aux : Nat) (f : List Nat → List Nat → List Nat) (s : State) : State :=
  issue c w .plain [] (vecDec c w .any aux 0 true true) (fun k s =>
    let n := tyWidth (tyOf w)
    vecDone c w 1 none s (fun s => s.setV c (rdOf w)
      (ofLanes n (f (lanesOf n (k.vr (raOf w))) (lanesOf n (k.vr (rbOf w))))))) s

def execVcmp (c : CoreId) (w : Word32) (s : State) : Host.Outcome State Fault Refusal := .next (vcmp c w s)
def execVperm (c : CoreId) (w : Word32) (s : State) : Host.Outcome State Fault Refusal :=
  .next (vecPerm c w 0 (fun a b => b.map (fun i => a.getD (i % a.length) 0)) s)
def execVzip (c : CoreId) (w : Word32) (s : State) : Host.Outcome State Fault Refusal :=
  .next (vecPerm c w 1 (fun a b =>
    let h := if natBit (auxOf w) 0 then a.length / 2 else 0
    (List.range a.length).map (fun i => (if i % 2 = 0 then a else b).getD (h + i / 2) 0)) s)
def execVuzp (c : CoreId) (w : Word32) (s : State) : Host.Outcome State Fault Refusal :=
  .next (vecPerm c w 1 (fun a b =>
    (List.range a.length).map (fun i => (a ++ b).getD (2 * i + auxOf w % 2) 0)) s)

/-- `vsplat`. -/
def vsplat (c : CoreId) (w : Word32) (s : State) : State :=
  issue c w .plain [raOf w] (vecDec c w .any 0 0 true false) (fun k s =>
    let n := tyWidth (tyOf w)
    vecDone c w 1 none s (fun s => s.setV c (rdOf w) (ofLanes n (List.replicate (1024 / n) (k.sc.gr (raOf w)).toNat)))) s

/-- `vext`. -/
def vext (c : CoreId) (w : Word32) (s : State) : State :=
  issue c w .plain [rbOf w] (vecDec c w .any 0 0 true true) (fun k s =>
    let n := tyWidth (tyOf w)
    let x := (lanesOf n (k.vr (raOf w))).getD ((k.sc.gr (rbOf w)).toNat % (1024 / n)) 0
    vecDone c w 1 none s (fun s => s.updSc c (fun q => q.setG (rdOf w) (if tyF (tyOf w) then BitVec.ofNat 64 x else sext n x)))) s

/-- `vins`. -/
def vins (c : CoreId) (w : Word32) (s : State) : State :=
  issue c w .plain [raOf w, rbOf w] (vecDec c w .any 0 0 true true) (fun k s =>
    let n := tyWidth (tyOf w)
    vecDone c w 1 none s (fun s => s.setV c (rdOf w)
      (ofLanes n ((lanesOf n (k.vr (rdOf w))).set ((k.sc.gr (rbOf w)).toNat % (1024 / n)) (k.sc.gr (raOf w)).toNat)))) s

def execVsplat (c : CoreId) (w : Word32) (s : State) : Host.Outcome State Fault Refusal := .next (vsplat c w s)
def execVext (c : CoreId) (w : Word32) (s : State) : Host.Outcome State Fault Refusal := .next (vext c w s)
def execVins (c : CoreId) (w : Word32) (s : State) : Host.Outcome State Fault Refusal := .next (vins c w s)

/-! ## Reductions (05 R203, R204) -/

/-- A reduction into g[rd]: its result, and whether it counts as a NaN. -/
def vecRed (c : CoreId) (w : Word32) (t : Types) (aux auxI : Nat) (f : List Nat → Word64 × Bool) (s : State) : State :=
  issue c w .plain [] (vecDec c w t aux auxI true false) (fun k s =>
    let r := f (lanesOf (tyWidth (tyOf w)) (k.vr (raOf w)))
    vecDone c w 1 (if r.2 then some (0, 0) else none) s (fun s => s.updSc c (fun q => q.setG (rdOf w) r.1))) s

/-- The fixed tree of `vrsum`: n halvings. -/
def treeSum : Nat → List Nat → Nat
  | 0, l => l.getD 0 0
  | n + 1, l =>
    let h := l.length / 2
    treeSum n ((List.range h).map (fun i => enc32 (Val.add (dec32 (l.getD i 0)) (dec32 (l.getD (i + h) 0)))))

/-- `vrsum`. -/
def redSum (w : Word32) (l : List Nat) : Word64 × Bool :=
  let ty := tyOf w
  if tyF ty then
    let r := treeSum (Nat.log2 l.length) (l.map (fun x => enc32 ((tyFmt ty).dec x)))
    (BitVec.ofNat 64 r, (dec32 r).isNan)
  else (BitVec.ofInt 64 (l.foldl (fun a x => a + toSigned (tyWidth ty) x) 0), false)

/-- The best of a list under an order, with its lowest index. -/
def bestOf {α : Type} (better : α → α → Bool) : List (Nat × α) → Option (Nat × α)
  | [] => none
  | p :: t =>
    match bestOf better t with
    | some q => if better q.2 p.2 then some q else some p
    | none => some p

/-- The chosen lane of a reduction: the lane index and the 64-bit value, NaN lanes ignored. -/
def redPick (w : Word32) (smaller unsigned : Bool) (l : List Nat) : Option (Nat × Word64) :=
  let ty := tyOf w
  let n := tyWidth ty
  let ix := (List.range l.length).zip l
  if tyF ty then
    let vs := (ix.map (fun p => (p.1, (tyFmt ty).dec p.2))).filter (fun p => !p.2.isNan)
    (bestOf (fun a b => if smaller then ltZ a b else ltZ b a) vs).map (fun p => (p.1, BitVec.ofNat 64 (enc32 p.2)))
  else if unsigned then
    (bestOf (fun a b => if smaller then decide (a < b) else decide (b < a)) ix).map (fun p => (p.1, BitVec.ofNat 64 p.2))
  else
    (bestOf (fun a b => if smaller then decide (a < b) else decide (b < a)) (ix.map (fun p => (p.1, toSigned n p.2)))).map
      (fun p => (p.1, BitVec.ofInt 64 p.2))

/-- `vrmax` and `vrmin`. -/
def redMax (w : Word32) (smaller : Bool) (l : List Nat) : Word64 × Bool :=
  match redPick w smaller (natBit (auxOf w) 0) l with
  | some p => (p.2, false)
  | none => (BitVec.ofNat 64 fp32.nan, true)

/-- `vrmaxa`. -/
def redMaxa (w : Word32) (l : List Nat) : Word64 × Bool :=
  redMax w false (l.map (fun x => x % 2 ^ (tyWidth (tyOf w) - 1)))

/-- `vrarg`. -/
def redArg (w : Word32) (l : List Nat) : Word64 × Bool :=
  match redPick w (natBit (auxOf w) 0) (natBit (auxOf w) 1) l with
  | some p => (BitVec.ofNat 64 (p.2.toNat % 2 ^ 32 + p.1 * 2 ^ 32), false)
  | none => (BitVec.ofNat 64 (fp32.nan + 0xFFFF * 2 ^ 32), true)

def execVrsum (c : CoreId) (w : Word32) (s : State) : Host.Outcome State Fault Refusal := .next (vecRed c w .any 0 0 (redSum w) s)
def execVrmax (c : CoreId) (w : Word32) (s : State) : Host.Outcome State Fault Refusal := .next (vecRed c w .any 0 1 (redMax w false) s)
def execVrmin (c : CoreId) (w : Word32) (s : State) : Host.Outcome State Fault Refusal := .next (vecRed c w .any 0 1 (redMax w true) s)
def execVrmaxa (c : CoreId) (w : Word32) (s : State) : Host.Outcome State Fault Refusal := .next (vecRed c w .floats 0 0 (redMaxa w) s)
def execVrarg (c : CoreId) (w : Word32) (s : State) : Host.Outcome State Fault Refusal := .next (vecRed c w .any 1 2 (redArg w) s)

/-! ## Special functions, scaling and integer conversion (05 R205, R206) -/

/-- An FP32 or INT32 function of one lane; `counts` is whether its NaN results count. -/
def vecUn (c : CoreId) (w : Word32) (t aux : Nat) (counts : Bool) (f : Nat → Nat) (s : State) : State :=
  issue c w .plain [] (vecDec c w (.only t) aux aux true false) (fun k s =>
    let out := (lanesOf 32 (k.vr (raOf w))).map f
    vecDone c w 1 (if counts then nanLane fp32 out else none) s (fun s => s.setV c (rdOf w) (ofLanes 32 out))) s

/-- `vscl` of a lane by E8M0 code E. -/
def sclLane (w : Word32) (E x : Nat) : Nat :=
  if E = 0xFF then fp32.nan
  else enc32 (Val.mul (dec32 x) (.fin false 1 (if natBit (auxOf w) 0 then 127 - (E : Int) else (E : Int) - 127)))

/-- `vscl`. -/
def vscl (c : CoreId) (w : Word32) (s : State) : State :=
  issue c w .plain [rbOf w] (vecDec c w (.only 0) 1 0 true true) (fun k s =>
    let out := (lanesOf 32 (k.vr (raOf w))).map (sclLane w ((k.sc.gr (rbOf w)).toNat % 256))
    vecDone c w 1 (nanLane fp32 out) s (fun s => s.setV c (rdOf w) (ofLanes 32 out))) s

def execVexp2 (c : CoreId) (w : Word32) (s : State) : Host.Outcome State Fault Refusal := .next (vecUn c w 0 0 true vexp2Val s)
def execVlog2 (c : CoreId) (w : Word32) (s : State) : Host.Outcome State Fault Refusal := .next (vecUn c w 0 0 true vlog2Val s)
def execVrcp (c : CoreId) (w : Word32) (s : State) : Host.Outcome State Fault Refusal := .next (vecUn c w 0 0 true vrcpVal s)
def execVrsqrt (c : CoreId) (w : Word32) (s : State) : Host.Outcome State Fault Refusal := .next (vecUn c w 0 0 true vrsqrtVal s)
def execVscl (c : CoreId) (w : Word32) (s : State) : Host.Outcome State Fault Refusal := .next (vscl c w s)
def execVitof (c : CoreId) (w : Word32) (s : State) : Host.Outcome State Fault Refusal :=
  .next (vecUn c w 3 0 false (fun x => enc32 (.ofInt (toSigned 32 x))) s)
def execVftoi (c : CoreId) (w : Word32) (s : State) : Host.Outcome State Fault Refusal :=
  .next (vecUn c w 0 1 false (fun x =>
    wrapTo 32 ((dec32 x).toInt (if natBit (auxOf w) 0 then .trunc else .nearest) (-(2 ^ 31)) (2 ^ 31 - 1))) s)

/-! ## Conversions (05 R207-R209, 07 R260-R278) -/

/-- What a format code holds: a floating-point format, or an integer of n bits. -/
inductive Narrow where
  | fp (f : Fmt)
  | int (n : Nat)
deriving DecidableEq, Repr

/-- The format of a code, and the bits of an element in memory and registers (07 R260). -/
def codeFmt (x : Nat) : Option (Narrow × Nat) :=
  match x with
  | 1 => some (.fp fp32, 32)
  | 2 => some (.fp bf16, 16)
  | 3 => some (.fp fp16, 16)
  | 4 => some (.fp e4m3, 8)
  | 5 => some (.fp e5m2, 8)
  | 6 => some (.fp e3m2, 8)
  | 7 => some (.fp e2m3, 8)
  | 8 => some (.fp e2m1, 4)
  | 9 => some (.int 8, 8)
  | 10 => some (.int 4, 4)
  | _ => none

/-- The value of an element. -/
def Narrow.dec (f : Narrow) (x : Nat) : Val :=
  match f with
  | .fp f => f.dec x
  | .int n => .ofInt (toSigned n x)

/-- A value rounded once into a format. -/
def Narrow.enc (f : Narrow) (rn : Rnd) (v : Val) : Nat :=
  match f with
  | .fp f => f.enc rn v
  | .int n => wrapTo n (v.toInt rn (-(2 ^ (n - 1) : Nat)) ((2 ^ (n - 1) : Nat) - 1))

/-- Whether a conversion of v into f is a NaN event, and its kind (07 R287). -/
def Narrow.nanKind (f : Narrow) (v : Val) : Option Nat :=
  match f with
  | .fp f => if v.isNan then some (if f.sp = .none then 1 else 0) else none
  | .int _ => none

/-- Values rounded in order, each with a draw when `sr` (07 R278): the encodings, and the register after. -/
def convert (f : Narrow) (sr : Bool) : List Val → Nat → List Nat × Nat
  | [], r => ([], r)
  | v :: t, r =>
    let r' := if sr then draw r else r
    let q := convert f sr t r'
    (f.enc (if sr then .draw (r' % 65536) else .nearest) v :: q.1, q.2)

/-- The largest magnitude among FP32 words, NaNs ignored, and a start (07 R283). -/
def maxMag (l : List Nat) (m : Nat) : Nat :=
  l.foldl (fun a x => if (dec32 x).isNan then a else max a (x % 2 ^ 31)) m

/-- A vector conversion. -/
def vecConv (c : CoreId) (w : Word32) (s : State) : State :=
  let dst := fld w 9 6
  let src := fld w 5 2
  let p := fld w 15 13
  let sr := fld w 16 16 == 1
  let nar := if src = 1 then dst else src
  let ew := match codeFmt nar with | some q => q.2 | none => 32
  let r := 32 / ew
  issue c w .plain [] (computeOnly c ((src == 1) != (dst == 1) && (codeFmt nar).isSome && fld w 12 12 == 0 &&
      (!sr || dst != 1) && decide (p < r))) (fun k s =>
    match codeFmt nar with
    | none => .trap ⟨1, 0⟩ s
    | some (f, _) =>
      let a := k.vr (raOf w)
      let i := fld w 1 0
      if src = 1 then
        let ls := lanesOf 32 a
        let vs := ls.map dec32
        let q := convert f sr vs k.rlfsr.toNat
        let nan := ((List.range 32).zip vs).findSome? (fun x => (f.nanKind x.2).map (fun kd => (kd, x.1)))
        let piece := q.1.foldr (fun x acc => acc * 2 ^ ew + x % 2 ^ ew) 0
        let lo := 1024 / r * p
        vecDone c w 2 nan s (fun s => (s.setV c (rdOf w)
          (BitVec.ofNat 1024 (natSetBits (k.vr (rdOf w)).toNat (lo + 1024 / r - 1) lo piece))).updCore c (fun k => { k with
            rlfsr := BitVec.ofNat 32 q.2
            amax := mput k.amax i (BitVec.ofNat 32 (maxMag ls (mget k.amax i 0).toNat)) }))
      else
        let es := (List.range 32).map (fun j => a.toNat / 2 ^ (1024 / r * p + ew * j) % 2 ^ ew)
        let out := es.map (fun x => enc32 (f.dec x))
        vecDone c w 2 (nanLane fp32 out) s (fun s => (s.setV c (rdOf w) (ofLanes 32 out)).updCore c (fun k => { k with
          amax := mput k.amax i (BitVec.ofNat 32 (maxMag out (mget k.amax i 0).toNat)) }))) s

def execVectorConversion (c : CoreId) (w : Word32) (s : State) : Host.Outcome State Fault Refusal := .next (vecConv c w s)

end Sys2Proof.Machine
end

