-- ==== Sys2Proof/Machine/Combine.lean ====
section
/-! DEFINITION. Combine rounds: sending, merging in routers, delivery into combining queues; multicast writes as they
arrive; the mesh registers with an effect of their own (01 R53, 10 R370-R388, 11 R407-R412). -/

namespace Sys2Proof.Machine

/-! ## Keys and contributor sets (10 R374-R376) -/

/-- Whether two contributions carry one key. -/
def CombHdr.sameKey (a b : CombHdr) : Bool :=
  a.dest == b.dest && a.tag == b.tag && a.op == b.op && a.ty == b.ty && a.det == b.det && a.d == b.d && a.n == b.n &&
  a.ctx == b.ctx && a.src == b.src && a.cmask == b.cmask

/-- The contributor set. -/
def CombHdr.members (h : CombHdr) : List Nat :=
  (descCores h.src.toNat).filter (fun c => natBit h.cmask.toNat (localOf c))

/-- Whether the unicast route from a to b passes through router r (10 R366). -/
def through (a b r : Nat × Nat) : Bool :=
  decide ((r.2 = a.2 ∧ min a.1 b.1 ≤ r.1 ∧ r.1 ≤ max a.1 b.1) ∨
          (r.1 = b.1 ∧ min a.2 b.2 ≤ r.2 ∧ r.2 ≤ max a.2 b.2))

/-- The members whose route to the destination passes through a router. -/
def membersThrough (s : State) (h : CombHdr) (r : Nat) : Nat :=
  let d := coreXY (xlatCtx s h.ctx.toNat h.dest)
  (h.members.filter (fun c => through (coreXY (xlatCtx s h.ctx.toNat c)) d (coreXY r))).length

/-- Bytes of one element as it is sent (10 R374). -/
def CombHdr.size (h : CombHdr) : Nat := if h.ty = 2 then 2 else 4

/-- The operation and type pairs of 10 R380. -/
def combOp (op ty : Nat) : Bool :=
  if op ≤ 2 then decide (ty ≤ 2) else if op ≤ 4 then ty == 3 else if op = 5 then ty == 0 || ty == 3
  else if op = 6 then ty == 1 else false

/-- The header as software wrote it, and whether its reserved bits are 0 (10 R374). -/
def readCombHdr (bs : List Byte) (ctx : BitVec 4) (det : Bool) : CombHdr × Bool :=
  let b4 := leAt bs 4 1
  ({ dest := natBits (leAt bs 0 2) 10 0, tag := leAt bs 2 2, op := natBits b4 3 0, ty := natBits b4 5 4, det := det,
     d := leAt bs 5 1, n := natBits (leAt bs 6 2) 8 0, ctx := ctx, src := BitVec.ofNat 64 (leAt bs 16 8),
     cmask := BitVec.ofNat 64 (leAt bs 24 8) },
   decide (natBits (leAt bs 0 2) 15 11 = 0 ∧ natBits b4 7 7 = 0 ∧ natBits (leAt bs 6 2) 15 9 = 0 ∧ leAt bs 12 4 = 0))

/-- What a router refuses (10 R376); `c` is the role of the sender. -/
def combRefused (h : CombHdr) (formOk : Bool) (c : Nat) : Bool :=
  !formOk || decide (1151 < h.dest) || !descOk h.src.toNat || decide (c ∉ h.members) || !combOp h.op h.ty ||
  decide (h.n = 0 ∨ 256 < h.n) || (if h.op = 6 then decide (h.d = 0 ∨ 254 < h.d ∨ h.n % (h.d + 2) ≠ 0) else h.d != 0)

/-- The elements in the form the network carries (10 R381). -/
def combWords (h : CombHdr) (bs : List Byte) : List Word32 :=
  (nats h.n 0 h.size).map (fun o =>
    let x := leAt bs o h.size
    BitVec.ofNat 32 (if h.op = 5 then (if x = 0 then 0 else 1) else if h.ty = 2 then x * 65536 else x))

/-! ## Arithmetic of a merge (10 R380-R382) -/

/-- One element of operations 0 to 5. -/
def combElem (op ty : Nat) (a b : Word32) : Word32 :=
  match op with
  | 0 => if ty = 0 then a + b else BitVec.ofNat 32 (enc32 (Val.add (dec32 a.toNat) (dec32 b.toNat)))
  | 1 => if ty = 0 then (if a.slt b then b else a)
    else BitVec.ofNat 32 (enc32 (pickVal false (dec32 a.toNat) (dec32 b.toNat)))
  | 2 => if ty = 0 then (if b.slt a then b else a)
    else BitVec.ofNat 32 (enc32 (pickVal true (dec32 a.toNat) (dec32 b.toNat)))
  | 3 => a ||| b
  | 4 => a &&& b
  | _ => a + b

/-- One row m, l, o of an smerge. -/
def smergeRow (a b : List Word32) : List Word32 :=
  let v := fun x : Word32 => dec32 x.toNat
  let w := fun x : Val => BitVec.ofNat 32 (enc32 x)
  match a, b with
  | ma :: ra, mb :: rb =>
    if (v ma).isNan || (v mb).isNan then (ma :: ra).map (fun _ => 0x7FC00000)
    else if Val.eq (v ma) (v mb) then ma :: List.zipWith (fun x y => w (Val.add (v x) (v y))) ra rb
    else if Val.lt (v mb) (v ma) then
      let e := dec32 (e2Val (enc32 (Val.add (v mb) (v ma).neg)))
      ma :: List.zipWith (fun x y => w (Val.add (Val.mul e (v y)) (v x))) ra rb
    else
      let e := dec32 (e2Val (enc32 (Val.add (v ma) (v mb).neg)))
      mb :: List.zipWith (fun x y => w (Val.add (Val.mul e (v x)) (v y))) ra rb
  | _, _ => []

/-- Rows of r words each. -/
def smergeRows (r : Nat) : Nat → List Word32 → List Word32 → List Word32
  | 0, _, _ => []
  | n + 1, a, b => smergeRow (a.take r) (b.take r) ++ smergeRows r n (a.drop r) (b.drop r)

/-- The elements of merge(a, b). -/
def combMerge (h : CombHdr) (a b : List Word32) : List Word32 :=
  if h.op = 6 then smergeRows (h.d + 2) (h.n / (h.d + 2)) a b else List.zipWith (combElem h.op h.ty) a b

/-- The header of a merge: counts added, flags joined. -/
def hdrMerge (a b : CombHdr) : CombHdr :=
  { a with count := a.count + b.count, poison := a.poison || b.poison, orderLost := a.orderLost || b.orderLost,
           part := a.part || b.part }

/-! ## Routers (10 R378, R379, R384, R385) -/

/-- Flits of a contribution as a core sends it (10 R362). -/
def CombHdr.flits (h : CombHdr) : Nat := Machine.flits (h.n * h.size) 96

/-- Flits of a contribution between routers, whose elements are words (10 R362, R381). -/
def CombHdr.wordFlits (h : CombHdr) : Nat := Machine.flits (h.n * 4) 96

/-- A packet leaves a router: towards its destination, or into the combining queue there. -/
def combLeave (r : Nat) (h : CombHdr) (ws : List Word32) (s : State) : State :=
  let d := xlatCtx s h.ctx.toNat h.dest
  if r = d then
    { s with rounds := s.rounds ++ [⟨r, r, { h with part := decide (h.count < h.members.length) || h.part }, ws⟩] }
  else
    let n := nextHop (coreXY r) (coreXY d)
    let nx := n.2 * 48 + n.1
    meter (coreXY r) n 3 h.wordFlits { s with combs := s.combs ++ [⟨r, nx, h, ws⟩] }

/-- The fold of the packets an entry holds, in the fixed order of inputs. -/
def combFold (h : CombHdr) (ins : List (Nat × CombHdr × List Word32)) : CombHdr × List Word32 :=
  let xs := (nats 5 0 1).flatMap (fun i => ins.filter (fun p => p.1 == i))
  match xs with
  | [] => (h, [])
  | x :: t => t.foldl (fun a p => (hdrMerge a.1 p.2.1, combMerge h a.2 p.2.2)) x.2

/-- An entry leaves its router. -/
def entryLeaves (r i : Nat) (e : CombEntry) (lost : Bool) (s : State) : State :=
  let s := { s with combEntries := s.combEntries.filter (fun p => p.1 != (r, i)) }
  let f := combFold e.hdr e.inputs
  combLeave r { f.1 with orderLost := f.1.orderLost || lost } f.2 s

/-- Contributions an entry has gathered. -/
def CombEntry.count (e : CombEntry) : Nat := (e.inputs.map (fun p => p.2.1.count)).sum

/-- A packet passes on unmerged. -/
def passUnmerged (r : Nat) (h : CombHdr) (ws : List Word32) (lost : Bool) (s : State) : State :=
  combLeave r { h with orderLost := h.orderLost || lost } ws (raise F.mshEvtStat_unmerged (s.bump F.mshCmbCnt_unmerged))

/-- An entry has taken a packet: it leaves when complete, and under free order with a hold of 0 after each merge. -/
def entryCheck (r i : Nat) (e : CombEntry) (merged : Bool) (s : State) : State :=
  if e.k ≤ e.count ∨ (e.hdr.det = false ∧ merged = true ∧ e.hold = 0) then entryLeaves r i e false s
  else { s with combEntries := mput s.combEntries (r, i) e }

/-- A contribution at a router's combine unit, by input `inp`. -/
def combTake (r inp : Nat) (h : CombHdr) (ws : List Word32) (s : State) : State :=
  let here := s.combEntries.filter (fun p => p.1.1 == r)
  match here.find? (fun p => p.2.hdr.sameKey h) with
  | some p =>
    let e := p.2
    let e := if h.det then { e with inputs := e.inputs ++ [(inp, h, ws)] }
      else match e.inputs with
        | x :: _ => { e with inputs := [(0, hdrMerge x.2.1 h, combMerge h x.2.2 ws)] }
        | [] => { e with inputs := [(0, h, ws)] }
    entryCheck r p.1.2 e true s
  | none =>
    if here.any (fun p => p.2.hdr.dest == h.dest && p.2.hdr.tag == h.tag) then passUnmerged r h ws false s
    else match (nats 32 0 1).find? (fun i => here.all (fun p => p.1.2 != i)) with
      | none => passUnmerged r h ws h.det s
      | some i =>
        entryCheck r i { hdr := h, inputs := [(if h.det then inp else 0, h, ws)], k := membersThrough s h r,
                         hold := s.get F.mshCmbCtl_hold } false s

/-- A residue mismatch of a merge at router r: counted and recorded (10 R385). -/
def mergeMismatch (r : TileId) (s : State) : State :=
  record 2 (unitId 4 (coreXY r) 0x10) 0x10 [] (raise F.mshEvtStat_link_ue (s.bump F.mshErrcnt_ue))

/-- COMBINE_ARRIVAL: the oldest contribution on its way from `src` reaches a router; `mismatch` is a residue mismatch of
its merge there (10 R385). -/
def combineArrival (router src : TileId) (t : Transit) (mismatch : Bool) (s : State) : State :=
  match takeFirst (fun p : CombPkt => p.src == src.val && p.dst == router.val) s.combs with
  | none => s
  | some (p, rest) =>
    let (s, poison) := transit t { s with combs := rest }
    let s := if mismatch then mergeMismatch router s else s
    combTake router (inputOf (coreXY src) (coreXY router)) { p.hdr with poison := p.hdr.poison || poison || mismatch }
      p.words s

/-- COMBINE_HOLD_EXPIRY: a free-order entry has been held its time. Its merges were made as its packets came, so no residue
mismatch is left to meet. -/
def combineHoldExpiry (router : TileId) (x : CombExit) (s : State) : State :=
  match s.combEntries.find? (fun p => p.1 == (router.val, x.entry.val)) with
  | some p => if p.2.hdr.det then s else entryLeaves router x.entry p.2 false s
  | none => s

/-- An entry whose packets carry the poison of a mismatch in their merge. -/
def CombEntry.spoilt (e : CombEntry) : CombEntry :=
  { e with inputs := e.inputs.map (fun p => (p.1, { p.2.1 with poison := true }, p.2.2)) }

/-- DET_WAIT_EXPIRY: a deterministic entry is still short at its limit; the packets it holds are folded, and that merge may
meet a residue mismatch. -/
def detWaitExpiry (router : TileId) (x : CombExit) (s : State) : State :=
  match s.combEntries.find? (fun p => p.1 == (router.val, x.entry.val)) with
  | some p =>
    if p.2.hdr.det then
      let bad := x.mismatch && decide (2 ≤ p.2.inputs.length)
      entryLeaves router x.entry (if bad then p.2.spoilt else p.2) true
        (raise F.mshEvtStat_det_timeout ((if bad then mergeMismatch router s else s).bump F.mshCmbCnt_timeouts))
    else s
  | none => s

/-! ## Delivery into a combining queue (11 R407-R410, R419) -/

/-- The header of a slot as it stands in the scratchpad (10 R374). -/
def combHdrBytes (h : CombHdr) : List Byte :=
  leBytes 2 h.dest ++ leBytes 2 h.tag ++ leBytes 1 (h.op + h.ty * 16 + (if h.det then 64 else 0)) ++ leBytes 1 h.d ++
  leBytes 2 h.n ++ leBytes 2 h.count ++
  leBytes 1 ((if h.poison then 1 else 0) + (if h.orderLost then 2 else 0) + (if h.part then 4 else 0)) ++
  leBytes 1 h.ctx.toNat ++ leBytes 4 0 ++ leBytes 8 h.src.toNat ++ leBytes 8 h.cmask.toNat

/-- The elements of a slot once it is ready: BF16 results are narrowed (10 R381, 11 R408). -/
def readyWords (h : CombHdr) (ready : Bool) (ws : List Word32) : List Word32 :=
  if ready ∧ h.ty = 2 then ws.map (fun x => BitVec.ofNat 32 (bf16.enc .nearest (dec32 x.toNat) * 65536)) else ws

/-- The payload of a slot: words, or the BF16 form of a ready one. -/
def slotBytes (h : CombHdr) (ready : Bool) (ws : List Word32) : List Byte :=
  if ready ∧ h.ty = 2 then ws.flatMap (fun x => leBytes 2 (x.toNat / 65536)) ++ List.replicate (2 * h.n) 0
  else ws.flatMap (fun x => leBytes 4 x.toNat)

/-- A slot written to the scratchpad at `a`; the payload of one that arrived poisoned reads as uncorrectable (11 R419). -/
def writeSlot (a : Nat) (x : CombSlot) (s : State) : State :=
  let body := slotBytes x.hdr x.ready x.words
  let s := s.putBytes a (combHdrBytes x.hdr ++ body)
  let s := { s with bad := s.bad.filter (· ∉ granules a (32 + body.length)) }
  if x.bad then { s with bad := s.bad ++ granules (a + 32) body.length } else s

/-- The queue fails: the delivery is discarded with a record (11 R410). -/
def failQueue (c r : Nat) (q : RxRing) (s : State) : State :=
  record 1 (coreUnit c 0x10) 0xA0 [] (s.updChan c (fun h => h.setRing r { q with failed := true }))

/-- COMBINE_DELIVERY: the oldest delivery at a destination router enters its combining queue. -/
def combineDelivery (d : Hop 1152) (s : State) : State :=
  let dst := d.stop
  match takeFirst (fun p : CombPkt => p.dst == dst.val) s.rounds with
  | none => s
  | some (p, rest) =>
    let (s, poison) := transit d.mesh { s with rounds := rest }
    let p := { p with hdr := { p.hdr with poison := p.hdr.poison || poison } }
    if !runsCtx s dst p.hdr.ctx then dropDelivery s else
    let r := p.hdr.tag % 16
    let u := p.hdr.tag / 16
    match (s.core dst).chan.ring r with
    | none => dropDelivery s
    | some q =>
      if !q.comb || q.failed then dropDelivery s
      else if p.hdr.members.length ≠ q.group ∨ q.slotBytes - 32 < 4 * p.hdr.n then failQueue dst r q s
      else
        let i := u % (q.size / q.slotBytes)
        let old := (q.slots.find? (fun x => x.1 == i)).map Prod.snd
        match (match old with
          | none => some (p.hdr, p.words, p.hdr.poison)
          | some o => if o.round != u || !o.hdr.sameKey p.hdr then none
              else some (hdrMerge o.hdr p.hdr, combMerge p.hdr o.words p.words, o.bad || p.hdr.poison)) with
        | none => failQueue dst r q s
        | some (h, ws, bad) =>
          let ready := decide (q.group ≤ h.count)
          let x : CombSlot := { round := u, hdr := { h with poison := h.poison || decide (q.group < h.count) },
                                words := readyWords h ready ws, ready := ready, bad := bad }
          writeSlot (ownBase dst + q.base + i * q.slotBytes) x
            (s.updChan dst (fun c => c.setRing r { q with slots := mput q.slots i x }))

/-! ## `cbsend` (11 R412) -/

/-- `cbsend`. What the router refuses goes before an uncorrectable word of the payload (04 R176). -/
def cbsend (c : CoreId) (w : Word32) (e : Ecc) (s : State) : State :=
  issue c w .plain [raOf w] (chanDec c false (rdOf w == 0 && rbOf w == 0 && fld w 7 3 == 0))
    (fun k s =>
      let o := (k.sc.gr (raOf w)).toNat
      let me := xlatCore s c c
      let a := xlatAddr s c (segAddr k.sc (fld w 2 0) o)
      match checkOwn me k.sc (fld w 2 0) o 32 8 false with
      | some f => .trap f s
      | none =>
        if o % 32 ≠ 0 then .trap ⟨5, fld w 2 0⟩ s else
        match ownRead c a 32 e s with
        | (s, none) => .trap ⟨0xE, 0⟩ s
        | (s, some hb) =>
          let (h, ok) := readCombHdr hb k.sc.ctx k.det
          match checkOwn me k.sc (fld w 2 0) o (32 + h.n * h.size) 8 false with
          | some f => .trap f s
          | none =>
            if combRefused h ok me then .trap ⟨0xB, 0⟩ (refuseDesc s) else
            match ownRead c (a + 32) (h.n * h.size) (e.from 4) s with
            | (s, none) => .trap ⟨0xE, 0⟩ s
            | (s, some bs) =>
              .done (inject c (coreXY c) 3 h.flits { s with combs := s.combs ++ [⟨c, c, h, combWords h bs⟩] })) s

/-! ## Multicast writes (10 R373, R385) -/

/-- MULTICAST_WRITE_ARRIVAL: a target's copy is written, or dropped where the context does not run. Either way the
sender's count of it ends. -/
def multicastWriteArrival (src : CoreId) (dst : TileId) (e : Ecc) (t : RoundTrip) (s : State) : State :=
  match takeFirst (fun m : McWrite => m.src == src.val && m.dst == dst.val) s.mcs with
  | none => s
  | some (m, rest) =>
    if m.after ≠ 0 then s else
    let (s, poison) := transit t.out { s with mcs := rest }
    let s := (transit t.back s).1
    if runsCtx s dst m.ctx ∧ m.off + m.data.length ≤ 0x10_0000 then
      let a := ownBase dst + m.off
      if poison then sendAck (.spad dst) src true (poisonStore a m.data (coreUnit src 0) false s)
      else
        match memWrite a m.data e (coreUnit src 0) s with
        | (s, ok) => sendAck (.spad dst) src ok s
    else sendAck (.spad dst) src true (dropDelivery s)

/-! ## Mesh registers with effects of their own (10 R386, R387, 01 R53, 10 R366) -/

/-- A write to MSH_MON_SEL[k] sets the counts of monitor k to 0. MSH_MON_TIME[k] holds the cycle it counts from. -/
def mshMonSelWrite (k v : Nat) (s : State) : State :=
  ((((((((s.set F.mshMonSel_en (natBits v 31 31) k).set F.mshMonSel_dir (natBits v 25 24) k).set
    F.mshMonSel_vn (natBits v 23 20) k).set F.mshMonSel_x (natBits v 15 10) k).set F.mshMonSel_y (natBits v 9 5) k).set
    F.mshMonFlits_flits 0 k).set F.mshMonBlock_cycles 0 k).set F.mshMonTime_cycles s.clk k)

/-- A write to MSH_DIST_SVC reaches every core in the same cycle (01 R54). -/
def mshDistSvcWrite (v : Word32) (s : State) : State :=
  { s.setReg .mshDistSvc 0 (v.setWidth 64) with sec := { s.sec with distSet := true } }

def execCbsend (c : CoreId) (w : Word32) (e : Ecc) (s : State) : Host.Outcome State Fault Refusal := .next (cbsend c w e s)
def execCombineArrival (router src : TileId) (r : CombReport) (s : State) : Host.Outcome State Fault Refusal :=
  .next (combineArrival router src r.transit r.mismatch s)
def execCombineHoldExpiry (router : TileId) (entry : CombExit) (s : State) : Host.Outcome State Fault Refusal :=
  .next (combineHoldExpiry router entry s)
def execDetWaitExpiry (router : TileId) (entry : CombExit) (s : State) : Host.Outcome State Fault Refusal :=
  .next (detWaitExpiry router entry s)
def execCombineDelivery (dst : Hop 1152) (s : State) : Host.Outcome State Fault Refusal := .next (combineDelivery dst s)
def execMulticastWriteArrival (src : CoreId) (dst : TileId) (e : Ecc) (t : RoundTrip) (s : State) :
    Host.Outcome State Fault Refusal := .next (multicastWriteArrival src dst e t s)
def execMshMonSelWrite (k : Fin 8) (v : Word32) (s : State) : Host.Outcome State Fault Refusal := .next (mshMonSelWrite k v.toNat s)
def execMshDistSvcWrite (v : Word32) (s : State) : Host.Outcome State Fault Refusal := .next (mshDistSvcWrite v s)

end Sys2Proof.Machine
end

