-- ==== Sys2Proof/Machine/Csr.lean ====
section
/-! DEFINITION. The CSRs of a core and the instructions that reach them (03 R138, R139, R148, 04 R165-R171, 01 R49-R52,
06 R224-R227, R234, 07 R282, R288, 20 R661). -/

namespace Sys2Proof.Machine

/-! ## The distance table (01 R49-R52) -/

/-- Whether a stop of the distance table is a mirror bundle, its router, its links beyond the router, and the service
term it adds. -/
def distStop (s : State) (i : Nat) : Bool × (Nat × Nat) × Nat × Nat :=
  if i < 32 then (false, portXY i, 0, s.get F.mshDistSvc_far_svc)
  else if i < 35 then (false, bundleXY .vcl (i - 32), 0, s.get F.mshDistSvc_host_svc)
  else if i < 38 then (true, bundleXY .mir (i - 35), 0, 0)
  else (false, coreXY (1152 + (i - 38)), 1, s.get F.mshDistSvc_sc_svc)

/-- The `dist` CSR as core c reads it. -/
def distWord (s : State) (c sel : Nat) : Nat :=
  if 42 ≤ sel then sel else
  let (oneWay, xy, extra, svc) := distStop s sel
  let own := coreXY c
  let h := hops own xy + extra + (if isService c then 1 else 0)
  let far := seam own xy
  let mesh := 3 * h + 2 + (if far then 6 else 0)
  let cycles := min 4095 (if oneWay then mesh else 2 * mesh + svc)
  2 ^ 31 + (if far then 2 ^ 30 else 0) + cycles * 2 ^ 16 + h * 2 ^ 8 + sel

/-! ## Which CSRs there are, and who may reach them (03 R119, R138, 04 R164) -/

/-- Whether core c has CSR n. -/
def csrKnown (c n : Nat) : Bool :=
  decide (n ≤ 5) || decide (0x10 ≤ n ∧ n ≤ 0x13) || decide (0x20 ≤ n ∧ n ≤ 0x25) || decide (0x80 ≤ n ∧ n ≤ 0x87) ||
  n == 0xF0 ||
  (!isService c && (n == 0x40 || n == 0x41 || decide (0x50 ≤ n ∧ n ≤ 0x53) || decide (0x60 ≤ n ∧ n ≤ 0x63)))

/-- Whether no level may write CSR n; on a service core `stage` is one of them. -/
def csrReadOnly (c n : Nat) : Bool := n == 0x10 || n == 0x12 || n == 0x13 || (n == 0x11 && isService c)

/-- The least level that reads, or writes, CSR n. -/
def csrLevel (n : Nat) (write : Bool) : Nat :=
  if n ≤ 5 then 1 else if write && (n == 0x11 || decide (0x80 ≤ n ∧ n ≤ 0x87)) then 1 else 0

/-- The decode check of a CSR instruction (04 R176). -/
def csrDec (c n : Nat) (okFields write : Bool) : Core → Option Fail := fun k =>
  if !okFields || !csrKnown c n || (write && csrReadOnly c n) then some ⟨1, 0⟩
  else if k.sc.pl.toNat < csrLevel n write then some ⟨2, 0⟩ else none

/-- The checks of a value written to `tcfg` (06 R225). -/
def tcfgCheck (v : Nat) : Option Fail :=
  let rows := natBits v 21 16
  let bpr := natBits v 6 0
  if natBits v 55 51 ≠ 0 ∨ natBits v 47 22 ≠ 0 ∨ natBits v 15 7 ≠ 0 then some ⟨1, 0⟩
  else if natBits v 63 56 = 0 then none
  else if 32 < rows ∨ (rows = 0 ∧ bpr ≠ 0) ∨ (0 < rows ∧ (bpr < 4 ∨ 64 < bpr ∨ bpr % 4 ≠ 0)) ∨ 2048 < rows * bpr then
    some ⟨6, 0⟩
  else none

/-- A level that a write of v to `status` may not give (04 R165, R167). -/
def statusDenied (k : Scalar) (v : Nat) : Bool := decide (natBits v 31 30 = 2 ∨ k.pl.toNat < natBits v 31 30)

/-- The decode checks of a value written to CSR n: causes 0x01 and 0x02 come before loop hazard (04 R176). -/
def csrValDec (n v : Nat) (k : Core) : Option Fail :=
  if n = 0 ∧ statusDenied k.sc v then some ⟨2, 0⟩
  else if 0x80 ≤ n ∧ n < 0x88 ∧ 0x10 ≤ natBits v 55 48 then some ⟨1, 0⟩
  else if n = 0x40 then (tcfgCheck v).filter (fun f => f.code == 1)
  else none

/-! ## Reading -/

/-- Whether the CSRs 0x000-0x003 name the machine bank (04 R166). -/
def Scalar.machBank (k : Scalar) : Bool := k.pl == 3 && !k.xb

/-- The bits of `evec` that are held (04 R171). -/
def evecMask (v : Nat) (m : Bool) : Nat :=
  (if m then 0 else natBits v 63 58 * 2 ^ 58) + natBits v 47 12 * 2 ^ 12 + natBits v 1 0

/-- The value of CSR n at core c. -/
def csrVal (c n : Nat) (s : State) : Nat :=
  let k := s.core c
  let x := k.sc
  let b := if x.machBank then x.mach else x.sup
  let sel := k.tcfgSel.toNat
  let t := mget k.tiles sel {}
  match n with
  | 0x00 => statusWord x (x.pl == 3)
  | 0x01 => b.cause.toNat
  | 0x02 => b.epc.toNat
  | 0x03 => if x.machBank then evecMask (s.reg .dbgMevec c).toNat true else x.evec.toNat
  | 0x04 => x.ldsReg.toNat
  | 0x05 => x.ldsOld.toNat
  | 0x10 => if isService c then 0 else x.ctx.toNat
  | 0x11 => if isService c then 0 else x.stage.toNat
  | 0x12 => s.frame
  | 0x13 => s.clk
  | 0x20 => (mget x.ls 0 0).toNat
  | 0x21 => (mget x.le 0 0).toNat
  | 0x22 => (mget x.lc 0 0).toNat
  | 0x23 => (mget x.ls 1 0).toNat
  | 0x24 => (mget x.le 1 0).toNat
  | 0x25 => (mget x.lc 1 0).toNat
  | 0x40 => sel * 2 ^ 48 + t.rows * 2 ^ 16 + t.bpr
  | 0x41 => k.tprog.toNat
  | 0xF0 => match x.distSel with | some d => distWord s c d.toNat | none => 0
  | n =>
    if n < 0x60 then (mget k.amax (n - 0x50) 0).toNat
    else if n < 0x80 then (mget k.nanrec (n - 0x60) 0).toNat
    else (mget x.pctr (n - 0x80) 0).toNat

/-! ## Writing -/

/-- What a write comes to: a fault, or the new state. -/
abbrev Put := Except Fail State

/-- `status` written with v (04 R165, R167). -/
def statusPut (c v : Nat) (s : State) : Put :=
  let x := (s.core c).sc
  let pl := natBits v 31 30
  if statusDenied x v then .error ⟨2, 0⟩ else
  let b : Bank → Bank := fun b => { b with spl := BitVec.ofNat 2 (natBits v 25 24), sml := BitVec.ofNat 3 (natBits v 23 21) }
  .ok (s.updSc c (fun x => { x with
    pl := BitVec.ofNat 2 pl
    ml := BitVec.ofNat 3 (natBits v 29 27)
    ie := BitVec.ofNat 4 (natBits v 11 8)
    sup := if x.machBank then x.sup else b x.sup
    mach := if x.machBank then b x.mach else x.mach
    xb := if x.pl = 3 then natBit v 20 else x.xb }))

/-- The bank that CSR numbers name changed. -/
def bankPut (c : Nat) (f : Bank → Bank) (s : State) : State :=
  s.updSc c (fun x => if x.machBank then { x with mach := f x.mach } else { x with sup := f x.sup })

/-- `evec` written with v; a supervisor handler is checked when it is written (04 R171). -/
def evecPut (c v : Nat) (s : State) : Put :=
  let k := s.core c
  if k.sc.machBank then .ok (s.setReg .dbgMevec c (BitVec.ofNat 64 (evecMask v true)))
  else if natBit v 0 ∧ (handleCode k (natBits v 63 58)).isNone then .error ⟨4, 0⟩
  else .ok (s.updSc c (fun x => { x with evec := BitVec.ofNat 64 (evecMask v false) }))

/-- A magnitude of a running maximum as a write stores it (07 R282). -/
def magOf (v : Nat) : Nat := let m := v % 2 ^ 31; if 0x7F800000 < m then 0 else m

/-- The bits of the first-NaN record's registers that are held (07 R288). -/
def nanrecMask (i v : Nat) : Nat :=
  match i with
  | 0 => natBits v 63 55 * 2 ^ 55 + natBits v 47 2 * 4
  | 1 => v % 2 ^ 32
  | 2 => natBits v 23 16 * 2 ^ 16 + natBits v 10 0
  | _ => v % 2 ^ 48

/-- `tprog`'s bits (06 R234). -/
def tprogMask (v : Nat) : Nat :=
  natBits v 31 31 * 2 ^ 31 + natBits v 27 24 * 2 ^ 24 + natBits v 18 16 * 2 ^ 16 + natBits v 5 0

/-- CSR n but `tcfg` written with v. -/
def csrPut (c n v : Nat) (s : State) : Put :=
  let loop (i : Nat) : BitVec 48 := BitVec.ofNat 48 (natBits v i 2 * 4)
  match n with
  | 0x00 => statusPut c v s
  | 0x01 => .ok (bankPut c (fun b => { b with cause := BitVec.ofNat 32 (natBits v 31 27 * 2 ^ 27 + v % 2 ^ 24) }) s)
  | 0x02 => .ok (bankPut c (fun b => { b with epc := BitVec.ofNat 64 (natBits v 63 57 * 2 ^ 57 + natBits v 47 2 * 4) }) s)
  | 0x03 => evecPut c v s
  | 0x04 => .ok (s.updSc c (fun x => { x with ldsReg := BitVec.ofNat 32 (natBits v 31 31 * 2 ^ 31 + v % 32) }))
  | 0x05 => .ok (s.updSc c (fun x => { x with ldsOld := BitVec.ofNat 64 v }))
  | 0x11 => if chanBusy (s.core c) then .error ⟨0xB, 0⟩ else .ok (s.updSc c (fun x => { x with stage := BitVec.ofNat 8 v }))
  | 0x20 => .ok (s.updSc c (fun x => { x with ls := mput x.ls 0 (loop 47) }))
  | 0x21 => .ok (s.updSc c (fun x => { x with le := mput x.le 0 (loop 47) }))
  | 0x22 => .ok (s.updSc c (fun x => { x with lc := mput x.lc 0 (BitVec.ofNat 32 v) }))
  | 0x23 => .ok (s.updSc c (fun x => { x with ls := mput x.ls 1 (loop 47) }))
  | 0x24 => .ok (s.updSc c (fun x => { x with le := mput x.le 1 (loop 47) }))
  | 0x25 => .ok (s.updSc c (fun x => { x with lc := mput x.lc 1 (BitVec.ofNat 32 v) }))
  | 0x41 => .ok (s.updCore c (fun k => { k with tprog := BitVec.ofNat 32 (tprogMask v) }))
  | 0xF0 => .ok (s.updSc c (fun x => { x with distSel := some (BitVec.ofNat 6 v) }))
  | n =>
    if n < 0x60 then .ok (s.updCore c (fun k => { k with amax := mput k.amax (n - 0x50) (BitVec.ofNat 32 (magOf v)) }))
    else if n < 0x80 then
      .ok (s.updCore c (fun k => { k with nanrec := mput k.nanrec (n - 0x60) (BitVec.ofNat 64 (nanrecMask (n - 0x60) v)) }))
    else if 0x10 ≤ natBits v 55 48 then .error ⟨1, 0⟩
    else .ok (s.updSc c (fun x => { x with
      pctr := mput x.pctr (n - 0x80) (BitVec.ofNat 64 (natBits v 63 61 * 2 ^ 61 + v % 2 ^ 56)) }))

/-! ## `tcfg` (06 R224-R227) -/

/-- The bytes of a bank that has been gated: nothing says what they are (06 R221). -/
def freshBank (free i : Nat) : List Byte := (nats 2048 (i * 2048) 1).map (Config.undefByte free)

/-- The named tiles take the shape; one whose shape changes becomes empty, without poison. -/
def tcfgApply (v free : Nat) (k : Core) : Core :=
  let rows := natBits v 21 16
  let bpr := natBits v 6 0
  let named := (nats 8 0 1).filter (fun i => natBit v (56 + i))
  { k with
    tcfgSel := BitVec.ofNat 3 (natBits v 50 48)
    tiles := named.foldl (fun ts i =>
      let t := mget ts i {}
      if t.rows = rows ∧ t.bpr = bpr then ts
      else mput ts i { rows := rows, bpr := bpr, data := if rows = 0 then [] else if t.rows = 0 then freshBank free i else t.data })
      k.tiles }

/-- A write to `tcfg` that has passed its checks takes effect. -/
def tcfgDo (c v : Nat) (s : State) : State :=
  { s with freeCount := s.freeCount + (if natBits v 63 56 = 0 then 0 else 1) }.updCore c (tcfgApply v s.freeCount)

/-- A write to `tcfg`: it drains first when it names tiles. -/
def tcfgWrite (c v : Nat) (s : State) : Eff :=
  let k := s.core c
  match tcfgCheck v with
  | some f => .trap f s
  | none =>
    if natBits v 63 56 ≠ 0 ∧ (k.matq ≠ [] ∨ k.landings ≠ []) then .stay .retry s
    else .done (tcfgDo c v s)

/-! ## The instructions -/

/-- A write's outcome as the instruction's, which then writes `rd` with `old`. -/
def putEff (c rd old : Nat) (p : Put) (s : State) : Eff :=
  match p with
  | .error f => .trap f s
  | .ok t => writeG c rd (BitVec.ofNat 64 old) t

/-- The CSR number of an instruction. -/
def csrNo (w : Word32) : Nat := fld w 9 0

/-- `cget`. -/
def cget (c : CoreId) (w : Word32) (s : State) : State :=
  issue c w .plain [] (csrDec c (csrNo w) (raOf w == 0 && rbOf w == 0) false)
    (fun _ s => writeG c (rdOf w) (BitVec.ofNat 64 (csrVal c (csrNo w) s)) s) s

/-- Two decode checks: the fault of the lower cause code is the one reported (04 R176). -/
def thenDec (a b : Core → Option Fail) : Core → Option Fail := fun k =>
  match a k, b k with
  | some f, some g => some (if g.code < f.code then g else f)
  | x, y => x.or y

/-- The handle entry that a write of v to a supervisor `evec` checks is read (04 R171, 08 R309). -/
def evecRead (c : Nat) (w : Word32) (v : Nat) (parity : Bool) (s : State) : State :=
  if csrNo w = 3 ∧ natBit v 0 ∧ ¬(s.core c).sc.machBank then readHandle c (natBits v 63 58) parity s else s

/-- `cput`. -/
def cput (c : CoreId) (w : Word32) (parity : Bool) (s : State) : State :=
  issue c w .plain [rbOf w] (thenDec (csrDec c (csrNo w) (rdOf w == 0 && raOf w == 0) true)
      (fun k => csrValDec (csrNo w) (k.sc.gr (rbOf w)).toNat k)) (fun k s =>
    let v := (k.sc.gr (rbOf w)).toNat
    if csrNo w = 0x40 then tcfgWrite c v s
    else
      let s := evecRead c w v parity s
      putEff c 0 0 (csrPut c (csrNo w) v s) s) s

/-- The value `cupd` writes. -/
def cupdVal (c : Nat) (w : Word32) (k : Scalar) (s : State) : Nat :=
  let m := k.gr (raOf w)
  ((BitVec.ofNat 64 (csrVal c (csrNo w) s) &&& ~~~m) ||| (k.gr (rbOf w) &&& m)).toNat

/-- `cupd`: with ra = g0 it only reads. -/
def cupd (c : CoreId) (w : Word32) (parity : Bool) (s : State) : State :=
  let writes := raOf w != 0
  issue c w .plain [raOf w, rbOf w] (thenDec (csrDec c (csrNo w) (!(writes && csrNo w == 0x40)) writes)
      (fun k => if writes then csrValDec (csrNo w) (cupdVal c w k.sc s) k else none)) (fun k s =>
    let old := csrVal c (csrNo w) s
    if writes then
      let v := cupdVal c w k.sc s
      let s := evecRead c w v parity s
      putEff c (rdOf w) old (csrPut c (csrNo w) v s) s
    else writeG c (rdOf w) (BitVec.ofNat 64 old) s) s

/-- `tcfg ga` (06 R225, R241). -/
def tcfg (c : CoreId) (w : Word32) (s : State) : State :=
  issue c w .plain [raOf w] (thenDec (computeOnly c (rdOf w == 0 && rbOf w == 0 && fld w 7 0 == 0))
      (fun k => (tcfgCheck (k.sc.gr (raOf w)).toNat).filter (fun f => f.code == 1)))
    (fun k s => tcfgWrite c (k.sc.gr (raOf w)).toNat s) s

def execCget (c : CoreId) (w : Word32) (s : State) : Host.Outcome State Fault Refusal := .next (cget c w s)
def execCput (c : CoreId) (w : HandleWord) (s : State) : Host.Outcome State Fault Refusal := .next (cput c w.word w.parity s)
def execCupd (c : CoreId) (w : HandleWord) (s : State) : Host.Outcome State Fault Refusal := .next (cupd c w.word w.parity s)
def execTcfg (c : CoreId) (w : Word32) (s : State) : Host.Outcome State Fault Refusal := .next (tcfg c w s)

/-! ## Counter wraps (20 R663) -/

/-- Counter k of a core wraps: events that time makes (cycles, stalls) bring it past its end, which is the sender's
(log entry 14). It sets ovf and, with oie, the interrupt. -/
def pctrWrap (c : CoreId) (k : Fin 8) (s : State) : State :=
  let v := mget (s.core c).sc.pctr k.val 0
  if natBit v.toNat 63 then
    s.updSc c (fun x =>
      let (v', irq) := pctrAdd v (2 ^ 48 - natBits v.toNat 47 0)
      { x with pctr := mput x.pctr k.val v', ip := if irq then x.ip ||| 4 else x.ip })
  else s

def execPctrWrap (c : CoreId) (k : Fin 8) (s : State) : Host.Outcome State Fault Refusal := .next (pctrWrap c k s)

end Sys2Proof.Machine
end

