-- ==== Sys2Proof/Machine/KilnBase.lean ====
section
/-! DEFINITION. What the Kiln shares with the engines and the links: completion rings, records, publications, interrupt
messages, the release of slots, cancellation of lists, and the halt of the module (02 R75, R88-R97, R108, R109,
15 R515, R518, 16 R526, R537, R538, R548, 17 R570, R571, 18 R601). -/

namespace Sys2Proof.Machine

/-! ## Names -/

/-- The engine of a queue (02 R69). -/
def engineOf (q : Nat) : Nat := q / 16

/-- The context of a queue (02 R69). -/
def ctxOf (q : Nat) : Nat := q % 16

/-- A command list as an agent of host writes. -/
def listAgent (q start : Nat) : Nat := 2000 + start * 176 + q

/-- The Kiln's unit (01 R677). -/
def kilnUnit : Nat := unitId 12 (23, 11) 0

/-- Ring m. -/
def State.ring (s : State) (m : Nat) : Ring := mget s.rings m {}

/-- Ring m replaced. -/
def State.setRing (s : State) (m : Nat) (r : Ring) : State := { s with rings := mput s.rings m r }

/-! ## The mirror's state as the Kiln sees it (16 R526, R537, R538) -/

/-- MIR_STAT.state. -/
def mirState (s : State) : Nat := s.get F.mirStat_state

/-- A primary, protected or syncing. -/
def isPrimary (s : State) : Bool := mirState s == 3 || mirState s == 4

/-- A shadow, syncing, in sync or detached. -/
def isShadow (s : State) : Bool := mirState s == 6 || mirState s == 7 || mirState s == 8

/-- Whether the Kiln fires lists in this state. -/
def mayFire (s : State) : Bool := decide (mirState s ≤ 5)

/-- Whether the epochs of R534 run: a primary that forwards, once epoch traffic has started (R529). -/
def epochsRun (s : State) : Bool := isPrimary s && s.get F.mirCtl_mode == 0 && s.mirror.epochs && !s.mirror.lost

/-- Whether the epoch of a frame has been acknowledged. -/
def epochAcked (s : State) (f : Nat) : Bool :=
  match s.mirror.acked with | some a => decide (f ≤ a) | none => false

/-! ## Host writes and publications (15 R515, R518) -/

/-- A core or a list learns that a write of it was refused. -/
def tellRefused (agent : Nat) (s : State) : State :=
  if agent < 1156 then s.updCore agent (fun k => { k with hostRefused := true })
  else if 2000 ≤ agent then
    let q := (agent - 2000) % 176
    s.updList q ((agent - 2000) / 176) (fun l => { l with refused := true })
  else s

/-- A store by the Kiln or an engine: to host memory as MWR of an agent, which is told where no bundle carries it (15 R515,
R521), or at its homes; `false` when a narrow write met an uncorrectable granule there (09 R333, R345). A write that the
mesh poisons goes to the host with its poison flag (10 R385, 15 R508). -/
def storeTold (w : Writer) (ctx a : Nat) (bs : List Byte) (e : Ecc) (m : List RoundTrip) (s : State) : State × Bool :=
  if isHostAddr a then
    let s := if linkUp s then s else tellRefused w.agent s
    let t := roundTrip m (meterEngine (unitXY w.unit) (bundleXY .vcl (hostBundle s ctx)) s)
    (sendHost { kind := .mwr, ctx := ctx, addr := ioAddr a, data := bs, agent := w.agent, poison := t.2.1, unit := some w.unit,
                slots := 1 + (bs.length + 15) / 16 } t.1, true)
  else storeRange w (bs.length / 256 + 2) (xlatDev s ctx a) bs e m s

/-- The same, of a writer that no rule has told. -/
def storeOut (agent ctx unit a : Nat) (bs : List Byte) (s : State) (e : Ecc := .clean) (m : List RoundTrip := []) : State :=
  (storeTold ⟨agent, unit, false⟩ ctx a bs e m s).1

/-- Whether PLACED covers every MWR a publication publishes: a ring's message publishes every record it would cover if
it were sent now (02 R109). -/
def pubReady (s : State) (p : Pub) : Bool :=
  match p.kind with
  | .ringMsg m => (s.ring m).covers.all (hostQuiet s)
  | _ => p.needs.all (hostQuiet s)

/-- A publication goes out. -/
def sendPub (p : Pub) (s : State) : State :=
  match p.tx.kind with
  | .msi => sendMsi p.tx.ctx p.tx.addr (ofLeBytes p.tx.data) s
  | _ => storeOut p.tx.agent p.tx.ctx (p.tx.unit.getD kilnUnit) p.tx.addr p.tx.data s

/-- The stores that waited at their homes and are served now. -/
def serveLate (s : State) : State :=
  s.upkeep.late.foldl (fun s l =>
    if rangeServes s l.addr l.data.length then
      let s := { s with upkeep := { s.upkeep with late := s.upkeep.late.erase l } }
      let r := if l.poison then (poisonStore l.addr l.data l.unit false s, true) else homeStore l.addr l.data .clean l.unit false s
      if r.2 || !l.told then r.1 else tellRefused l.agent r.1
    else s) s

/-- A publication whose sending changes nothing else: now, or when it is ready. -/
def publishPlain (p : Pub) (s : State) : State :=
  if pubReady s p then sendPub p s else { s with pubs := s.pubs ++ [p] }

/-! ## Interrupt messages of a ring (02 R108, R109) -/

/-- A ring's message has been sent: it covers every record whose byte 31 has been written. -/
def ringCovered (m : Nat) (s : State) : State := s.setRing m { s.ring m with unsignalled := 0, covers := [] }

/-- A ring's message: sent now, or once every record it then covers is placed. One that waits is not asked for twice. -/
def ringMessage (m : Nat) (s : State) : State :=
  let t : Tx := {
    kind := .msi
    ctx := s.get F.klnCrctl_owner m
    addr := (s.reg .klnCrmsgAddr m).toNat
    data := leBytes 4 (s.reg .klnCrmsgData m).toNat }
  let p : Pub := ⟨[], .ringMsg m, t⟩
  if s.pubs.any (fun p => p.kind == .ringMsg m) then s
  else if pubReady s p then ringCovered m (sendPub p s)
  else { s with pubs := s.pubs ++ [p] }

/-- A message is sent when the count is reached, or at once. -/
def judgeIrq (m : Nat) (now : Bool) (s : State) : State :=
  let r := s.ring m
  if s.flag F.klnCrctl_irq_en m && decide (0 < r.unsignalled) &&
     (now || decide (max 1 (s.get F.klnCrcoal_count m) ≤ r.unsignalled)) then ringMessage m s else s

/-! ## The release of slots (02 R75) -/

/-- The slots of a list: its header and its commands. -/
def CmdList.slots (l : CmdList) : Nat := 1 + l.count

/-- The lists whose records are written leave the head of a queue, and their slots are released. -/
def popOut : List CmdList → Nat → List CmdList × Nat
  | [], n => ([], n)
  | l :: t, n => if l.out then popOut t (n + l.slots) else (l :: t, n)

/-- ENG_DB_HEAD passes the slots of written lists. -/
def releaseOut (q : Nat) (s : State) : State :=
  let u := s.queue q
  let r := popOut u.lists 0
  (s.setQueue q { u with lists := r.1 }).bumpWrap F.engDbHead_head q r.2

/-- A list needs nothing further: its slots are released in order. -/
def listOut (q start : Nat) (s : State) : State := releaseOut q (s.updList q start (fun l => { l with out := true }))

/-- A record of ring m whose list was `agent` is written whole, and unsignalled (R109). -/
def recordWhole (agent m : Nat) (irqNow : Bool) (s : State) : State :=
  let r := s.ring m
  judgeIrq m irqNow (s.setRing m { r with unsignalled := r.unsignalled + 1, covers := r.covers ++ [agent] })

/-- The phase byte of a record has been written. -/
def phaseWritten (q start m : Nat) (irqNow : Bool) (s : State) : State :=
  recordWhole (listAgent q start) m irqNow (listOut q start s)

/-- What follows the sending of a publication. -/
def pubDone (p : Pub) (s : State) : State :=
  match p.kind with
  | .phase q start m irq => phaseWritten q start m irq s
  | .orphan agent m irq => recordWhole agent m irq s
  | .ringMsg m => ringCovered m s
  | .plain => s

/-- A publication: sent now, or when PLACED covers what it publishes. -/
def publish (p : Pub) (s : State) : State :=
  if pubReady s p then pubDone p (sendPub p s) else { s with pubs := s.pubs ++ [p] }

/-- An engine's command ends with a status, once every write of it to host memory is placed; one that would complete fails
where a write of it was refused, or the link has gone (12 R434, 15 R515, R521). -/
def engineEnd (q start st : Nat) (toHost : Bool) (s : State) : State :=
  if !hostQuiet s (listAgent q start) then s.updList q start (fun l => { l with drain := true, drainSt := st })
  else
    let bad := (s.list q start).any (·.refused) || (toHost && !linkUp s)
    commandEnd q start (if st = 0 ∧ bad = true then 6 else st)
      (s.updList q start (fun l => { l with drain := false, drainSt := 0, refused := false, pos := 0, rerun := false }))

/-- The engine commands that waited for their writes end. -/
def settleDrains (s : State) : State :=
  s.queues.foldl (fun s p => p.2.lists.foldl (fun s l =>
    if l.drain && hostQuiet s (listAgent p.1 l.start) then engineEnd p.1 l.start l.drainSt false s else s) s) s

/-- What waited for placements goes on: launches and engine commands end, and the publications that have become ready go
out, oldest first. -/
def releasePubs (s : State) : State :=
  let s := settleDrains (settleLaunches s)
  s.pubs.foldl (fun s p => if pubReady s p then pubDone p (sendPub p { s with pubs := s.pubs.erase p }) else s) s

/-- A home serves again: the stores that waited there are made, and what waited for them goes on. -/
def homeFreed (s : State) : State := if s.upkeep.late = [] then s else releasePubs (serveLate s)

/-! ## Completion records (02 R88-R92, 16 R538) -/

/-- Whether a ring is enabled and owned by a context. -/
def ringOwned (s : State) (m ctx : Nat) : Bool := s.flag F.klnCrctl_en m && s.get F.klnCrctl_owner m == ctx

/-- The ring a list reports to: the one it names, or the lowest its context owns. -/
def ringFor (s : State) (q cring : Nat) : Option Nat :=
  if decide (cring < 64) && ringOwned s cring (ctxOf q) then some cring
  else (nats 64 0 1).find? (fun m => ringOwned s m (ctxOf q))

/-- Whether a ring has room for its next record (R92). -/
def ringRoom (s : State) (m : Nat) : Bool :=
  decide (((s.ring m).written + 2 ^ 32 - s.get F.klnCrhead_consumed m) % 2 ^ 32 < 2 ^ s.get F.klnCrctl_size_log2 m)

/-- Whether a list's record waits for room (R92). -/
def waitsRoom (s : State) (q : Nat) (l : CmdList) : Bool :=
  match ringFor s q l.cring with
  | some m => !ringRoom s m
  | none => false

/-- Bytes 0-30 of a record. -/
def recordBytes (s : State) (q : Nat) (l : CmdList) (seq : Nat) : List Byte :=
  let f := l.ended.getD s.frame
  let mirrored := epochsRun s && epochAcked s f
  let flags := (if l.replayed then 1 else 0) + (if l.ranPast then 2 else 0) + (if mirrored then 4 else 0)
    + (if l.late then 8 else 0) + (if l.capped then 16 else 0)
  leBytes 8 seq ++ leBytes 8 l.tag ++ leBytes 6 f ++ [BitVec.ofNat 8 l.status, BitVec.ofNat 8 flags]
    ++ leBytes 4 l.stolen ++ leBytes 2 l.done ++ [BitVec.ofNat 8 (engineOf q * 16 + ctxOf q)]

/-- Whether hold_cpl keeps a record back (16 R538). -/
def recordHeld (s : State) (l : CmdList) : Bool :=
  epochsRun s && s.flag F.mirCtl_hold_cpl && !epochAcked s (l.ended.getD 0)

/-- The record of a list that has ended is written, or its slots released where its context owns no ring. -/
def writeRecord (q start : Nat) (e : Ecc) (x : List RoundTrip) (s : State) : State :=
  match s.list q start with
  | none => s
  | some l =>
    if l.ended.isNone || l.recording || l.out then s else
    match ringFor s q l.cring with
    | none => listOut q start s
    | some m =>
      if !ringRoom s m || recordHeld s l then s
      else
        let n := (s.ring m).written
        let j := s.get F.klnCrctl_size_log2 m
        let a := s.get F.klnCrbase_base m * 4096 + 32 * (n % 2 ^ j)
        let agent := listAgent q start
        let s := storeOut agent (ctxOf q) kilnUnit a (recordBytes s q l (n + 1)) s e x
        let s := s.updList q start (fun l => { l with recording := true })
        let s := s.setRing m { s.ring m with written := n + 1 }
        let t : Tx := {
          kind := .mwr
          ctx := ctxOf q
          addr := a + 31
          agent := agent
          data := [BitVec.ofNat 8 ((n / 2 ^ j + 1) % 2 * 128)]
          slots := 2 }
        publish ⟨[agent], .phase q start m l.irqNow, t⟩ s

/-- The list of a queue whose record is due next: reports keep queue order (R95). -/
def recordDue (s : State) (q : Nat) : Option CmdList := (s.queue q).lists.find? (fun l => !l.recording)

/-- COMPLETION_RECORD_WRITE: of a list that ran in the frame still running, whose stolen time no tick has reported yet,
with what the units it used have charged in that frame: the largest, and whether one reached the cap (R89, R106). -/
def completionRecordWrite (q ns : Nat) (cap : Bool) (e : Ecc) (m : List RoundTrip) (s : State) : State :=
  match recordDue s q with
  | some l => writeRecord q l.start e m (if l.fired.isSome ∧ l.ended = some s.frame then
      s.updList q l.start (fun l => { l with stolen := max l.stolen ns, capped := l.capped || cap }) else s)
  | none => s

def execCompletionRecordWrite (q : RecordTurn) (s : State) : Host.Outcome State Fault Refusal :=
  .next (completionRecordWrite q.queue q.ns.toNat q.cap q.ecc q.mesh s)

/-- COALESCE_TIMER_EXPIRY (R109). -/
def coalesceTimer (m : Nat) (s : State) : State :=
  if s.get F.klnCrcoal_timer_us m = 0 then s else judgeIrq m true s

def execCoalesceTimerExpiry (m : RingId) (s : State) : Host.Outcome State Fault Refusal := .next (coalesceTimer m s)

/-! ## Cancellation of lists (02 R97, 12 R454, 18 R601) -/

/-- A core of a cancelled kernel stops: its registers and scratchpad are undefined (log entry 26), and its reads of
host memory are cancelled (15 R525). -/
def cancelCore (c : Nat) (s : State) : State :=
  let s := { s with mrds := s.mrds.map (fun (m : Mrd) => if m.core = c then { m with dead := true } else m),
                    mrdWaits := s.mrdWaits.filter (fun (m : Mrd) => m.core != c) }
  let s := s.updCore c (fun k => { k with lastCtx := some k.sc.ctx, kernel := none, ending := none })
  stopPart c 0 (undefPad c (undefRegs c s))

/-- A launch is dropped: its cores stop, and a replay's exchanged scratchpads are left undefined. -/
def cancelLaunch (l : Launch) (s : State) : State :=
  let s := { s with launches := s.launches.filter (fun x => x != l) }
  let s := if l.started then l.left.foldl (fun s c => cancelCore c s) s else s
  l.pairs.foldl (fun s p => (fieldCores p.1 ++ fieldCores p.2).foldl (fun s c => undefPad c s) s) s

/-- The write of bytes 60-63 of a result buffer (14 R489, R491). -/
def readyTx (w : Swath) : Tx := {
  kind := .mwr
  ctx := ctxOf w.queue
  addr := w.result + 60
  data := leBytes 4 (2 ^ 31 + w.seq % 2 ^ 31)
  agent := listAgent w.queue w.start
  unit := some (engineUnit 9)
  slots := 2 }

/-- A SWATH is dropped, and its buffer left unwritten (14 R494). One whose first write is on its way to host memory makes
the buffer whole, once that write is placed: no part of it is written alone (14 R491, log entry 50). -/
def dropSwath (s : State) : State :=
  match s.swath with
  | some w =>
    let s := { s with swath := none, sieveRes := [] }
    if w.written then publishPlain ⟨[listAgent w.queue w.start], .plain, readyTx w⟩ s else s
  | none => s

/-- What the engines hold of a queue's lists is dropped. -/
def cancelEngine (q : Nat) (s : State) : State :=
  let s := (s.launches.filter (fun l => l.queue == q)).foldl (fun s l => cancelLaunch l s) s
  let s := withdraw (1156 + q) .returned { s with
    syncOps := s.syncOps.map (fun o => if o.agent = 1156 + q then { o with orphan := true } else o) }
  let s := if s.swath.any (fun w => w.queue == q) then dropSwath s else s
  let s := if s.mirror.resync = some (some q) then { s with mirror := { s.mirror with resync := some none } } else s
  match s.mirror.snap with
  | some x => if x.queue = q then { s with mirror := { s.mirror with
        snap := none, dirty := s.mirror.dirty ++ x.done.filter (· ∉ s.mirror.dirty) } } else s
  | none => s

/-- A record of queue q that is being written when the queue is cancelled is still made whole; its list is gone. -/
def orphanPubs (q : Nat) (s : State) : State :=
  { s with pubs := s.pubs.map (fun p =>
      match p.kind with
      | .phase q' start m irq => if q' = q then { p with kind := .orphan (listAgent q start) m irq } else p
      | _ => p) }

/-- The leading lists whose records are written are passed by the head; the rest are gone (R97). -/
def cancelQueue (q : Nat) (s : State) : State :=
  let u := s.queue q
  let n := ((u.lists.takeWhile (fun l => l.recording || l.out)).map CmdList.slots).sum
  (cancelEngine q (orphanPubs q (s.setQueue q { u with lists := [], fetch := 0 }))).bumpWrap F.engDbHead_head q n

/-- The running lists of every queue are cancelled; lists not fired stay (16 R548). -/
def cancelRunning (s : State) : State :=
  s.queues.foldl (fun s p =>
    if p.2.lists.any CmdList.live then
      cancelEngine p.1 (s.setQueue p.1 { p.2 with lists := p.2.lists.filter (fun l => !l.live) })
    else s) s

/-! ## The halt of the module (16 R548, 17 R570, R571) -/

/-- The lowest bundle of a link that is active or degraded. -/
def lowBundle (s : State) (l : LinkId) : Option Nat := (nats 3 0 1).find? (usable s l)

/-- A mirror message that must go to the peer now: on the lowest usable mirror bundle. -/
def sendPeer (t : Tx) (s : State) : State :=
  match lowBundle s .mir with | some b => sendOn .mir b t s | none => s

/-- A mirror state change, with its record: state, epoch and reason (16 R557). -/
def mirGoto (st reason : Nat) (s : State) : State :=
  record 0 (unitId 8 (35, 4) 0x200) 0x90
    ([BitVec.ofNat 8 st] ++ leBytes 6 (s.get F.mirEpochAck_frame) ++ leBytes 2 reason)
    (stateEvent 0x301 (mirState s) st (s.set F.mirStat_state st))

/-- The module halts for a reason of R548: MGASP to the peer, state 10, running lists cancelled, cores stopped, parked.
A module that has halted stays so. -/
def halt (reason : Nat) (s : State) : State :=
  if mirState s = 10 then s else
  let st := mirState s
  let s := if st = 3 ∨ st = 4 ∨ st = 6 ∨ st = 7 then
      raise F.mirEvtStat_gasp_tx (sendPeer { kind := .mgasp, tag := reason } s) else s
  let s := cancelRunning (mirGoto 10 reason s)
  let stop := fun (p : Nat × Core) =>
    (p.1, if p.2.run = RunState.running then { p.2 with run := .stopped, wait := .none } else p.2)
  let s := { s with cores := s.cores.map stop, upkeep := { s.upkeep with selfRefresh := true } }
  (s.set F.hrtStat_halted 1).set F.hrtStat_parked 1

/-- A fatal record, and the halt it ends in. -/
def fatal (reason unit op : Nat) (details : List Byte) (s : State) : State := halt reason (record 3 unit op details s)

end Sys2Proof.Machine
end

