-- ==== Sys2Proof/Machine/Queues.lean ====
section
/-! DEFINITION. Queues, doorbells, completion rings and the frame control as their registers are written, and the fetch
of list headers (02 R58, R63, R70-R81, R94, R95, R107, R111, 16 R539). -/

namespace Sys2Proof.Machine

/-! ## Placement (02 R70, R94) -/

/-- Whether a address range lies wholly in the host region or in one region of near or far memory. -/
def placedOk (a n : Nat) : Bool :=
  let r := regionOf a
  (r == .near || r == .far || r == .host) && regionOf (a + n - 1) == r &&
  (r != .near || (decide (a < 0x0280_0000_0000) == decide (a + n - 1 < 0x0280_0000_0000)))

/-- A Kiln register write was refused. -/
def klnRefuse (s : State) : State := raise F.klnEvtStat_cfg_err s

/-- A value's field. -/
def fieldOfWord (f : Fld) (v : Nat) : Nat := natBits v f.hi f.lo

/-! ## Queue registers (02 R72, R77) -/

/-- A write of KLN_QBASE[n]. -/
def qbaseWrite (q v : Nat) (s : State) : State :=
  if s.flag F.klnQctl_en q then klnRefuse s else s.set F.klnQbase_base (fieldOfWord F.klnQbase_base v) q

/-- A write of KLN_QCTL[n]: while en is 1 only one that clears en; a size of 4-16; a ring wholly in one region. -/
def qctlWrite (q v : Nat) (s : State) : State :=
  let en := natBit v 31
  let k := fieldOfWord F.klnQctl_size_log2 v
  if s.flag F.klnQctl_en q then
    if en then klnRefuse s else cancelQueue q (s.set F.klnQctl_en 0 q)
  else if k < 4 ∨ 16 < k ∨ (en = true ∧ placedOk (s.get F.klnQbase_base q * 4096) (64 * 2 ^ k) = false) then klnRefuse s
  else
    let s := (s.set F.klnQctl_policy (fieldOfWord F.klnQctl_policy v) q).set F.klnQctl_size_log2 k q
    if en then
      (((s.set F.klnQctl_en 1 q).set F.engDbTail_tail 0 q).set F.engDbHead_head 0 q).setQueue q {}
    else s

def execQueueEnable (q : QueueId) (v : Word32) (s : State) : Host.Outcome State Fault Refusal := .next (qctlWrite q v.toNat s)
def execQueueDisable (q : QueueId) (s : State) : Host.Outcome State Fault Refusal := .next (qctlWrite q 0 s)

/-- a - b of 32-bit counts is at least 0 as a signed difference (02 R73). -/
def atLeast (a b : Nat) : Bool := decide ((a + 2 ^ 32 - b % 2 ^ 32) % 2 ^ 32 < 2 ^ 31)

/-- a - b modulo 2^32. -/
def countDiff (a b : Nat) : Nat := (a + 2 ^ 32 - b % 2 ^ 32) % 2 ^ 32

/-- A write of ENG_DB_TAIL (R73). -/
def doorbell (q t : Nat) (s : State) : State :=
  let head := s.get F.engDbHead_head q
  if s.flag F.klnQctl_en q && atLeast t head && decide (countDiff t head ≤ 2 ^ s.get F.klnQctl_size_log2 q) &&
     atLeast t (s.get F.engDbTail_tail q) then s.set F.engDbTail_tail t q
  else raise F.klnEvtStat_db_err (s.set F.klnQstat_db_err 1 q)

def execDoorbellWrite (q : QueueId) (t : Word32) (s : State) : Host.Outcome State Fault Refusal := .next (doorbell q t.toNat s)

/-! ## Completion-ring registers (02 R94, R109) -/

/-- A write of KLN_CRBASE[m]. -/
def crbaseWrite (m v : Nat) (s : State) : State :=
  if s.flag F.klnCrctl_en m then klnRefuse s else s.set F.klnCrbase_base (fieldOfWord F.klnCrbase_base v) m

/-- Whether a list waits for room: it has ended, or a firing tick has come for it and its ring is still full. -/
def waitsRecord (s : State) (q : Nat) (l : CmdList) : Bool :=
  !l.recording && !l.out && (l.ended.isSome || (l.stalled && waitsRoom s q l))

/-- A list that waits for room while its context owns no ring any more: no record is written, and its slots are released
at once (R88). -/
def releaseRingless (q : Nat) (l : CmdList) (s : State) : State :=
  if (ringFor s q l.cring).isNone then
    listOut q l.start (s.updList q l.start (fun l => { l with ended := some (l.ended.getD s.frame) }))
  else s

/-- A ring is disabled: the lists that waited for room, which `s` says, are judged anew. -/
def disableRing (m : Nat) (s : State) : State :=
  s.queues.foldl (fun t p => ((s.queue p.1).lists.filter (waitsRecord s p.1)).foldl (fun t l => releaseRingless p.1 l t) t)
    (s.set F.klnCrctl_en 0 m)

/-- A write of KLN_CRCTL[m]. Setting irq_en sends the message that is due. -/
def crctlWrite (m v : Nat) (s : State) : State :=
  let en := natBit v 31
  let j := fieldOfWord F.klnCrctl_size_log2 v
  let owner := fieldOfWord F.klnCrctl_owner v
  let was := s.flag F.klnCrctl_en m
  if was && !en then disableRing m s
  else if j < 6 ∨ 16 < j ∨
      (was = true ∧ (owner ≠ s.get F.klnCrctl_owner m ∨ j ≠ s.get F.klnCrctl_size_log2 m)) ∨
      (was = false ∧ en = true ∧ placedOk (s.get F.klnCrbase_base m * 4096) (32 * 2 ^ j) = false) then klnRefuse s
  else
    let irq := s.flag F.klnCrctl_irq_en m
    let s := ((s.set F.klnCrctl_irq_en (fieldOfWord F.klnCrctl_irq_en v) m).set F.klnCrctl_owner owner m).set
      F.klnCrctl_size_log2 j m
    let s := if en && !was then
        ((s.set F.klnCrctl_en 1 m).set F.klnCrhead_consumed 0 m).setRing m {}
      else s
    if irq then s else judgeIrq m false s

/-- A write of KLN_CRCOAL[m]: a lower count may be reached already. -/
def crcoalWrite (m v : Nat) (s : State) : State :=
  judgeIrq m false ((s.set F.klnCrcoal_timer_us (fieldOfWord F.klnCrcoal_timer_us v) m).set F.klnCrcoal_count
    (fieldOfWord F.klnCrcoal_count v) m)

def execRingEnable (m : RingId) (v : Word32) (s : State) : Host.Outcome State Fault Refusal := .next (crctlWrite m v.toNat s)
def execRingDisable (m : RingId) (s : State) : Host.Outcome State Fault Refusal := .next (crctlWrite m 0 s)
def execCrheadWrite (m : RingId) (v : Word32) (s : State) : Host.Outcome State Fault Refusal :=
  .next (s.set F.klnCrhead_consumed v.toNat m)

/-! ## Frame control (02 R58, R59, R63, R111) -/

/-- Acquisition is entered (R63). `lost` is whether sync_lost is set already. -/
def enterAcq (lost : Bool) (s : State) : State :=
  { s with kiln := { s.kiln with acq := true, acqLost := lost, acqMiss := 0, inWin := 0,
                                 adopt := s.get F.klnFrameCtl_src == 1 } }

/-- A write of KLN_FRAME_CTL. Acquisition entered by tick_en keeps `locked` (log entry 49). -/
def frameCtlWrite (v : Nat) (s : State) : State :=
  let p := fieldOfWord F.klnFrameCtl_period_us v
  let src := fieldOfWord F.klnFrameCtl_src v
  let win := fieldOfWord F.klnFrameCtl_win v
  if p < 40 ∨ 2000 < p ∨ src = 3 ∨ p * 1000 < win * 40 then klnRefuse s
  else
    let oldSrc := s.get F.klnFrameCtl_src
    let oldEn := s.flag F.klnFrameCtl_tick_en
    let en := natBit v 31
    let s := ((((s.set F.klnFrameCtl_tick_en (if en then 1 else 0)).set F.klnFrameCtl_src src).set F.klnFrameCtl_sync_out
      (fieldOfWord F.klnFrameCtl_sync_out v)).set F.klnFrameCtl_win win).set F.klnFrameCtl_period_us p
    let s := if src ≠ oldSrc then
        { s with kiln := { s.kiln with acq := false, inWin := 0, acqMiss := 0 } }.set F.klnFrameStat_locked 0 else s
    let s := if en && !oldEn then { s with kiln := { s.kiln with tickClk := s.clk, period := p } } else s
    if src ≠ 0 ∧ (src ≠ oldSrc ∨ (en = true ∧ oldEn = false)) then enterAcq false s else s

def execFrameCtlWrite (v : Word32) (s : State) : Host.Outcome State Fault Refusal := .next (frameCtlWrite v.toNat s)

/-- REPAIR_GRANT: a write of 1 to KLN_REPAIR.grant (R107). -/
def repairGrant (s : State) : State := s.set F.klnRepair_grant 1

def execRepairGrant (s : State) : Host.Outcome State Fault Refusal := .next (repairGrant s)

/-! ## Reading slots (02 R70, R74) -/

/-- The device address of slot count i of queue q. -/
def slotAddr (s : State) (q i : Nat) : Nat :=
  s.get F.klnQbase_base q * 4096 + 64 * (i % 2 ^ s.get F.klnQctl_size_log2 q)

/-- A byte of host memory as it is served. -/
def hostByte (h : HostView) (a : Nat) : Byte := mget h.bytes a 0

/-- Whether a read by the Kiln or an engine is served now: its homes are held for no repair, slice or fill (09 R336, R348,
R351, R355), and a read of host memory has a tag (15 R511). -/
def engineServed (s : State) (a n : Nat) : Bool := if isHostAddr a then (freeTag s).isSome else rangeServes s a n

/-- Who reads memory for the Kiln or an engine: its unit, and the context of the read (15 R511). -/
structure Asker where
  unit : Nat
  ctx : Nat := 0

/-- The record of a link transaction: its I/O address and its requester (15 R522). -/
def linkRecord (b addr unit : Nat) (s : State) : State :=
  record 2 (unitId 7 (bundleXY .vcl b) 0) 0x52 (leBytes 8 addr ++ leBytes 4 unit) s

/-- What a CPLE, or a completion timeout, of a read of host memory shows: only a translation fault and a timeout are events
with a record (15 R516, R522, R523). -/
def cpleShown (st ctx addr unit : Nat) (s : State) : State :=
  if st = 1 then raise F.vclEvtStat_xlat_err (linkRecord (ctxBundle s ctx) addr unit s)
  else if st = 3 then raise F.vclEvtStat_cpl_timeout (linkRecord (ctxBundle s ctx) addr unit s)
  else s

/-- A block of host memory read by the Kiln or an engine: an MRD on the bundle of its context, whose completion the command
carries (15 R508-R516, log entry 5). Without a bundle its status is 3 at once (R521). -/
def hostBlock (w : Asker) (a n : Nat) (h : HostView) (m : RoundTrip) (s : State) : State × Option (List Byte) :=
  let s := meterEngine (unitXY w.unit) (bundleXY .vcl (hostBundle s w.ctx)) s
  let t := roundTrip [m] s
  if !linkUp s then (t.1, none)
  else
    let s := sendHost { kind := .mrd, ctx := w.ctx, addr := ioAddr a, tag := (freeTag s).getD 0, unit := some w.unit,
                        want := n } t.1
    match h.bad.find? (fun x => a ≤ x.1 && x.1 < a + n) with
    | some x => (cpleShown x.2.toNat w.ctx (ioAddr a) w.unit s, none)
    | none => (s, if t.2.1 || t.2.2 then none else some ((nats n a 1).map (hostByte h)))

/-- A range of host memory in blocks that cross no 256-byte boundary (15 R508). -/
def hostRange (w : Asker) : Nat → Nat → Nat → HostView → List RoundTrip → State → State × Option (List Byte)
  | 0, _, _, _, _, s => (s, some [])
  | f + 1, a, n, h, m, s =>
    if n = 0 then (s, some []) else
    let k := min n (256 - a % 256)
    let r := hostBlock w a k h (m.headD {}) s
    let q := hostRange w f (a + k) (n - k) h (m.drop 1) r.1
    (q.1, match r.2, q.2 with | some x, some y => some (x ++ y) | _, _ => none)

/-- A read of memory by the Kiln or an engine: nothing where a location is uncorrectable (09 R357). -/
def engineRead (w : Asker) (a n : Nat) (h : HostView) (s : State) : State × Option (List Byte) :=
  if isHostAddr a then hostRange w (n / 256 + 2) a n h h.mesh s
  else loadRange w.unit (n / 256 + 2) (xlatDev s w.ctx a) n h.ecc h.mesh s

/-- What is left of a view when n bytes at a have been accessed, `gs` of their granules under the code. -/
def viewPast (h : HostView) (a n gs : Nat) : HostView :=
  { h with ecc := if isHostAddr a then h.ecc else h.ecc.from gs, mesh := h.mesh.drop (blocksOf a n) }

/-! ## Header fetch (02 R79-R81, R95) -/

/-- The checks of a list header (R81); `k` is the queue's size_log2. -/
def headerOk (b : List Byte) (k : Nat) : Bool :=
  let count := leAt b 4 2
  leAt b 0 1 == 1 && decide (leAt b 2 1 ≤ 4) && decide (leAt b 3 1 < 64) && decide (1 ≤ count ∧ count ≤ 4095) &&
  decide (1 + count ≤ 2 ^ k) && leAt b 14 2 == 0 && decide (leAt b 1 1 < 4) && leAt b 6 2 == 0 &&
  (b.drop 24).all (· == 0)

/-- The list a good header starts. -/
def headerList (s : State) (start : Nat) (b : List Byte) : CmdList :=
  let target := leAt b 8 6
  let next := natBit (leAt b 1 1) 0
  let far := !next && decide (s.frame + 65536 ≤ target)
  { start := start, count := leAt b 4 2, next := next, irqNow := natBit (leAt b 1 1) 1, budget := max 1 (leAt b 2 1),
    cring := leAt b 3 1, target := target, tag := leAt b 16 8, status := if far then 4 else 0, reportOnly := far,
    late := !next && decide (target < s.frame) }

/-- The list a malformed header makes: its slot alone. Its irq_now bit is not taken, so its record is signalled as the
ring coalesces (log entry 27). -/
def badList (start : Nat) (b : List Byte) : CmdList :=
  { start := start, cring := leAt b 3 1, target := leAt b 8 6, tag := leAt b 16 8, status := 3, reportOnly := true }

/-- Whether the doorbell covers a list's slots (R79). -/
def eligible (s : State) (q : Nat) (l : CmdList) : Bool := atLeast (s.get F.engDbTail_tail q) (l.start + l.slots)

/-! ### Lists on a shadow (16 R539) -/

/-- Leading lists whose target lies below the open frame applied, and their slots. -/
def popShadow (s : State) (q frame : Nat) : List CmdList → Nat → List CmdList × Nat
  | [], n => ([], n)
  | l :: t, n => if eligible s q l && l.fired.isNone && decide (l.target < frame) then popShadow s q frame t (n + l.slots)
      else (l :: t, n)

/-- A shadow releases a queue's lists with targets below `frame` without running them. -/
def shadowRelease (frame q : Nat) (s : State) : State :=
  let u := s.queue q
  let r := popShadow s q frame u.lists 0
  (s.setQueue q { u with lists := r.1 }).bumpWrap F.engDbHead_head q r.2

/-- Every queue's lists. -/
def shadowReleaseAll (frame : Nat) (s : State) : State := s.queues.foldl (fun s p => shadowRelease frame p.1 s) s

/-! ### The step -/

/-- HEADER_FETCH: the next header the doorbell covers. A slot that cannot be read is malformed (log entry 27). -/
def headerFetch (q : Nat) (h : HostView) (s : State) : State :=
  let u := s.queue q
  let f := u.fetch % 2 ^ 32
  if !s.flag F.klnQctl_en q || !atLeast (s.get F.engDbTail_tail q) (f + 1) || !engineServed s (slotAddr s q f) 64 then s
  else
    let r := engineRead ⟨kilnUnit, ctxOf q⟩ (slotAddr s q f) 64 h s
    let s := r.1
    let b := r.2.getD (List.replicate 64 0)
    let l := if headerOk b (s.get F.klnQctl_size_log2 q) then headerList s f b else badList f b
    let s := s.setQueue q { u with fetch := (f + l.slots) % 2 ^ 32, lists := u.lists ++ [l] }
    if isShadow s && s.mirror.applied then shadowRelease s.mirror.openFrame q s else s

def execHeaderFetch (q : QueueId) (hv : HostView) (s : State) : Host.Outcome State Fault Refusal := .next (headerFetch q hv s)

end Sys2Proof.Machine
end

