-- ==== Sys2Proof/Machine/Commands.lean ====
section
/-! DEFINITION. The commands of a list: which may start, NOP, SIG, WAIT, DEC and LAUNCH, and parity errors of held
commands (02 R78, R82-R86, R96, 12 R444, R448, R454, 18 R594). -/

namespace Sys2Proof.Machine

/-! ## Which command starts (02 R83, R96) -/

/-- The list of a queue that runs: a later one waits until it has ended (R101). -/
def runningList (s : State) (q : Nat) : Option CmdList := (s.queue q).lists.find? CmdList.live

/-- Whether an engine other than the compute engine has a command in progress. -/
def engineBusy (s : State) (e : Nat) : Bool :=
  (nats 16 (16 * e) 1).any (fun q => (s.queue q).lists.any (fun l => l.live && l.busy))

/-- Whether a queue's running list has a command to start. -/
def wantsTurn (s : State) (q : Nat) : Bool :=
  match runningList s q with
  | some l => !l.busy && !l.stop && decide (l.idx < l.count)
  | none => false

/-- Whether queue q is the next of its engine in queue order, after the one served last. -/
def isTurn (s : State) (q : Nat) : Bool :=
  let e := engineOf q
  let last := mget s.turn e 15
  (nats 16 (last + 1) 1).find? (fun i => wantsTurn s (16 * e + i % 16)) |>.any (fun i => i % 16 == ctxOf q)

/-- The list of a queue whose next command may start now. -/
def canStart (s : State) (q : Nat) : Option CmdList :=
  if wantsTurn s q && (engineOf q == 0 || (!engineBusy s (engineOf q) && isTurn s q)) then runningList s q else none

/-- Whether an opcode is a command of engine e (R82, 14 R482, 16 R542). -/
def opValid (e op : Nat) : Bool :=
  op == 0 || op == 2 || op == 3 || op == 4 || (op == 0x10 && e == 0) || (op == 0x20 && decide (1 ≤ e ∧ e ≤ 8)) ||
  (op == 0x30 && e == 9) || ((op == 0x40 || op == 0x41) && e == 10)

/-- Whether a command waits for the command before it in its list, a LAUNCH that has not ended: only a LAUNCH on fields
it does not share passes an overlapping one (R83). -/
def waitsLaunch (s : State) (q : Nat) (l : CmdList) (b : List Byte) : Bool :=
  (s.launchesOf q l.start).any (fun x => x.idx + 1 == l.idx &&
    !(leAt b 0 1 == 0x10 && x.overlap && x.fields &&& leAt b 8 4 == 0))

/-- A command starts: its slot is read once; an unreadable slot ends the list (log entry 27). `mine` says which opcodes
this step is of; it waits while the homes of the slot, or those of `needs` that the command reads as it starts, are
held. -/
def beginCmd (q : Nat) (h : HostView) (mine : Nat → Bool) (run : HostView → CmdList → List Byte → State → State) (s : State)
    (needs : State → List Byte → Option (Nat × Nat) := fun _ _ => none) : State :=
  match canStart s q with
  | none => s
  | some l =>
    let e := engineOf q
    let a := slotAddr s q (l.start + 1 + l.idx)
    let r := engineRead ⟨engineUnit e, ctxOf q⟩ a 64 h s
    let go := fun s : State =>
      { s with turn := mput s.turn e (ctxOf q) }.updList q l.start (fun l => { l with
        idx := l.idx + 1, busy := true, cmd := [] })
    if !engineServed s a 64 then s
    else match r.2 with
    | none => commandEnd q l.start 6 (go r.1)
    | some b =>
      if !mine (leAt b 0 1) || waitsLaunch s q l b || (needs s b).any (fun p => !engineServed s p.1 p.2) then s
      else run (viewPast h a 64 (granules a 64).length) l b (go r.1)

/-- Whether bytes [lo, hi) of a command are all 0. -/
def zeroBytes (b : List Byte) (lo hi : Nat) : Bool := ((b.drop lo).take (hi - lo)).all (· == 0)

/-- NOP; an opcode not valid for its engine ends its list (R82). -/
def nop (q : Nat) (h : HostView) (s : State) : State :=
  beginCmd q h (fun op => op == 0 || !opValid (engineOf q) op) (fun _ l b s =>
    commandEnd q l.start (if leAt b 0 1 = 0 ∧ zeroBytes b 1 64 then 0 else 3) s) s

def execNop (q : QueueId) (hv : HostView) (s : State) : Host.Outcome State Fault Refusal := .next (nop q hv s)

/-! ## Sync commands (12 R444, R448, R454) -/

/-- The object a command's identifier names with the permission of bit `perm`. -/
def cmdObj (s : State) (ctx id perm : Nat) : Option Nat :=
  let e := (s.reg .synVtab (1024 * ctx + id)).toNat
  if id < 1024 ∧ natBit e 31 ∧ natBit e perm then some (e % 4096) else none

/-- SIG, WAIT and DEC: translated when they start, then sent to the unit. -/
def syncCommand (q : Nat) (h : HostView) (op perm : Nat) (kind : Nat → SyncKind) (s : State) : State :=
  beginCmd q h (· == op) (fun _ l b s =>
    if !(zeroBytes b 1 8 && zeroBytes b 10 12 && zeroBytes b 16 64) then commandEnd q l.start 3 s
    else
      match cmdObj s (ctxOf q) (leAt b 8 2) perm with
      | none => commandEnd q l.start 3 (raise F.synEvtStat_bad_id s)
      | some p =>
        sendSync { agent := 1156 + q, obj := p, kind := kind (leAt b 12 4), id := leAt b 8 2 }
          (s.updList q l.start (fun l => { l with holds := op == 3 }))) s

def execSigCommand (q : QueueId) (hv : HostView) (s : State) : Host.Outcome State Fault Refusal :=
  .next (syncCommand q hv 2 30 .sig s)
def execWaitCommand (q : QueueId) (hv : HostView) (s : State) : Host.Outcome State Fault Refusal :=
  .next (syncCommand q hv 3 29 (fun n => .wait n false) s)
def execDecCommand (q : QueueId) (hv : HostView) (s : State) : Host.Outcome State Fault Refusal :=
  .next (syncCommand q hv 4 29 .dec s)

/-! ## Command faults (18 R613, op 0x00C0) -/

/-- The record of a command that a check ended: the engine, the command's index, the status, and the handle. -/
def faultRecord (q : Nat) (l : CmdList) (st hnd core : Nat) (s : State) : State :=
  record 0 (engineUnit (engineOf q)) 0xC0
    (leBytes 2 l.idx ++ leBytes 6 0 ++ leBytes 2 q ++ leBytes 8 l.tag
      ++ [BitVec.ofNat 8 st, BitVec.ofNat 8 hnd] ++ leBytes 2 core) s

/-- A command that a check ended. -/
def commandFault (q : Nat) (l : CmdList) (st hnd core : Nat) (s : State) : State :=
  commandEnd q l.start st (faultRecord q l st hnd core s)

/-! ## LAUNCH (02 R84, R85) -/

/-- An entry of a context's handle table, if valid. -/
def tableEntry (s : State) (ctx h : Nat) : Option (Word64 × Word64) :=
  let w0 := s.reg .klnHtabW0 (64 * ctx + h)
  if h < 64 ∧ natBit w0.toNat 63 then some (w0, s.reg .klnHtabW1 (64 * ctx + h)) else none

/-- Base of an entry. -/
def entryBase (e : Word64 × Word64) : Nat := natBits e.1.toNat 47 0

/-- Length of an entry. -/
def entryLen (e : Word64 × Word64) : Nat := natBits e.2.toNat 47 0

/-- The cores that a field mask and a core mask name, by field and local index. -/
def launchCores (fields cores : Nat) : List Nat :=
  ((nats 18 0 1).filter (natBit fields)).flatMap (fun f => ((nats 64 0 1).filter (natBit cores)).map (coreAt f))

/-- What the checks of R85 find. -/
inductive LaunchCheck where
  | ok (stages : List Byte)
  | malformed
  | fault (hnd core : Nat)
  | lost
deriving DecidableEq, Repr

/-- The stage bytes of rule 2, read at the start. -/
def stageBytes (q : Nat) (h : HostView) (b : List Byte) (s : State) : State × LaunchCheck :=
  if leAt b 48 1 ≠ 2 then (s, .ok [b.getD 49 0])
  else
    match tableEntry s (ctxOf q) (leAt b 49 1) with
    | none => (s, .fault (leAt b 49 1) 0)
    | some e =>
      if natBit e.1.toNat 55 = false ∨ entryLen e < 1152 then (s, .fault (leAt b 49 1) 0)
      else
        match engineRead ⟨engineUnit 0, ctxOf q⟩ (entryBase e) 1152 h s with
        | (s, none) => (s, .lost)
        | (s, some bs) => (s, .ok bs)

/-- What the stage bytes of rule 2 lie in. -/
def stagePlace (q : Nat) (s : State) (b : List Byte) : Option (Nat × Nat) :=
  if leAt b 48 1 = 2 then
    match tableEntry s (ctxOf q) (leAt b 49 1) with
    | some e => if natBit e.1.toNat 55 ∧ 1152 ≤ entryLen e then some (entryBase e, 1152) else none
    | none => none
  else none

/-- The checks of a LAUNCH, in order. -/
def launchCheck (q : Nat) (h : HostView) (b : List Byte) (s : State) : State × LaunchCheck :=
  if !(zeroBytes b 2 8 && zeroBytes b 12 16 && zeroBytes b 26 28 && zeroBytes b 51 64 && decide (leAt b 8 4 < 2 ^ 18) &&
       decide (leAt b 1 1 < 4) && leAt b 28 4 % 4 == 0 && decide (leAt b 48 1 ≤ 2) && decide (leAt b 50 1 ≤ 1)) then
    (s, .malformed)
  else if !(tableEntry s (ctxOf q) (leAt b 24 2)).any (fun e => natBit e.1.toNat 57) then (s, .fault (leAt b 24 2) 0)
  else
    match stageBytes q h b s with
    | (s, .ok st) =>
      match (launchCores (leAt b 8 4) (leAt b 16 8)).filter (coreRetired s) with
      | c :: t => (s, .fault 0xFF (t.foldl min c))
      | [] => (s, .ok st)
    | r => r

/-- LAUNCH: checked when it starts; then it waits for its cores (KERNEL_LAUNCH). None starts before ready (19 R632). -/
def launch (q : Nat) (h : HostView) (s : State) : State :=
  if s.get F.secBootStat_state ≠ 4 then s else
  beginCmd q h (· == 0x10) (fun h l b s =>
    match launchCheck q h b s with
    | (s, .malformed) => commandEnd q l.start 3 s
    | (s, .fault hnd core) => commandFault q l 5 hnd core s
    | (s, .lost) => commandEnd q l.start 6 s
    | (s, .ok st) =>
      let cores := launchCores (leAt b 8 4) (leAt b 16 8)
      if cores = [] then commandEnd q l.start 0 s
      else
        let x : Launch := {
          queue := q
          start := l.start
          idx := l.idx
          cores := cores
          left := cores
          fields := leAt b 8 4
          code := leAt b 24 2
          entry := leAt b 28 4
          arg0 := BitVec.ofNat 64 (leAt b 32 8)
          arg1 := BitVec.ofNat 64 (leAt b 40 8)
          det := natBit (leAt b 1 1) 1
          overlap := natBit (leAt b 1 1) 0
          priv := BitVec.ofNat 2 (leAt b 50 1)
          stageRule := leAt b 48 1
          stages := st
          firedAt := l.fired.getD 0 }
        { s with launches := s.launches ++ [x] }.updList q l.start (fun l => { l with busy := false })) s (stagePlace q)

def execLaunch (q : QueueId) (hv : HostView) (s : State) : Host.Outcome State Fault Refusal := .next (launch q hv s)

end Sys2Proof.Machine
end

