-- ==== Sys2Proof/Machine/Mirror.lean ====
section
/-! DEFINITION. The mirror engine: pairing, epochs, the shadow's journal, snapshots, resync, risk and the messages of
the mirror profile (16 R526-R549, R553). What a lost peer leads to is in Failover.lean. -/

namespace Sys2Proof.Machine

/-- The mirror engine changed. -/
def State.updMir (s : State) (f : Mirror → Mirror) : State := { s with mirror := f s.mirror }

/-! ## Markers (16 R531, R534) -/

/-- The bundles that owe a marker: those in use, and those that have carried MFWD since their last one, by bit
(log entry 35). -/
def markMask (s : State) : Nat :=
  ((nats 3 0 1).filter (fun b => usable s .mir b || mget s.mirror.sent b 0 != 0)).foldl (fun a i => a + 2 ^ i) 0

/-- The marker of a bundle: the MFWD it counts, its open frame and the bundles in use. That of a bundle that has failed goes
as resent traffic of it on the next one (R531, log entry 35). -/
def sendMarker (b frame kind opn mask : Nat) (s : State) : State :=
  let u := s.bundle .mir b
  let t : Tx := {
    kind := .mepoch
    addr := frame
    tag := kind
    data := leBytes 8 (mget s.mirror.sent b 0) ++ leBytes 6 opn ++ [BitVec.ofNat 8 mask, 0]
    slots := 2 }
  let s := if usable s .mir b then sendOn .mir b t s
    else match pickBundle s .mir b with
      | some d => sendOn .mir d { t with resend := true, orig := (b, u.txSeq) }
          (s.setBundle .mir b { u with txSeq := (u.txSeq + 1) % 4096 })
      | none => s
  s.updMir (fun m => { m with sent := mput m.sent b 0 })

/-- A marker of kind 1 or 2 of a bundle goes out behind the MFWD that wait for it there. -/
def queueMarker (b : Nat) (x : Behind) (s : State) : State :=
  if epochsMarked s b < x.epoch ∨ s.mirror.behind.any (fun y =>
      match y.marker with | none => mirBundleOf s y.addr == some b | some c => c == b) then
    s.updMir (fun m => { m with behind := m.behind ++ [x] })
  else sendMarker b x.addr x.kind 0 x.mask s

/-- A marker of kind 1 or 2 on every bundle that owes one. -/
def sendMarkers (frame kind : Nat) (s : State) : State :=
  let mask := markMask s
  ((nats 3 0 1).filter (natBit mask)).foldl (fun s b =>
    queueMarker b { epoch := epochNow s, kind := kind, addr := frame, marker := some b, mask := mask } s) s

/-- What waited behind the close of an epoch goes out as far as it may, in order. -/
def releaseBehind (s : State) : State :=
  s.mirror.behind.foldl (fun s x => match x.marker with | none => queueMfwd x s | some b => queueMarker b x s)
    (s.updMir (fun m => { m with behind := [] }))

/-! ## Pairing (16 R527, R528) -/

/-- MPAIR of this module: its slot, its FMC_MAP and its state. -/
def sendMpair (s : State) : State :=
  sendPeer { kind := .mpair, tag := s.get F.mirStat_slot, addr := (s.reg .fmcMap 0).toNat % 2 ^ 32, status := mirState s,
             slots := 2 } s

/-- PAIRING_START. -/
def pairingStart (s : State) : State :=
  if s.flag F.mirCtl_en && !s.flag F.mirCtl_solo && mirBundles s != [] then
    if mirState s = 0 then sendMpair (mirGoto 1 0 s) else if mirState s = 5 then sendMpair s else s
  else s

def execPairingStart (s : State) : Host.Outcome State Fault Refusal := .next (pairingStart s)

/-- The resync stream starts (R553). -/
def startResync (q : Option Nat) (s : State) : State :=
  ((s.set F.mirResync_busy 1).set F.mirResync_pct 0).updMir (fun m => { m with resync := some q, resyncPos := 0 })

/-- The module becomes primary, syncing. -/
def becomePrimary (s : State) : State :=
  startResync none ((mirGoto 4 0 s).updMir (fun m => { m with
    epochs := false, acked := none, closing := [], gone := 0, arrived := [], marked := [], sent := [], behind := [], dirty := [],
    shipped := [], snap := none, lost := false, waitsWitness := false }))

/-- Whether the journal lacks room: it holds two epochs, of which neither is complete (R536). -/
def journalFull (s : State) : Bool :=
  decide (2 ≤ (((s.mirror.markers.filter (fun x => x.kind == 0)).map (·.frame)).dedup).length)

/-- While the journal lacks room, the mirror bundles return no credit of posted slots (R536). -/
def settleJournal (s : State) : State :=
  let h := journalFull s
  (nats 3 0 1).foldl (fun s b =>
    if (s.bundle .mir b).hold = h then s else s.setBundle .mir b { s.bundle .mir b with hold := h }) s

/-- The module becomes shadow, syncing; its journal takes the scratchpads of its compute cores (R536). -/
def becomeShadow (s : State) : State :=
  let s := settleJournal ((mirGoto 6 0 s).updMir (fun m => { m with
    journal := [], markers := [], recvd := [], applied := false, openFrame := 0, lost := false, waitsWitness := false }))
  (nats 1152 0 1).foldl (fun s c => undefPad c s) s

/-- MPAIR received: a module that may pair and has not begun to begins. -/
def mpair (slot map st : Nat) (s : State) : State :=
  let s := if mirState s = 0 then pairingStart s else s
  let own := mirState s
  if own ≠ 1 ∧ own ≠ 5 then s
  else
    let s := if own = 5 then sendMpair s else s
    let s := (s.set F.mirStat_peer_slot slot).updMir (fun m => { m with peerState := st })
    if map ≠ (s.reg .fmcMap 0).toNat % 2 ^ 32 then raise F.mirEvtStat_map_mismatch (mirGoto 2 0 s)
    else if slot = s.get F.mirStat_slot then raise F.mirEvtStat_slot_conflict (mirGoto 2 0 s)
    else if own = 5 ∧ st = 5 then raise F.mirEvtStat_split s
    else if own = 5 then becomePrimary s
    else if st = 5 then becomeShadow s
    else if s.get F.mirStat_slot < slot then becomePrimary s else becomeShadow s

def execMpair (slot : BitVec 2) (map : Word32) (state : BitVec 4) (s : State) : Host.Outcome State Fault Refusal :=
  .next (mpair slot.toNat map.toNat state.toNat s)

/-- PAIRING_TIMEOUT: 25 ms after en is set no bundle is in use. -/
def pairingTimeout (s : State) : State :=
  if s.flag F.mirCtl_en && mirState s == 0 && mirBundles s == [] then mirGoto 2 0 s else s

def execPairingTimeout (s : State) : Host.Outcome State Fault Refusal := .next (pairingTimeout s)

/-! ## Closing epochs (16 R534, R535) -/

/-- The tick of frame n ends epoch n - 1: a close mark leaves every home for every bundle. Epoch traffic starts at the first
tick at which the shadow's Kiln is `locked` (R529); epoch n is then the first. -/
def epochClose (n : Nat) (locked : Bool) (s : State) : State :=
  if isPrimary s && s.get F.mirCtl_mode == 0 && !s.mirror.epochs && !s.mirror.lost then
    if locked then s.updMir (fun m => { m with epochs := true, first := n }) else s
  else if epochsRun s then
    let o := match s.queues.flatMap (fun p => (p.2.lists.filter CmdList.live).map (·.target)) with
      | [] => n
      | x :: t => t.foldl min x
    s.updMir (fun m => { m with closing := m.closing ++ [(n - 1, o, markMask s)] })
  else s

/-- Of the epochs being closed, those whose markers have left on every bundle that owes one are closed. -/
def popClosing (s : State) : List (Nat × Nat × Nat) → State
  | (f, _, mask) :: rest =>
    if (nats 3 0 1).all (fun b => !natBit mask b || decide (s.mirror.gone < mget s.mirror.marked b 0)) then
      popClosing ((s.set F.mirEpochClosed_frame f).updMir (fun m => { m with closing := rest, gone := m.gone + 1 })) rest
    else s
  | [] => s

/-- Epochs whose markers have left on every bundle that owes one are closed. -/
def popClosed (s : State) : State := if mirBundles s = [] then s else popClosing s s.mirror.closing

/-- The stop of a home that sends close marks: a slice's, or a far port's behind the 1,152 slices. -/
def markXY (src : Nat) : Nat × Nat := if src < 1152 then coreXY src else portXY (src - 1152)

/-- CLOSE_MARK_ARRIVAL: a bundle that holds the marks of all 1,184 homes sends its marker, and what waited behind it. -/
def closeMark (b : Nat) (d : Hop 1184) (s : State) : State :=
  let src := d.stop.val
  let m := s.mirror
  let k := mget m.arrived (b, src) 0
  if !isPrimary s || decide (m.gone + m.closing.length ≤ k) then s
  else
    let s := (transit d.mesh (meter (markXY src) (bundleXY .mir b) 0 1 s)).1
    let s := s.updMir (fun m => { m with arrived := mput m.arrived (b, src) (k + 1) })
    let i := max (mget s.mirror.marked b 0) s.mirror.gone
    if (nats 1184 0 1).all (fun x => decide (i < mget s.mirror.arrived (b, x) 0)) then
      match s.mirror.closing[i - s.mirror.gone]? with
      | some (f, o, mask) =>
        let s := if natBit mask b then sendMarker b f 0 o mask s else s
        releaseBehind (popClosed (s.updMir (fun m => { m with marked := mput m.marked b (i + 1) })))
      | none => s
    else s

def execCloseMarkArrival (b : BundleId) (src : Hop 1184) (s : State) : Host.Outcome State Fault Refusal :=
  .next (closeMark b src s)

/-! ## The shadow's journal (16 R536, R539) -/

/-- Whether the module receives mirror traffic. -/
def receives (s : State) : Bool := mirState s == 6 || mirState s == 7

/-- Whether a transaction of the mirror link that was first sent on another bundle, in its flit number n, was accepted there
(15 R517, R531). -/
def mirTwice (s : State) (re : Option (BundleId × BitVec 12)) : Bool :=
  match re with
  | some (b, n) => (s.bundle .mir b).rxAny && decide (((s.bundle .mir b).rxSeq + 4096 - n.toNat) % 4096 < 2048)
  | none => false

/-- The bundle on which a transaction was first sent. -/
def firstOn (v : Via) : Nat := match v.first with | some (b, _) => b | none => v.bundle

/-- The journal takes a write. One of a snapshot takes the place of an older one of its block: a cut that broke is
discarded so, since what it shipped is dirty again and is shipped anew (R543, log entry 35). -/
def journalTake (e : JEntry) (l : List JEntry) : List JEntry :=
  (if e.kind = 1 then l.filter (fun x => !(x.kind == 1 && x.mark.isNone && x.addr == e.addr)) else l) ++ [e]

/-- MFWD received: placed in the journal, in scratchpads of this module that the spec leaves open. -/
def mfwd (v : Via) (a kind : Nat) (data : List Byte) (poison : Bool) (s : State) : State :=
  if !receives s || mirTwice s v.first then s
  else
    let b := firstOn v
    (meterOpen (fun _ _ _ => true) 0 s).updMir (fun m => { m with
      journal := journalTake ⟨b, kind, a, data, poison, none⟩ m.journal, recvd := mput m.recvd b (mget m.recvd b 0 + 1) })

def execMfwd (b : Via) (addr : DevAddr) (kind : BitVec 2) (data : List Byte) (poison : Bool) (s : State) :
    Host.Outcome State Fault Refusal := .next (mfwd b addr.toNat kind.toNat data poison s)

/-- A journal entry is written to its home by the mirror engine; a poisoned one leaves its target uncorrectable. -/
def applyEntry (e : JEntry) (s : State) : State :=
  let words := if e.poison then nats ((e.data.length + 7) / 8) 0 1 else []
  (homeStoreWords e.addr e.data words .clean (unitId 8 (35, 4) 0x200) true
    (meterEngine (35, 4) (homeXY (homeOf s e.addr)) s)).1

/-- Whether the markers (frame, kind) held are complete: one of every bundle in use, with matching counts. -/
def markersComplete (ms : List Marker) (frame kind : Nat) : Bool :=
  let mine := ms.filter (fun x => x.frame == frame && x.kind == kind)
  mine.all (fun x => x.matched && (nats 3 0 1).all (fun b => !natBit x.inUse b || mine.any (fun y => y.bundle == b)))

/-- The shadow's answer to an applied marker. -/
def sendMack (frame kind : Nat) (s : State) : State := sendPeer { kind := .mack, addr := frame, tag := kind } s

/-- The entries up to a complete marker are applied, in the order received, and it is acknowledged. A
resync marker waits for the epoch that holds it when epochs run. -/
def applyMarkers (frame kind opn : Nat) (s : State) : State :=
  let m := s.mirror
  let take := m.markers.filter (fun x => x.frame == frame && x.kind == kind || (kind == 0 && x.kind == 2 &&
    markersComplete m.markers x.frame 2))
  let done := take.find? (fun x => x.kind == 2)
  let mine := fun e : JEntry => take.any (fun x => e.mark == some (x.frame, x.kind))
  let s := s.updMir (fun m => { m with
    markers := m.markers.filter (fun x => x ∉ take), journal := m.journal.filter (fun e => !mine e) })
  let s := (m.journal.filter mine).foldl (fun s e => applyEntry e s) s
  let s := if kind = 2 then s else
    shadowReleaseAll opn (((s.set F.mirEpochClosed_frame frame).set F.mirEpochAck_frame frame).updMir (fun m => { m with
      openFrame := opn, applied := true }))
  let s := sendMack frame kind s
  if kind = 2 then raise F.mirEvtStat_resync_done (mirGoto 7 0 s)
  else
    match done with
    | some x => sendMack x.frame 2 (raise F.mirEvtStat_resync_done (mirGoto 7 0 s))
    | none => s

/-- MEPOCH received: a marker, which closes the entries before it on its bundle; a complete one is applied. -/
def mepoch (v : Via) (frame kind sent opn inUse : Nat) (s : State) : State :=
  if !receives s || mirTwice s v.first then s
  else
    let m := s.mirror
    let b := firstOn v
    let x : Marker := ⟨b, frame, kind, opn, inUse, mget m.recvd b 0 == sent⟩
    let s := s.updMir (fun m => { m with
      journal := m.journal.map (fun e => if e.mark.isNone ∧ e.bundle = b then { e with mark := some (frame, kind) } else e)
      recvd := mput m.recvd b 0, markers := m.markers ++ [x] })
    settleJournal (
      if markersComplete s.mirror.markers frame kind && !(kind == 2 && s.get F.mirCtl_mode == 0) then
        applyMarkers frame kind (if kind = 1 then frame else opn) s
      else s)

def execMepoch (b : Via) (frame : BitVec 48) (kind : BitVec 2) (sent : Nat) (openFrame : BitVec 48) (inUse : Byte)
    (s : State) : Host.Outcome State Fault Refusal :=
  .next (mepoch b frame.toNat kind.toNat sent openFrame.toNat inUse.toNat s)

/-! ## Acknowledgements (16 R537, R542, R553) -/

/-- A mirror-engine command of a queue ends. -/
def mirCmdEnd (q start st : Nat) (s : State) : State := commandEnd q start st s

/-- A RESYNC command that started the stream ends with it. -/
def resyncEnd (st : Nat) (s : State) : State :=
  match s.mirror.resync with
  | some (some q) =>
    let s := s.updMir (fun m => { m with resync := some none })
    match runningList s q with
    | some l => if l.busy then mirCmdEnd q l.start st s else s
    | none => s
  | _ => s

/-- MACK received by a primary. -/
def mack (frame kind : Nat) (s : State) : State :=
  if !isPrimary s then s
  else if kind = 0 then (s.set F.mirEpochAck_frame frame).updMir (fun m => { m with acked := some frame })
  else if kind = 1 then
    match s.mirror.snap with
    | some x =>
      if x.marked ∧ x.cut = frame then
        let n := (x.done ++ s.mirror.shipped).dedup.length
        let s := ((s.set F.mirSnapLast_frame frame).set F.mirSnapGran_granules n).set F.mirEpochAck_frame frame
        mirCmdEnd x.queue x.start 0 (s.updMir (fun m => { m with snap := none, shipped := [] }))
      else s
    | none => s
  else
    let s := resyncEnd 0 s
    let s := raise F.mirEvtStat_resync_done (s.updMir (fun m => { m with resync := none }))
    if mirState s = 4 then mirGoto 3 0 s else s

def execMack (frame : BitVec 48) (kind : MackKind) (s : State) : Host.Outcome State Fault Refusal :=
  .next (if mirTwice s kind.via.first then s else mack frame.toNat kind.kind.toNat s)

/-! ## Reading mirrored memory (16 R541, R542, R553) -/

/-- The device address of a port-local offset (09 R341). -/
def portAddr (s : State) (p loc : Nat) : Nat :=
  let L := s.get F.fmcMap_local_gib
  let h := (45 - L) * 2 ^ 30
  if loc < h then
    let r := loc / 256
    (32 * r + (p ^^^ portHash (32 * r))) * 256 + loc % 256
  else 32 * h + p * (L * 2 ^ 30) + (loc - h)

/-- The device addresses of the 256-byte blocks of a granule. -/
def granuleBlocks (s : State) (g : Nat × Nat) : List Nat :=
  if g.1 < 1152 then nats 256 (0x0200_0000_0000 + g.1 * 0x200_0000 + g.2 * 65536) 256
  else (nats 256 (g.2 * 65536) 256).map (portAddr s (g.1 - 1152))

/-- A block of 256 bytes is shipped; one read as uncorrectable is poisoned. -/
def shipBlock (kind a : Nat) (s : State) : State :=
  let bad := (granules a 256).any (· ∈ s.bad) || homeDead s a
  let s := meterEngine (35, 4) (homeXY (homeOf s a)) s
  let s := match mirBundleOf s a with | some b => meterOpen (onRoute (35, 4) (bundleXY .mir b)) 0 s | none => s
  sendMfwd kind a (s.bytes a 256) bad s

/-- A granule is shipped. -/
def shipGranule (g : Nat × Nat) (s : State) : State := (granuleBlocks s g).foldl (fun s a => shipBlock 1 a s) s

/-! ## SNAPSHOT (16 R542-R544) -/

/-- The cadence in frames of the current risk level. -/
def cadence (s : State) : Nat :=
  2 ^ (match s.get F.mirStat_risk with
    | 0 => s.get F.mirCadence_lvl0 | 1 => s.get F.mirCadence_lvl1 | 2 => s.get F.mirCadence_lvl2
    | _ => s.get F.mirCadence_lvl3)

/-- A SNAPSHOT in progress: its next granule is shipped, or its marker follows the last. A broken cut fails it: what it
shipped is dirty again. -/
def snapStep (x : Snap) (s : State) : State :=
  if x.broken then
    mirCmdEnd x.queue x.start 5 (s.updMir (fun m => { m with
      snap := none, dirty := m.dirty ++ x.done.filter (· ∉ m.dirty) }))
  else
    match x.todo with
    | g :: rest =>
      (shipGranule g s).updMir (fun m => { m with
        dirty := m.dirty.filter (· != g), snap := some { x with todo := rest, done := x.done ++ [g] } })
    | [] =>
      if x.marked then s
      else (sendMarkers x.cut 1 s).updMir (fun m => { m with snap := some { x with marked := true } })

/-- SNAPSHOT: starts it, or takes its next step. -/
def snapshot (q : Nat) (h : HostView) (s : State) : State :=
  match s.mirror.snap with
  | some x => if x.queue = q then snapStep x s else s
  | none =>
    beginCmd q h (fun op => op == 0x40 && engineOf q == 10) (fun _ l b s =>
      if !(zeroBytes b 2 64 && decide (leAt b 1 1 < 2)) || mirState s != 3 then mirCmdEnd q l.start 3 s
      else if natBit (leAt b 1 1) 0 ∧ s.frame < s.get F.mirSnapLast_frame + cadence s then mirCmdEnd q l.start 0 s
      else s.updMir (fun m => { m with
        snap := some { queue := q, start := l.start, cut := l.fired.getD s.frame, todo := m.dirty } })) s

def execSnapshot (q : QueueId) (hv : HostView) (s : State) : Host.Outcome State Fault Refusal := .next (snapshot q hv s)

/-! ## RESYNC (16 R553) -/

/-- RESYNC: the stream starts again; the command ends when the shadow has applied it. -/
def resync (q : Nat) (h : HostView) (s : State) : State :=
  beginCmd q h (fun op => op == 0x41 && engineOf q == 10) (fun _ l b s =>
    if !zeroBytes b 1 64 || !isPrimary s then mirCmdEnd q l.start 3 s else startResync (some q) s) s

def execResync (q : QueueId) (hv : HostView) (s : State) : Host.Outcome State Fault Refusal := .next (resync q hv s)

/-- The number of them. -/
def mirroredCount (s : State) : Nat :=
  (((nats 16 0 1).filter (fun r => s.flag F.mirRegionBase_en r)).map (fun r => s.get F.mirRegionLen_len r * 16)).sum

/-- The 256-byte blocks of the mirrored regions, region by region. -/
def mirroredBlocks (s : State) : List Nat :=
  ((nats 16 0 1).filter (fun r => s.flag F.mirRegionBase_en r)).flatMap (fun r =>
    nats (s.get F.mirRegionLen_len r * 16) (s.get F.mirRegionBase_base r * 4096) 256)

/-- Whether the resync stream runs: where writes are forwarded, once they are (R529, log entry 35). -/
def resyncRuns (s : State) : Bool :=
  isPrimary s && s.flag F.mirResync_busy && (s.get F.mirCtl_mode == 1 || epochsRun s)

/-- The stream ships its next blocks. -/
def resyncShip (bs : List Nat) (s : State) : State :=
  (bs.foldl (fun s a => shipBlock 2 a s) s).updMir (fun m => { m with resyncPos := m.resyncPos + bs.length })

/-- The stream goes on beside forwards or dirty marking, and shows how far it is. -/
def resyncStep (n : Nat) (s : State) : State :=
  if n = 0 ∨ resyncRuns s = false then s
  else
    let s := resyncShip (((mirroredBlocks s).drop s.mirror.resyncPos).take n) s
    s.set F.mirResync_pct (if mirroredCount s = 0 then 100 else min 100 (100 * s.mirror.resyncPos / mirroredCount s))

/-- RESYNC_STREAM_END: the last block has gone, and a marker of kind 2 follows. -/
def resyncStreamEnd (s : State) : State :=
  if !resyncRuns s then s
  else
    let s := resyncShip ((mirroredBlocks s).drop s.mirror.resyncPos) s
    sendMarkers s.frame 2 ((s.set F.mirResync_busy 0).set F.mirResync_pct 100)

def execResyncStreamEnd (s : State) : Host.Outcome State Fault Refusal := .next (resyncStreamEnd s)

/-! ## Risk (16 R544, R545) -/

/-- The level of the corrected records of the last 6,250 frames. -/
def ceLevel (s : State) : Nat :=
  let n := s.mirror.riskCe.length
  let t := s.get F.mirRiskCtl_ce_thr
  if 4 * t < n then 2 else if t < n then 1 else 0

/-- Whether a thermal cone is within 5 °C of its throttle threshold, as latched. -/
def nearThrottle (s : State) : Bool :=
  (nats 96 0 1).any (fun i => decide
    ((BitVec.ofNat 16 (s.get F.conTherm_temp i)).toInt ≥ 8 * ((s.get F.conThermCtl_thr_c : Int) - 5)))

/-- The risk level, recomputed at a tick. -/
def riskUpdate (s : State) : State :=
  let s := s.updMir (fun m => { m with riskCe := m.riskCe.filter (fun f => decide (s.frame < f + 6250)) })
  let s := s.updMir (fun m => { m with riskCeHeld := max m.riskCeHeld (ceLevel s) })
  let m := s.mirror
  let lvl := [s.get F.mirRiskCtl_floor, if m.riskReq then 3 else 0, if m.riskSag || m.riskDroop then 2 else 0,
    if nearThrottle s then 1 else 0, m.riskCeHeld, if m.riskRes = 0 then 0 else if m.riskRes = 1 then 2 else 3].foldl max 0
  s.set F.mirStat_risk lvl

/-- RISK_HOLD_EXPIRY: the hold of an input ends: 0 Hearth's request, 1 sag or swell, 2 droop, 3 a residue failure,
4 corrected records. -/
def riskHoldExpiry (i : Nat) (s : State) : State :=
  s.updMir (fun m => match i with
    | 0 => { m with riskReq := s.flag F.hrtStat_req38 }
    | 1 => { m with riskSag := false }
    | 2 => { m with riskDroop := false }
    | 3 => { m with riskRes := m.riskRes - 1 }
    | _ => { m with riskCeHeld := ceLevel s })

def execRiskHoldExpiry (input : Fin 5) (s : State) : Host.Outcome State Fault Refusal := .next (riskHoldExpiry input s)

/-- Under Hearth's request the dirty granules are shipped ahead of the next cut (R545). -/
def shipAhead (s : State) : State :=
  if s.flag F.hrtStat_req38 && s.get F.mirCtl_mode == 1 && mirState s == 3 && s.mirror.snap.isNone then
    let d := s.mirror.dirty
    (d.foldl (fun s g => shipGranule g s) s).updMir (fun m => { m with
      dirty := [], shipped := m.shipped ++ d.filter (· ∉ m.shipped) })
  else s

/-! ## Messages at a tick (16 R529, R546, R547) -/

/-- MHB of a module of a pair. -/
def sendMhb (s : State) : State :=
  let st := mirState s
  if isPrimary s || receives s then
    sendPeer { kind := .mhb, slots := 2,
               data := leBytes 6 s.frame ++ [BitVec.ofNat 8 st, BitVec.ofNat 8 (s.get F.mirStat_risk)]
                 ++ leBytes 6 (s.get F.mirEpochAck_frame) ++ [0, 0] } s
  else s

/-- The content of an FSYNC (15 R519). -/
def fsyncData (s : State) : List Byte := leBytes 6 s.frame ++ [0, 0] ++ leBytes 8 (s.get F.klnTickTime_time_ns)

/-- FSYNC of a primary to its shadow. -/
def sendMirFsync (s : State) : State :=
  if isPrimary s then
    sendPeer { kind := .fsync, addr := s.get F.vclFsyncAddr_addr * 16, data := fsyncData s, slots := 2 } s
  else s

/-- The witness record is written to host memory. -/
def writeWitness (s : State) : State :=
  let a := s.get F.mirWitnessAddr_addr * 16
  if s.flag F.mirCtl_witness_en && isHostAddr a then
    storeOut 1332 0 (unitId 8 (35, 4) 0x200) a
      (leBytes 6 s.frame ++ [BitVec.ofNat 8 (mirState s), 0] ++ leBytes 8 (s.get F.klnTickTime_time_ns)) s
  else s

/-- MHB received. -/
def mhb (st : Nat) (s : State) : State :=
  if isPrimary s || receives s then s.updMir (fun m => { m with peerState := st }) else s

def execMhb (_frame : BitVec 48) (state : BitVec 4) (_risk : BitVec 2) (_ack : BitVec 48) (s : State) :
    Host.Outcome State Fault Refusal := .next (mhb state.toNat s)

/-! ## Loss of the peer at a primary (16 R549) -/

/-- A primary goes on unprotected: what the mirror engine runs ends (R554). -/
def unprotected (s : State) : State :=
  let s := match s.mirror.snap with
    | some x => mirCmdEnd x.queue x.start 3 (s.updMir (fun m => { m with snap := none }))
    | none => s
  let s := (resyncEnd 3 s).set F.mirResync_busy 0
  (mirGoto 5 0 s).updMir (fun m => { m with lost := true, closing := [], behind := [], resync := none, dirty := [], shipped := [] })

/-- A primary that has lost every mirror bundle enters state 5. -/
def bundlesLost (s : State) : State := if isPrimary s && mirBundles s == [] then unprotected s else s

end Sys2Proof.Machine
end

