-- ==== Sys2Proof/Machine/Link.lean ====
section
/-! DEFINITION. The bundles of the companion link and the mirror link: training, flits and replay, credit, placement,
completions, and loss (15 R495-R525, 16 R531, R557). -/

namespace Sys2Proof.Machine

/-! ## The registers of a bundle (15 R524, 16 R557) -/

/-- A field of the companion link or its copy in the mirror block. -/
def linkFld (l : LinkId) (v m : Fld) : Fld := match l with | .vcl => v | .mir => m

/-- BCTL.disable. -/
def bDisable (l : LinkId) : Fld := linkFld l F.vclBctl_disable F.mirBctl_disable
/-- BCTL.retrain. -/
def bRetrain (l : LinkId) : Fld := linkFld l F.vclBctl_retrain F.mirBctl_retrain

/-- The unit of a bundle's sub-unit (15 R522, 16 R557). -/
def bundleUnit (l : LinkId) (b sub : Nat) : Nat :=
  unitId (match l with | .vcl => 7 | .mir => 8) (bundleXY l b) sub

/-- The state of a bundle. -/
def bundleState (s : State) (l : LinkId) (b : Nat) : Nat := s.get (bstat l) b

/-- A bundle's state changes. -/
def setBundleState (l : LinkId) (b st : Nat) (s : State) : State := s.set (bstat l) st b

/-- Whether bundles of a link may leave off (15 R499, 16 R554). -/
def linkOn (s : State) (l : LinkId) : Bool :=
  match l with
  | .vcl => s.flag F.vclCtl_en
  | .mir => s.flag F.mirCtl_en && !s.flag F.mirCtl_solo

/-- An event bit of the companion link; the mirror bundles have none. -/
def linkEvent (l : LinkId) (f : Fld) (s : State) : State := match l with | .vcl => raise f s | .mir => s

/-- Numbers of set bits. -/
def bitsSet (n : Nat) (w : BitVec n) : Nat := ((nats n 0 1).filter (fun i => natBit w.toNat i)).length

/-! ## Sending what waits (15 R505, R507) -/

/-- Transactions that waited are sent, those of a class in order, while credit and the replay buffer allow; `held` are the
classes of which one waits on. -/
def drain (l : LinkId) (u : Bundle) (held : List Nat) : List Tx → Bundle
  | [] => u
  | t :: rest =>
    if decide (t.cls ∉ held) && maySend u t then drain l (formFlit l u t) held rest
    else drain l { u with waiting := u.waiting ++ [t] } (t.cls :: held) rest

/-- A bundle sends what it can; it holds its traffic while it is not active or degraded (15 R499). -/
def drainBundle (l : LinkId) (b : Nat) (s : State) : State :=
  let u := s.bundle l b
  if u.waiting = [] ∨ usable s l b = false then s else s.setBundle l b (drain l { u with waiting := [] } [] u.waiting)

/-! ## Refused posted transactions (15 R515, R522) -/

/-- The unit of a transaction's requester: a core, the unit it names, or the Kiln, which sends interrupt messages and
FSYNC (15 R518, R519). -/
def Tx.requester (t : Tx) : Nat := if t.agent < 1156 then coreUnit t.agent 0 else t.unit.getD kilnUnit

/-- A posted transaction is refused. -/
def refusePosted (b : Nat) (t : Tx) (s : State) : State :=
  let s := linkRecord b t.addr t.requester s
  match t.kind with
  | .mwr => tellRefused t.agent s
  | _ => s

/-- Whether a count, kept modulo 2^64, covers posted transaction n. -/
def covers (count n : Nat) : Bool := decide ((count + 2 ^ 64 - n) % 2 ^ 64 < 2 ^ 63)

/-- PLACED: the count covers the posted transactions of bundle `b` up to it, some of which were refused. -/
def placed (b count : Nat) (refused : List Nat) (s : State) : State :=
  let u := s.bundle .vcl b
  let covered := u.unplaced.filter (fun p => covers count p.1)
  let s := s.setBundle .vcl b { u with unplaced := u.unplaced.filter (fun p => !covers count p.1) }
  let bad := covered.filter (fun p => decide (p.1 ∈ refused))
  let s := bad.foldl (fun s p => raise F.vclEvtStat_xlat_err (refusePosted b p.2 s)) s
  releasePubs s

def execPlaced (_b : BundleId) (src0 : BundleId) (count : Word64) (refused : List Nat) (s : State) :
    Host.Outcome State Fault Refusal := .next (placed src0 count.toNat refused s)

/-- PLACED_TIMEOUT: posted transaction n of bundle b counts as refused. -/
def placedTimeout (b n : Nat) (s : State) : State :=
  let u := s.bundle .vcl b
  match u.unplaced.find? (fun p => p.1 == n) with
  | none => s
  | some p =>
    if u.waiting.contains p.2 || u.replay.any (fun x => x.tx == p.2) then s
    else
      let s := s.setBundle .vcl b { u with unplaced := u.unplaced.filter (fun x => x.1 != n) }
      releasePubs (raise F.vclEvtStat_xlat_err (raise F.vclEvtStat_cpl_timeout (refusePosted b p.2 s)))

def execPlacedTimeout (b : BundleId) (n : Nat) (s : State) : Host.Outcome State Fault Refusal := .next (placedTimeout b n s)

/-! ## Completions of reads of host memory (15 R511, R516) -/

/-- A read that waits for a tag is sent when one is free. -/
def nextMrd (s : State) : State :=
  match s.mrdWaits with
  | m :: rest => sendMrd m { s with mrdWaits := rest }
  | [] => s

/-- The read in flight with a tag, and the state without it; its tag serves a read that waits for one. -/
def takeMrd (tag : Nat) (s : State) : Option (Mrd × State) :=
  match takeFirst (fun m => m.tag == tag) s.mrds with
  | some (m, rest) => some (m, nextMrd { s with mrds := rest })
  | none => none

/-- A read of host memory ends as an uncorrectable read. -/
def mrdFails (m : Mrd) (s : State) : State := sendResp (.host (hostBundle s (s.core m.core).sc.ctx.toNat))
  { dst := m.core, kind := fillKind m.fetch, addr := m.addr, data := [], bad := true } s

/-- CPL: the data of a read in flight; one that is not, or that a reset has cancelled, is discarded (R516, R525). -/
def cpl (tag : Nat) (data : List Byte) (s : State) : State :=
  match takeMrd tag s with
  | some (m, s) =>
    if m.dead then s else sendResp (.host (hostBundle s (s.core m.core).sc.ctx.toNat))
      { dst := m.core, kind := fillKind m.fetch, addr := m.addr, data := (data ++ List.replicate 64 0).take 64, bad := false } s
  | none => s

def execCpl (tag : BitVec 12) (data : List Byte) (s : State) : Host.Outcome State Fault Refusal :=
  .next (cpl tag.toNat data s)

/-- CPLE, also of a read by the Kiln or an engine that has ended: one that is not in flight, or that a reset has cancelled,
is discarded (R516, R525). The device sends no reset request, and it takes a timeout from its own clock: a CPLE of status 3
is an uncorrectable read and no event. -/
def cple (tag st : Nat) (s : State) : State :=
  if st = 0 ∨ 5 ≤ st then raise F.vclEvtStat_proto_err s
  else
    match takeMrd tag s with
    | none => s
    | some (m, s) =>
      if m.dead then s
      else mrdFails m (if st = 1 then cpleShown 1 (s.core m.core).sc.ctx.toNat (ioAddr m.addr) (coreUnit m.core 0) s else s)

def execCple (tag : BitVec 12) (status : BitVec 8) (s : State) : Host.Outcome State Fault Refusal :=
  .next (cple tag.toNat status.toNat s)

/-- CPL_TIMEOUT. -/
def cplTimeout (tag : Nat) (s : State) : State :=
  match takeMrd tag s with
  | none => s
  | some (m, s) =>
    if m.dead then s
    else mrdFails m (cpleShown 3 (s.core m.core).sc.ctx.toNat (ioAddr m.addr) (coreUnit m.core 0) s)

def execCplTimeout (tag : BitVec 12) (s : State) : Host.Outcome State Fault Refusal := .next (cplTimeout tag.toNat s)

/-! ## Loss of a bundle (15 R500, R517, R521, R522) -/

/-- The transactions of a replay buffer, each by the number of its first flit; `first` when the buffer starts here. -/
def replayTxs (first : Bool) : List Sent → List (Nat × Tx)
  | [] => []
  | x :: t =>
    if x.part = 0 ∨ first then ((x.seq + 4096 - x.part / 15) % 4096, x.tx) :: replayTxs false t else replayTxs false t

/-- What waited on a bundle that is gone. Mirror traffic counts on its bundle (16 R534): it follows with the numbers that its
flits would have had (log entry 35). -/
def movedOn (l : LinkId) (b : Nat) (u : Bundle) : List Tx :=
  match l with
  | .vcl => u.waiting
  | .mir => u.waiting.zipIdx.map (fun p =>
      if p.1.resend then p.1 else { p.1 with resend := true, orig := (b, (u.txSeq + p.2) % 4096) })

/-- The transactions of a bundle's replay buffer go out on bundle d with their origin; those that waited follow. -/
def resendOn (l : LinkId) (b d : Nat) (s : State) : State :=
  let u := s.bundle l b
  let re := (replayTxs true u.replay).map (fun x => { x.2 with resend := true, orig := if x.2.resend then x.2.orig else (b, x.1) })
  let v := s.bundle l d
  let s := s.setBundle l b { u with replay := [], waiting := [], txSeq := (u.txSeq + u.waiting.length) % 4096 }
  let s := s.setBundle l d { v with waiting := re ++ movedOn l b u ++ v.waiting }
  drainBundle l d (s.bump (linkFld l F.vclResend_count F.mirResend_count) b re.length)

/-- No bundle of the companion link is usable. -/
def linkDown (s : State) : State := if linkUp s then s else raise F.vclEvtStat_link_down s

/-- Reads that the link has lost end with status 3 (15 R521). -/
def readsFail (ms : List Mrd) (s : State) : State :=
  ms.foldl (fun s m => if m.dead then s else mrdFails m s) s

/-- A bundle that carried the link, or was to, is lost: its traffic goes to the next usable bundle. With no usable bundle what
it carried is discarded: the writers are told, and the reads end (R521). The loss of the last one is fatal on the companion link, and ends protection on the mirror link (16 R549). -/
def bundleGone (l : LinkId) (b : Nat) (s : State) : State :=
  let d := if usable s l ((b + 1) % 3) then some ((b + 1) % 3)
    else if usable s l ((b + 2) % 3) then some ((b + 2) % 3) else none
  match d with
  | some d => (match l with | .vcl => resendOn l b d s | .mir => releaseBehind (resendOn l b d s))
  | none =>
    let u := s.bundle l b
    let gone := (replayTxs true u.replay).map (·.2) ++ u.waiting
    let s := s.setBundle l b { u with replay := [], waiting := [],
                                      unplaced := u.unplaced.filter (fun p => !gone.contains p.2) }
    let training := (nats 3 0 1).any (fun x => decide (1 ≤ bundleState s l x ∧ bundleState s l x ≤ 8))
    match l with
    | .vcl =>
      let s := (gone.filter (fun t => t.kind == .mwr)).foldl (fun s t => tellRefused t.agent s) s
      let reads := s.mrds.filter (fun m => !training || gone.any (fun t => t.kind == .mrd && t.tag == m.tag))
      let s := readsFail reads { s with mrds := s.mrds.filter (fun m => !reads.contains m) }
      let s := linkDown (if training then s else readsFail s.mrdWaits { s with mrdWaits := [] })
      if training then s else fatal 2 (bundleUnit .vcl b 0) 0x51 [] s
    | .mir => bundlesLost s

/-- A bundle fails. -/
def bundleFails (l : LinkId) (b : Nat) (s : State) : State :=
  let s := linkEvent l F.vclEvtStat_failed (setBundleState l b 9 s)
  let s := if l = .mir ∨ (nats 3 0 1).any (usable s l) then record 2 (bundleUnit l b 0) 0x51 [] s else s
  bundleGone l b s

/-- TRAINING_TIMEOUT. -/
def trainingTimeout (l : LinkId) (b : Nat) (s : State) : State :=
  let st := bundleState s l b
  if (1 ≤ st ∧ st ≤ 5) ∨ st = 8 then bundleFails l b s else s

def execTrainingTimeout (l : LinkId) (b : BundleId) (s : State) : Host.Outcome State Fault Refusal :=
  .next (trainingTimeout l b s)

/-- A bundle enters retrain. -/
def enterRetrain (l : LinkId) (b : Nat) (s : State) : State :=
  let u := s.bundle l b
  let s := s.setBundle l b { u with
    ueRun := 0, nakSent := false, rxLost := 0, before := if usable s l b then some u.halved else u.before }
  let s := hwClear (bRetrain l) b 1 (setBundleState l b 8 s)
  let s := linkEvent l F.vclEvtStat_retrain (s.bump (linkFld l F.vclRetrain_count F.mirRetrain_count) b)
  match l with | .vcl => linkDown s | .mir => bundlesLost s

/-! ## Training (15 R499-R501, R507) -/

/-- Whether a bundle is held in disabled: by its register, and a mirror bundle by MIR_CTL.solo (15 R524, 16 R554). -/
def bundleHeld (s : State) (l : LinkId) (b : Nat) : Bool :=
  s.flag (bDisable l) b || (l == .mir && s.flag F.mirCtl_solo)

/-- LINK_DETECT: a bundle leaves off for detect, or for disabled where it is held there; in detect, the lanes that see the
partner decide. -/
def linkDetect (l : LinkId) (b : Nat) (lanes : BitVec 16) (s : State) : State :=
  if linkOn s l && !s.flag (bDisable l) b && decide (bundleState s l b ≤ 1) then
    let u := s.bundle l b
    let s := s.setBundle l b { u with before := none, halved := false }
    let s := s.set (linkFld l F.vclBstat_rate F.mirBstat_rate) (s.get F.vclCtl_rate) b
    setBundleState l b (if bundleState s l b = 1 ∧ 8 ≤ bitsSet 16 lanes then 2 else 1) s
  else if bundleHeld s l b && decide (bundleState s l b ≤ 1) then setBundleState l b 10 s
  else s

def execLinkDetect (l : LinkId) (b : BundleId) (lanes : BitVec 16) (s : State) : Host.Outcome State Fault Refusal :=
  .next (linkDetect l b lanes s)

/-- EQUALISATION_DONE: from retrain the bundle comes to equalise, from there to align. -/
def equalisationDone (l : LinkId) (b : Nat) (s : State) : State :=
  if bundleState s l b = 8 then setBundleState l b 2 s else if bundleState s l b = 2 then setBundleState l b 3 s else s

def execEqualisationDone (l : LinkId) (b : BundleId) (s : State) : Host.Outcome State Fault Refusal :=
  .next (equalisationDone l b s)

/-- The width the lanes usable in both directions allow: full, or a half. -/
def widthOf (both : BitVec 16) : Option (Option Nat) :=
  if both = 0xFFFF then some none
  else if both &&& 0x00FF = 0x00FF then some (some 0)
  else if both &&& 0xFF00 = 0xFF00 then some (some 1)
  else none

/-- ALIGNMENT_DONE. -/
def alignmentDone (l : LinkId) (b : Nat) (ok partner inverted : BitVec 16) (s : State) : State :=
  if bundleState s l b ≠ 3 then s
  else
    let s := (s.set (linkFld l F.vclBstat_lanes_ok F.mirBstat_lanes_ok) ok.toNat b).set
      (linkFld l F.vclPol_inverted F.mirPol_inverted) inverted.toNat b
    match widthOf (ok &&& partner) with
    | none => bundleFails l b s
    | some h =>
      let s := s.setBundle l b { s.bundle l b with halved := h.isSome }
      setBundleState l b 4 (s.set (linkFld l F.vclBstat_half F.mirBstat_half) (h.getD 0) b)

def execAlignmentDone (l : LinkId) (b : BundleId) (usable partner inverted : BitVec 16) (s : State) :
    Host.Outcome State Fault Refusal := .next (alignmentDone l b usable partner inverted s)

/-- FEC_LOCK. -/
def fecLock (l : LinkId) (b : Nat) (ok : Bool) (s : State) : State :=
  if bundleState s l b ≠ 4 then s else if ok then setBundleState l b 5 s else enterRetrain l b s

def execFecLock (l : LinkId) (b : BundleId) (ok : Bool) (s : State) : Host.Outcome State Fault Refusal :=
  .next (fecLock l b ok s)

/-- The flits left after an acknowledgement of number `ack`: none before it, if the buffer holds it. -/
def afterAck (ack : Nat) (r : List Sent) : List Sent :=
  if r.any (fun x => x.seq == ack) then (r.dropWhile (fun x => x.seq != ack)).drop 1 else r

/-- Flits numbered anew from 0. -/
def renumber : Nat → List Sent → List Sent
  | _, [] => []
  | n, x :: t => { x with seq := n, resends := 0 } :: renumber (n + 1) t

/-- Posted transactions not yet placed are counted anew from 1. -/
def recount : Nat → List (Nat × Tx) → List (Nat × Tx)
  | _, [] => []
  | n, p :: t => (n + 1, p.2) :: recount (n + 1) t

/-- The record of a bundle that carries traffic again or at another width. -/
def widthRecord (l : LinkId) (b : Nat) (u : Bundle) (s : State) : State :=
  if u.halved ∧ u.before ≠ some true then
    let ok := s.get (linkFld l F.vclBstat_lanes_ok F.mirBstat_lanes_ok) b
    let lane := ((nats 16 0 1).find? (fun i => !natBit ok i)).getD 0
    record 2 (bundleUnit l b (0x100 + lane)) 0x51 [] s
  else if u.before = some u.halved then record 1 (bundleUnit l b 0) 0x50 [] s
  else s

/-- A bundle in flit_init: it tells the last number it accepted (15 R506) and advertises its receive space (15 R507);
numbers restart. -/
def initBundle (u : Bundle) (posted nonPosted : Nat) : Bundle :=
  { ({ u with rxPosted := rxSpace.1, rxNonPosted := rxSpace.2 }.emit 2 0 [] false) with
    rxSeq := 4095, rxAny := false, rxLeft := 0, posted := posted, nonPosted := nonPosted, ueRun := 0, nakSent := false }

/-- Slots of credit that resent flits of a class take (15 R507). -/
def resentSlots (cls : Nat) (l : List Sent) : Nat :=
  ((l.filter (fun x => x.tx.cls == cls)).map (fun x => min 15 (x.tx.slots - x.part))).sum

/-- FLIT_INIT: numbers and counts restart, credit is exchanged, what is not acknowledged is resent (15 R506) and takes its
part of the credit (15 R507). -/
def flitInit (l : LinkId) (b posted nonPosted peerLast : Nat) (s : State) : State :=
  if bundleState s l b ≠ 5 then s
  else
    let u := s.bundle l b
    let left := if u.before.isSome then afterAck peerLast u.replay else []
    let re := renumber 0 left
    let v := { (initBundle u (posted - resentSlots 2 left) (nonPosted - resentSlots 1 left)) with
      txSeq := left.length % 4096, replay := re, sentPosted := u.unplaced.length, unplaced := recount 0 u.unplaced }
    let s := s.setBundle l b (re.foldl (fun u x => u.emitData x.seq x.tx x.part) v)
    let s := if left = [] then s
      else linkEvent l F.vclEvtStat_replay (s.bump (linkFld l F.vclReplay_count F.mirReplay_count) b left.length)
    let s := setBundleState l b (if u.halved then 7 else 6) s
    let s := if u.halved then linkEvent l F.vclEvtStat_degraded s else s
    let s := drainBundle l b (widthRecord l b u s)
    let s := match l with | .vcl => s | .mir => releaseBehind s
    if s.flag (bRetrain l) b then enterRetrain l b s else s

def execFlitInit (l : LinkId) (b : BundleId) (posted nonPosted : Nat) (peerLast : BitVec 12) (s : State) :
    Host.Outcome State Fault Refusal := .next (flitInit l b posted nonPosted peerLast.toNat s)

/-! ## Flits (15 R498-R507) -/

/-- Every unacknowledged flit is resent; one resent eight times sends the bundle to retrain. -/
def replayAll (l : LinkId) (b : Nat) (s : State) : State :=
  let u := s.bundle l b
  if u.replay = [] then s
  else
    let r := u.replay.map (fun x => { x with resends := x.resends + 1 })
    let s := s.setBundle l b (r.foldl (fun u x => u.emitData x.seq x.tx x.part) { u with replay := r })
    let s := linkEvent l F.vclEvtStat_replay (s.bump (linkFld l F.vclReplay_count F.mirReplay_count) b r.length)
    let s := record 1 (bundleUnit l b 0) 0x50 [] s
    if r.any (fun x => decide (8 ≤ x.resends)) then enterRetrain l b s else s

/-- Symbols of a codeword that arrive wrong on a bundle, over the lanes it uses (15 R498, R501). -/
def wrongSymbols (s : State) (l : LinkId) (b : Nat) (r : Codeword) : Nat :=
  codewordWrong r (activeLanes (s.bundle l b).halved (s.get (linkFld l F.vclBstat_half F.mirBstat_half) b))

/-- A nak goes out, once until the expected flit arrives (15 R504). -/
def Bundle.sendNak (u : Bundle) : Bundle := if u.nakSent then u else { u with nakSent := true }.emit 2 0 [] true

/-- CODEWORD_RECEIVE: up to 15 wrong symbols are corrected; a codeword with more is discarded whole, with the flits it
carries, and a nak goes out for them (R504). -/
def codeword (l : LinkId) (b : Nat) (r : Codeword) (s : State) : State :=
  if !usable s l b then s
  else
    let u := s.bundle l b
    let n := wrongSymbols s l b r
    if n = 0 then s.setBundle l b { u with ueRun := 0 }
    else if n ≤ 15 then (s.setBundle l b { u with ueRun := 0 }).bump (linkFld l F.vclFecCe_count F.mirFecCe_count) b
    else
      let u := if r.flits = 0 then u else { u with rxLost := u.rxLost + r.flits }.sendNak
      let s := (s.setBundle l b { u with ueRun := u.ueRun + 1 }).bump (linkFld l F.vclFecUe_count F.mirFecUe_count) b
      let s := record 1 (bundleUnit l b 0) 0x50 [] s
      if 16 ≤ u.ueRun + 1 then enterRetrain l b s else s

def execCodewordReceive (l : LinkId) (b : BundleId) (r : Codeword) (s : State) : Host.Outcome State Fault Refusal :=
  .next (codeword l b r s)

/-- The acknowledgement, the nak and the credit every good flit carries. -/
def flitControl (l : LinkId) (b : Nat) (f : Flit) (s : State) : State :=
  let u := s.bundle l b
  let s := s.setBundle l b { u with
    replay := if f.ackValid then afterAck f.ack.toNat u.replay else u.replay
    posted := u.posted + f.postedCredit.toNat, nonPosted := u.nonPosted + f.nonPostedCredit.toNat }
  drainBundle l b (if f.nak then replayAll l b s else s)

/-- An acknowledgement goes out on its own, in an idle flit. -/
def Bundle.sendAck (u : Bundle) : Bundle := u.emit 1 0 [] false

/-- The transactions of an accepted flit take their slots of receive space. -/
def Bundle.take (u : Bundle) (n : Nat) (r : Scan) : Bundle :=
  { u with
    rxSeq := n, rxAny := true, nakSent := false, unackedRx := u.unackedRx + 1, rxLeft := r.left
    rxPosted := u.rxPosted - r.posted, rxNonPosted := u.rxNonPosted - r.nonPosted }

/-- A completion sent to the host on the bundle of its request, with the request's context; `agent` 1,335 marks that of an
RST. -/
def answerHost (v : Via) (tag st : Nat) (data : List Byte) (agent : Nat) (s : State) : State :=
  sendOn .vcl v.bundle { kind := if st = 0 then .cpl else .cple, tag := tag, ctx := v.ctx.toNat, status := st,
                         data := data, agent := agent, slots := 1 + (data.length + 15) / 16 } s

/-- A data flit is accepted in order; another one is answered by a nak. What its transactions do are commands of their own;
those that R509 discards end here. -/
def flitData (l : LinkId) (b : BundleId) (f : Flit) (s : State) : State :=
  let u := s.bundle l b
  if f.seq.toNat = (u.rxSeq + 1) % 4096 then
    let r := flitScan l f u.rxLeft
    let u := u.take f.seq.toNat r
    let s := s.setBundle l b (if 64 ≤ u.unackedRx then u.sendAck else u)
    if r.bad = 0 then s
    else r.reads.foldl (fun s x => answerHost ⟨b, none, BitVec.ofNat 4 x.2⟩ x.1 4 [] 1332 s)
      (raise (linkFld l F.vclEvtStat_proto_err F.mirEvtStat_proto_err) s)
  else s.setBundle l b u.sendNak

/-- FLIT_RECEIVE. A flit that an uncorrectable codeword carried is lost with it (R498). -/
def flitReceive (l : LinkId) (b : BundleId) (f : Flit) (s : State) : State :=
  let u := s.bundle l b
  if !usable s l b then s
  else if 0 < u.rxLost then s.setBundle l b { u with rxLost := u.rxLost - 1 }
  else if !flitCrcGood f then
    (s.setBundle l b (s.bundle l b).sendNak).bump (linkFld l F.vclCrcErr_count F.mirCrcErr_count) b
  else if 3 ≤ f.kind.toNat then s.setBundle l b u.sendNak
  else
    let s := flitControl l b f s
    if f.kind = 0 ∧ usable s l b then flitData l b f s else s

def execFlitReceive (l : LinkId) (b : BundleId) (f : Flit) (s : State) : Host.Outcome State Fault Refusal :=
  .next (flitReceive l b f s)

/-- ACK_TIMEOUT: no acknowledgement for 2 µs. -/
def ackTimeout (l : LinkId) (b : Nat) (s : State) : State := if usable s l b then replayAll l b s else s

def execAckTimeout (l : LinkId) (b : BundleId) (s : State) : Host.Outcome State Fault Refusal := .next (ackTimeout l b s)

/-- ACK_INTERVAL_EXPIRY: what has been accepted is acknowledged. -/
def ackInterval (l : LinkId) (b : Nat) (s : State) : State :=
  if usable s l b && decide (0 < (s.bundle l b).unackedRx) then s.setBundle l b (s.bundle l b).sendAck else s

def execAckIntervalExpiry (l : LinkId) (b : BundleId) (s : State) : Host.Outcome State Fault Refusal :=
  .next (ackInterval l b s)

/-! ## Control of a bundle (15 R499, R524, 16 R554) -/

/-- BCTL_RETRAIN. -/
def bctlRetrain (l : LinkId) (b : Nat) (s : State) : State :=
  if s.flag (bDisable l) b then s
  else
    let s := s.set (bRetrain l) 1 b
    if usable s l b then enterRetrain l b s
    else if bundleState s l b = 9 then setBundleState l b 2 (s.set (bRetrain l) 0 b)
    else s

def execBctlRetrain (l : LinkId) (b : BundleId) (s : State) : Host.Outcome State Fault Refusal := .next (bctlRetrain l b s)

/-- A bundle goes to disabled at once. -/
def disableBundle (l : LinkId) (b : Nat) (s : State) : State :=
  if bundleState s l b = 10 then s
  else
    let fast := decide (2 ≤ bundleState s l b ∧ bundleState s l b ≤ 5) && (s.bundle l b).before.isSome
    let was := usable s l b || bundleState s l b == 8 || fast
    let s := setBundleState l b 10 (s.set (bRetrain l) 0 b)
    if was then bundleGone l b s else s

/-- BCTL_DISABLE. -/
def bctlDisable (l : LinkId) (b : Nat) (s : State) : State := disableBundle l b (s.set (bDisable l) 1 b)

def execBctlDisable (l : LinkId) (b : BundleId) (s : State) : Host.Outcome State Fault Refusal := .next (bctlDisable l b s)

/-- A write of BCTL: disable set or cleared, then retrain. -/
def bctlWrite (l : LinkId) (b v : Nat) (s : State) : State :=
  let s := if natBit v 30 then bctlDisable l b s
    else
      let s := s.set (bDisable l) 0 b
      if bundleState s l b = 10 ∧ ¬(l = .mir ∧ s.flag F.mirCtl_solo = true) then setBundleState l b 0 s else s
  if natBit v 31 then bctlRetrain l b s else s

/-- The mirror bundles follow MIR_CTL.solo. -/
def soloBundles (s : State) : State :=
  (nats 3 0 1).foldl (fun s b =>
    if s.flag F.mirCtl_solo then disableBundle .mir b s
    else if bundleState s .mir b = 10 ∧ s.flag F.mirBctl_disable b = false then setBundleState .mir b 0 s else s) s

/-! ## Requests that the host resends (15 R517) -/

/-- Whether a request that was first sent on another bundle, in its flit number n, was accepted there. -/
def acceptedTwice (s : State) (re : Option (BundleId × BitVec 12)) : Bool :=
  match re with
  | some (b, n) => (s.bundle .vcl b).rxAny && decide (((s.bundle .vcl b).rxSeq + 4096 - n.toNat) % 4096 < 2048)
  | none => false

/-! ## Reset requests (15 R520) -/

/-- RST: bytes 8-15 are checked. -/
def rst (b : Via) (tag v : Nat) (s : State) : State :=
  if s.resets.warm then s
  else if s.flag F.vclCtl_rst_en ∧ v = 0xA55A then
    { answerHost b tag 0 [] 1335 s with resets := { s.resets with rstWaits := some b.bundle } }
  else answerHost b tag 5 [] 1332 s

def execRst (b : Via) (tag : BitVec 12) (value : Word64) (s : State) : Host.Outcome State Fault Refusal :=
  .next (if acceptedTwice s b.first then s else rst b tag.toNat value.toNat s)

/-- Whether the CPL of an accepted RST has been acknowledged. -/
def rstAcked (s : State) : Bool :=
  s.bundles.all (fun p => p.2.replay.all (fun x => x.tx.agent != 1335) && p.2.waiting.all (fun t => t.agent != 1335))

end Sys2Proof.Machine
end

