-- ==== Sys2Proof/Machine/Copy.lean ====
section
/-! DEFINITION. COPY on the copy engines: checks, segments, gather, scatter, transpose, conversion, running maxima and
the end of the command (02 R87, 07 R260-R286, 08 R307, 12 R434, 15 R515, R521, 18 R602). -/

namespace Sys2Proof.Machine

/-! ## The fields of a COPY (02 R87) -/

/-- The operands of a COPY. -/
structure CopyArgs where
  src : Nat
  dst : Nat
  rowBytes : Nat
  rows : Nat
  srcStride : Nat
  dstStride : Nat
  srcFmt : Nat
  dstFmt : Nat
  ops : Nat
  elem : Nat
  index : Nat
deriving DecidableEq, Repr

/-- The operands in a command's bytes. -/
def copyArgs (b : List Byte) : CopyArgs :=
  ⟨leAt b 8 8, leAt b 16 8, leAt b 24 4, leAt b 28 4, leAt b 32 4, leAt b 36 4, leAt b 40 1, leAt b 41 1, leAt b 42 1,
    leAt b 43 1, leAt b 48 8⟩

/-- Transpose. -/
def CopyArgs.tr (a : CopyArgs) : Bool := natBit a.ops 0
/-- Stochastic rounding. -/
def CopyArgs.sr (a : CopyArgs) : Bool := natBit a.ops 1
/-- Gather. -/
def CopyArgs.gather (a : CopyArgs) : Bool := natBit a.ops 2
/-- Scatter. -/
def CopyArgs.scatter (a : CopyArgs) : Bool := natBit a.ops 3
/-- A raw copy. -/
def CopyArgs.raw (a : CopyArgs) : Bool := a.srcFmt == 0

/-- What an element of a COPY is: a format of R260, or packed 1-bit. -/
inductive CopyFmt where
  | num (f : Narrow)
  | bit
deriving DecidableEq, Repr

/-- The format of a code and its bits (07 R260). -/
def copyFmt (x : Nat) : Option (CopyFmt × Nat) :=
  if x = 11 then some (.bit, 1) else (codeFmt x).map (fun p => (.num p.1, p.2))

/-- Bits of an element of a format code; raw bytes are 8. -/
def fmtBits (x : Nat) : Nat := match copyFmt x with | some p => p.2 | none => 8

/-- The checks of a COPY that need no memory: failing, its list ends with status 0x03. A converted transpose moves elements
of `elem` bytes before it converts; one whose moved rows end inside an element of the source format is malformed as a source
row would be (DESIGN CHOICE, log entry 29: R276 says so of source rows alone). -/
def copyOk (b : List Byte) (a : CopyArgs) : Bool :=
  let wide := fun x : Nat => decide (x = 1 ∨ x = 2 ∨ x = 3)
  zeroBytes b 1 8 && zeroBytes b 44 48 && zeroBytes b 56 64 && decide (a.ops < 32) &&
  decide (0 < a.rowBytes ∧ 0 < a.rows) &&
  (if a.raw then a.dstFmt == 0
   else a.dstFmt != 0 && (copyFmt a.srcFmt).isSome && (copyFmt a.dstFmt).isSome && (wide a.srcFmt || wide a.dstFmt) &&
     a.rowBytes * 8 % fmtBits a.srcFmt == 0) &&
  !(a.sr && (a.dstFmt == 1 || a.raw)) &&
  !(a.tr && !(decide (a.elem = 1 ∨ a.elem = 2 ∨ a.elem = 4) && a.rowBytes % a.elem == 0)) &&
  (a.raw || !a.tr || a.rows * a.elem * 8 % fmtBits a.srcFmt == 0)

/-! ## Pieces of a segment (02 R87) -/

/-- A piece: source ranges as (row, offset in the row, bytes), the destination row, and the bit of it that they start at. -/
structure Piece where
  src : List (Nat × Nat × Nat)
  row : Nat
  bit : Nat
deriving DecidableEq, Repr

/-- Pieces of n source bytes from byte pos of the whole: one for each row touched. -/
def rowPieces (a : CopyArgs) : Nat → Nat → Nat → List Piece
  | 0, _, _ => []
  | f + 1, pos, n =>
    if n = 0 then [] else
    let o := pos % a.rowBytes
    let k := min n (a.rowBytes - o)
    ⟨[(pos / a.rowBytes, o, k)], pos / a.rowBytes, o * 8 / fmtBits a.srcFmt * fmtBits a.dstFmt⟩
      :: rowPieces a f (pos + k) (n - k)

/-- Whole elements of the source format in the first i moved rows of a transpose. -/
def trElems (a : CopyArgs) (i : Nat) : Nat := i * a.elem * 8 / fmtBits a.srcFmt

/-- The row of a transpose with which element k of a moved row begins. -/
def trRow (a : CopyArgs) (k : Nat) : Nat := k * fmtBits a.srcFmt / (8 * a.elem)

/-- Pieces of a transposed segment of source rows [i, i + m): one for each destination row, of the elements that the
segment completes. -/
def trPieces (a : CopyArgs) (i m : Nat) : List Piece :=
  let lo := trRow a (trElems a i)
  let hi := trRow a (trElems a (i + m))
  (nats (a.rowBytes / a.elem) 0 1).map (fun j =>
    ⟨(nats (hi - lo) lo 1).map (fun r => (r, j * a.elem, a.elem)), j, trElems a i * fmtBits a.dstFmt⟩)

/-- The source bytes of a whole COPY; under transpose its rows, which `pos` counts. -/
def copyTotal (a : CopyArgs) : Nat := if a.tr then a.rows else a.rows * a.rowBytes

/-- How far one segment goes. -/
def copyStep (a : CopyArgs) (pos : Nat) : Nat :=
  min (copyTotal a - pos) (if a.tr then max 1 (65536 / a.rowBytes) else 65536)

/-- The pieces of the segment at `pos`. -/
def copyPieces (a : CopyArgs) (pos : Nat) : List Piece :=
  if a.tr then trPieces a pos (copyStep a pos) else rowPieces a (copyStep a pos) pos (copyStep a pos)

/-! ## References -/

/-- Entry i of those the COPY read when it started: source, destination, index. -/
def CmdList.entry (l : CmdList) (i : Nat) : Word64 × Word64 := l.refs.getD i (0, 0)

/-- The device address of n bytes at offset o of an entry, if they lie in its segment. -/
def refAddr (e : Word64 × Word64) (o n : Nat) : Option Nat :=
  if o + n ≤ entryLen e then some (entryBase e + o) else none

/-- What stops a COPY: a segment fault with its handle, an uncorrectable read, or a home that is held, for which it
waits. -/
inductive CopyStop where
  | fault (hnd : Nat)
  | lost
  | held
deriving DecidableEq, Repr

/-- A segment under way: the state, and what memory still serves; the findings count on from access to access. -/
structure Copying where
  s : State
  h : HostView

/-- A read through a reference. -/
def refRead (who : Asker) (e : Word64 × Word64) (hnd o n : Nat) (r : Copying) : Copying × Except CopyStop (List Byte) :=
  match refAddr e o n with
  | none => (r, .error (.fault hnd))
  | some a =>
    if !engineServed r.s a n then (r, .error .held)
    else
      let q := engineRead who a n r.h r.s
      (⟨q.1, viewPast r.h a n (granules a n).length⟩,
       match q.2 with | none => .error .lost | some bs => .ok bs)

/-- Entry r of the index list. -/
def indexOf (who : Asker) (l : CmdList) (a : CopyArgs) (r : Nat) (c : Copying) : Copying × Except CopyStop Nat :=
  match refRead who (l.entry 2) (a.index / 2 ^ 48) (a.index % 2 ^ 48 + 4 * r) 4 c with
  | (c, .ok bs) => (c, .ok (ofLeBytes bs))
  | (c, .error x) => (c, .error x)

/-- The source bytes of a piece. -/
def readPiece (who : Asker) (l : CmdList) (a : CopyArgs) :
    List (Nat × Nat × Nat) → Copying → Copying × Except CopyStop (List Byte)
  | [], c => (c, .ok [])
  | (r, o, n) :: t, c =>
    match (if a.gather then indexOf who l a r c else (c, .ok r)) with
    | (c, .error x) => (c, .error x)
    | (c, .ok r) =>
      match refRead who (l.entry 0) (a.src / 2 ^ 48) (a.src % 2 ^ 48 + r * a.srcStride + o) n c with
      | (c, .error x) => (c, .error x)
      | (c, .ok bs) =>
        match readPiece who l a t c with
        | (c, .error x) => (c, .error x)
        | (c, .ok cs) => (c, .ok (bs ++ cs))

/-! ## Conversion (07 R273-R286) -/

/-- The elements of n bits in bytes (07 R261). -/
def elemsOf (n : Nat) (bs : List Byte) : List Nat :=
  let v := ofLeBytes bs
  (nats (bs.length * 8 / n) 0 1).map (fun j => v / 2 ^ (n * j) % 2 ^ n)

/-- The value of an element. -/
def CopyFmt.dec (f : CopyFmt) (x : Nat) : Val :=
  match f with
  | .num f => f.dec x
  | .bit => .ofInt (if x = 1 then 1 else -1)

/-- Whether a conversion saturates a finite value or overflows it (07 R285). What a draw into a format with infinity leaves
at the greatest value does not count (DESIGN CHOICE, log entry 29). -/
def Narrow.overflows (f : Narrow) (rn : Rnd) (v : Val) : Bool :=
  match f, v with
  | .fp f, .fin _ m e =>
    if m = 0 then false else
    let q := max f.qmin (e + Nat.log2 m - f.m)
    let top := (f.qmin + (f.maxCode / 2 ^ f.m - 1 : Nat), 2 ^ f.m + f.maxCode % 2 ^ f.m)
    decide (f.maxCode < (q - f.qmin).toNat * 2 ^ f.m + roundUnits rn m e q) ||
      (match rn with
       | .draw _ => !f.inf && (Val.fin false top.2 top.1).lt (.fin false m e)
       | _ => !(Val.fin false m e).lt (.fin false (2 * top.2 + 1) (top.1 - 1)))
  | .int n, .fin s m e =>
    let u := roundUnits rn m e 0
    decide ((if s then 2 ^ (n - 1) else 2 ^ (n - 1) - 1) < u)
  | _, _ => false

/-- One conversion: the encoding, the register after, and whether the value overflowed. -/
def copyElem (f : CopyFmt) (sr : Bool) (r : Nat) (v : Val) : Nat × Nat × Bool :=
  let r := if sr then draw r else r
  let rn := if sr then Rnd.draw (r % 65536) else .nearest
  match f with
  | .num f => (f.enc rn v, r, f.overflows rn v)
  | .bit => (if (Val.fin false 0 0).lt v then 1 else 0, r, false)

/-- Conversions in order: encodings, the register after, and overflows. -/
def copyElems (f : CopyFmt) (sr : Bool) : List Val → Nat → List Nat × Nat × Nat
  | [], r => ([], r, 0)
  | v :: t, r =>
    let p := copyElem f sr r v
    let q := copyElems f sr t p.2.1
    (p.1 :: q.1, q.2.1, q.2.2 + (if p.2.2 then 1 else 0))

/-- Draws that the destination elements before a piece take: draws go in ascending destination order within a COPY
(07 R280). -/
def drawsBefore (a : CopyArgs) (p : Piece) : Nat := p.row * trElems a a.rows + p.bit / fmtBits a.dstFmt

/-- The rounding register of engine x at the first element of a piece: as the pieces before it left it, or, under
transpose, as a draw for each destination element before it leaves the COPY's seed. -/
def pieceLfsr (x : Nat) (l : CmdList) (a : CopyArgs) (p : Piece) (s : State) : Nat :=
  if a.tr && a.sr then lfsr32n (16 * drawsBefore a p) (roundSeed l.tag (l.idx - 1) 0).toNat else (mget s.xlfsr x 1).toNat

/-- A piece's source bytes converted: its elements and their bits. Engine x counts and captures. Draws are made only into
a narrower format (07 R277). -/
def convertPiece (x : Nat) (l : CmdList) (a : CopyArgs) (p : Piece) (bs : List Byte) (s : State) : State × List Nat × Nat :=
  match copyFmt a.srcFmt, copyFmt a.dstFmt with
  | some (sf, sb), some (df, db) =>
    let vs := (elemsOf sb bs).map sf.dec
    let q := copyElems df (a.sr && decide (db < sb)) vs (pieceLfsr x l a p s)
    let s := { s with xlfsr := mput s.xlfsr x (BitVec.ofNat 32 q.2.1) }
    let s := (s.bump F.klnXeNumstat_nan x (vs.filter Val.isNan).length).bump F.klnXeNumstat_sat x q.2.2
    (s.set F.klnXeAmax_mag (maxMag (vs.map enc32) (s.get F.klnXeAmax_mag x)) x, q.1, db)
  | _, _ => (s, bs.map BitVec.toNat, 8)

/-! ## Writing (02 R87, 15 R508) -/

/-- The parts of a host write: at most 256 bytes, none crossing a 256-byte boundary. -/
def mwrParts : Nat → Nat → List Byte → List (Nat × List Byte)
  | 0, _, _ => []
  | f + 1, a, bs =>
    if bs = [] then [] else
    let k := 256 - a % 256
    (a, bs.take k) :: mwrParts f (a + k) (bs.drop k)

/-- Elements of w bits placed from bit `bit` over the bytes that hold them; bits not covered keep their content. -/
def packBits (old : List Byte) (bit w : Nat) (es : List Nat) : List Byte :=
  let v := es.foldr (fun x acc => acc * 2 ^ w + x % 2 ^ w) 0
  leBytes old.length (if es = [] then ofLeBytes old else natSetBits (ofLeBytes old) (bit + w * es.length - 1) bit v)

/-- Stores bytes for a list of engine `unit`; a write that met an uncorrectable location marks the list (09 R333, R357). -/
def copyStore (q : Nat) (l : CmdList) (unit a : Nat) (bs : List Byte) (c : Copying) : Copying :=
  if isHostAddr a then
    (mwrParts bs.length a bs).foldl (fun c p =>
      ⟨storeOut (listAgent q l.start) (ctxOf q) unit p.1 p.2 c.s .clean c.h.mesh, viewPast c.h p.1 p.2.length 0⟩) c
  else
    let r := storeTold ⟨listAgent q l.start, unit, true⟩ (ctxOf q) a bs c.h.ecc c.h.mesh c.s
    ⟨if r.2 then r.1 else r.1.updList q l.start (fun l => { l with refused := true }), viewPast c.h a bs.length (partGranules a bs.length).length⟩

/-- A piece that has been read and converted: its destination address, first bit in that byte, elements, bits. -/
def placePiece (who : Asker) (l : CmdList) (a : CopyArgs) (p : Piece) (n w : Nat) (c : Copying) :
    Copying × Except CopyStop (Nat × Nat) :=
  match (if a.scatter then indexOf who l a p.row c else (c, .ok p.row)) with
  | (c, .error x) => (c, .error x)
  | (c, .ok r) =>
    let len := (p.bit % 8 + n * w + 7) / 8
    match refAddr (l.entry 1) (a.dst % 2 ^ 48 + r * a.dstStride + p.bit / 8) len with
    | none => (c, .error (.fault (a.dst / 2 ^ 48)))
    | some d => (c, .ok (d, p.bit % 8))

/-- Every piece of a segment read, converted and placed: (address, first bit, elements, bits). Under scatter the draws go in
the order of the rows before the index list is applied (DESIGN CHOICE, log entry 29). -/
def gatherPieces (x : Nat) (who : Asker) (l : CmdList) (a : CopyArgs) :
    List Piece → Copying → Copying × Except CopyStop (List (Nat × Nat × List Nat × Nat))
  | [], c => (c, .ok [])
  | p :: t, c =>
    match readPiece who l a p.src c with
    | (c, .error e) => (c, .error e)
    | (c, .ok bs) =>
      let r := if a.raw then (c.s, bs.map BitVec.toNat, 8) else convertPiece x l a p bs c.s
      match placePiece who l a p r.2.1.length r.2.2 { c with s := r.1 } with
      | (c, .error e) => (c, .error e)
      | (c, .ok d) =>
        match gatherPieces x who l a t c with
        | (c, .error e) => (c, .error e)
        | (c, .ok ds) => (c, .ok ((d.1, d.2, r.2.1, r.2.2) :: ds))

/-- The bytes that a placed piece covers, the last perhaps in part. -/
def pieceBytes (d : Nat × Nat × List Nat × Nat) : Nat := (d.2.1 + d.2.2.1.length * d.2.2.2 + 7) / 8

/-- A placed piece is written. -/
def writePiece (q : Nat) (l : CmdList) (unit : Nat) (d : Nat × Nat × List Nat × Nat) (c : Copying) : Copying :=
  let old := if isHostAddr d.1 then (nats (pieceBytes d) d.1 1).map (hostByte c.h) else c.s.bytes d.1 (pieceBytes d)
  copyStore q l unit d.1 (packBits old d.2.1 d.2.2.2 d.2.2.1) c

/-! ## The command -/

/-- A COPY ends with a status. -/
def copyEnd (q : Nat) (l : CmdList) (st : Nat) (s : State) : State :=
  engineEnd q l.start st (isHostAddr (entryBase (l.entry 1))) s

/-- A COPY that stops. -/
def copyStop (q : Nat) (l : CmdList) (e : CopyStop) (s : State) : State :=
  match e with
  | .fault hnd => copyEnd q l 5 (faultRecord q { l with idx := l.idx - 1 } 5 hnd 0 s)
  | .lost => copyEnd q l 6 s
  | .held => s

/-- Whether a placed piece must be read before it is written: it covers a byte in part, in a home that is held. -/
def pieceHeld (s : State) (d : Nat × Nat × List Nat × Nat) : Bool :=
  (d.2.1 % 8 != 0 || d.2.2.1.length * d.2.2.2 % 8 != 0) && !engineServed s d.1 (pieceBytes d)

/-- One segment of a COPY in progress: every source byte is read before any destination byte is written. It starts when the
homes of what it reads serve it. -/
def copySegment (q : Nat) (l : CmdList) (h : HostView) (s : State) : State :=
  let e := engineOf q
  let unit := engineUnit e
  let a := copyArgs l.cmd
  match gatherPieces (e - 1) ⟨unit, ctxOf q⟩ l a (copyPieces a l.pos) ⟨s, h⟩ with
  | (_, .error .held) => s
  | (c, .error x) => copyStop q l x c.s
  | (c, .ok ds) =>
    if ds.any (pieceHeld s) then s else
    let s := (ds.foldl (fun c d => writePiece q l unit d c) c).s
    let pos := l.pos + copyStep a l.pos
    let s := s.updList q l.start (fun l => { l with pos := pos })
    if pos < copyTotal a then
      if l.aborting then copyEnd q l 1 s else s
    else copyEnd q l 0 s

/-- A COPY begins: its checks, the entries it names, its seed and its running maximum. -/
def copyBegin (q : Nat) (l : CmdList) (b : List Byte) (h : HostView) (s : State) : State :=
  let a := copyArgs b
  let e := engineOf q
  let ent := fun (ref perm : Nat) => match tableEntry s (ctxOf q) (ref / 2 ^ 48) with
    | some x => if natBit x.1.toNat perm then some x else none
    | none => none
  if !copyOk b a then commandEnd q l.start 3 s
  else
    match ent a.src 55, ent a.dst 56, (if a.gather || a.scatter then ent a.index 55 else some (0, 0)) with
    | none, _, _ => commandFault q l 5 (a.src / 2 ^ 48) 0 s
    | _, none, _ => commandFault q l 5 (a.dst / 2 ^ 48) 0 s
    | _, _, none => commandFault q l 5 (a.index / 2 ^ 48) 0 s
    | some x, some y, some z =>
      let s := s.updList q l.start (fun l => { l with cmd := b, refs := [x, y, z], pos := 0, drain := false })
      let s := if a.sr then { s with xlfsr := mput s.xlfsr (e - 1) (roundSeed l.tag l.idx 0) } else s
      let s := if natBit a.ops 4 then s.set F.klnXeAmax_mag 0 (e - 1) else s
      match s.list q l.start with
      | some l => copySegment q l h s
      | none => s

/-- COPY: starts it, moves its next segment, or ends it once its writes are placed. -/
def copy (q : Nat) (h : HostView) (s : State) : State :=
  match runningList s q with
  | some l =>
    if l.busy ∧ leAt l.cmd 0 1 = 0x20 ∧ 1 ≤ engineOf q ∧ engineOf q ≤ 8 ∧ l.holds = false then
      if l.drain then copyEnd q l l.drainSt s else copySegment q l h s
    else beginCmd q h (fun op => op == 0x20 && opValid (engineOf q) op) (fun h l b s => copyBegin q l b h s) s
  | none => s

def execCopy (q : QueueId) (hv : HostView) (s : State) : Host.Outcome State Fault Refusal := .next (copy q hv s)

/-! ## Parity errors of the datapath (18 R602) -/

/-- Entry r of a COPY's index list, as the engine has read it. -/
def heldIndex (index : List (Nat × Byte)) (l : CmdList) (a : CopyArgs) (r : Nat) (s : State) : Nat :=
  let x := entryBase (l.entry 2) + a.index % 2 ^ 48 + 4 * r
  ofLeBytes (if isHostAddr x then (nats 4 x 1).map (fun y => mget index y 0) else s.bytes x 4)

/-- The parts of n bytes at a that lie in one 4 KiB block, by their addresses in near memory's sliced view (09 R328). -/
def placeParts : Nat → Nat → Nat → List (Nat × Nat)
  | 0, _, _ => []
  | f + 1, a, n =>
    if n = 0 then [] else
    let k := min n (4096 - a % 4096)
    (sliced a, k) :: placeParts f (a + k) (n - k)

/-- Where n rows of `bytes` lie from an entry's offset o on. -/
def rowParts (e : Word64 × Word64) (o n stride bytes : Nat) (row : Nat → Nat) : List (Nat × Nat) :=
  (nats n 0 1).flatMap (fun r => placeParts (bytes / 4096 + 2) (entryBase e + o + row r * stride) bytes)

/-- Whether the source and the destination of a COPY share a byte. -/
def copyOverlaps (index : List (Nat × Byte)) (l : CmdList) (a : CopyArgs) (s : State) : Bool :=
  let drows := if a.tr then a.rowBytes / a.elem else a.rows
  let dbytes := ((if a.tr then a.rows * a.elem else a.rowBytes) * 8 / fmtBits a.srcFmt * fmtBits a.dstFmt + 7) / 8
  let at' := fun (indexed : Bool) (r : Nat) => if indexed then heldIndex index l a r s else r
  let xs := rowParts (l.entry 0) (a.src % 2 ^ 48) a.rows a.srcStride a.rowBytes (at' a.gather)
  let ys := rowParts (l.entry 1) (a.dst % 2 ^ 48) drows a.dstStride dbytes (at' a.scatter)
  xs.any (fun x => ys.any (fun y => decide (x.1 < y.1 + y.2 ∧ y.1 < x.1 + x.2)))

/-- COPY_PARITY_ERROR: the COPY runs again once from its first element where its ends do not overlap. -/
def copyParityError (q : Nat) (index : List (Nat × Byte)) (s : State) : State :=
  match runningList s q with
  | none => s
  | some l =>
    if !(l.busy && leAt l.cmd 0 1 == 0x20 && !l.holds) then s
    else
      let a := copyArgs l.cmd
      if l.rerun || copyOverlaps index l a s then copyEnd q l 5 s
      else
        let s := if a.sr then { s with xlfsr := mput s.xlfsr (engineOf q - 1) (roundSeed l.tag (l.idx - 1) 0) } else s
        s.updList q l.start (fun l => { l with pos := 0, drain := false, rerun := true, replayed := true })

def execCopyParityError (q : StoppedCopy) (s : State) : Host.Outcome State Fault Refusal :=
  .next (copyParityError q.queue q.index s)

end Sys2Proof.Machine
end

