-- ==== Sys2Proof/Machine/Ras.lean ====
section
/-! DEFINITION. The RAS block: error records, their rings, coalescing and history; parity halts and the fallow test
(18 R591-R623, 20 R657, R658). -/

namespace Sys2Proof.Machine

/-! ## Host rings of records and snapshots (18 R617, 20 R659) -/

/-- Whether a host ring of 2^j slots has room for its next entry, `n` having been written (02 R92). -/
def hostRoom (n head j : Nat) : Bool := decide ((n + 2 ^ 32 - head % 2 ^ 32) % 2 ^ 32 < 2 ^ j)

/-- The unit of what the module writes for itself, its record ring and its telemetry (00 R20, log entry 33). -/
def selfUnit : Nat := moduleUnit 15 0

/-- Entry n + 1 of a host ring: all bytes but the last, then the last one, with the phase, ordered after them
(02 R90, R91). -/
def hostEntry (agent base j n : Nat) (bs : List Byte) (s : State) : State :=
  let a := base + (bs.length + 1) * (n % 2 ^ j)
  let s := storeOut agent 0 selfUnit a bs s
  let t : Tx := {
    kind := .mwr
    addr := a + bs.length
    agent := agent
    unit := some selfUnit
    data := [BitVec.ofNat 8 ((n / 2 ^ j + 1) % 2 * 128)]
    slots := 2 }
  publishPlain ⟨[agent], .plain, t⟩ s

/-! ## Retirement (18 R611) -/

/-- RAS_RETIRED_WRITE: bits are set. -/
def retiredWrite (w v : Nat) (s : State) : State := s.set F.rasRetired_cores (s.get F.rasRetired_cores w ||| v) w

/-- The core of a unit of class 0, if it is one. -/
def coreOfUnit (u : Nat) : Option Nat := if u / 2 ^ 28 = 0 then some (natBits u 20 16 * 48 + natBits u 26 21) else none

/-- Firmware reloads RAS_RETIRED: the cores whose retirement the history holds (18 R610, R611, R623). -/
def reloadRetired (s : State) : State :=
  (s.ras.history.filter (fun h => h.action == 2)).foldl (fun s h =>
    match coreOfUnit h.unit with
    | some c => if c < 1152 then retiredWrite (c / 32) (2 ^ (c % 32)) s else s
    | none => s) s

/-! ## The management FIFO (20 R657) -/

/-- Drops the first record of a severity. -/
def dropSev (v : Nat) : List FifoRec → List FifoRec
  | [] => []
  | r :: t => if r.sev = v then t else r :: dropSev v t

/-- A record enters the FIFO; a full one discards its oldest record of the lowest severity. A named receiver is sent the
record. -/
def fifoPush (r : FifoRec) (s : State) : State :=
  let q := s.mgt.fifo
  let full := decide (256 ≤ q.length)
  let low := q.foldl (fun a x => min a x.sev) 3
  let s := if full then s.bump F.mgtFifoLost_count else s
  let q := (if full then dropSev low q else q) ++ [r]
  let s := { s with mgt := { s.mgt with fifo := q } }.set F.mgtStat_fifo q.length
  let s := if s.mgt.receiver.isSome && s.sec.firmware then
      { s with mgt := { s.mgt with replies := s.mgt.replies ++ [⟨1, 0x0A, 0, r.bytes⟩] } } else s
  settleAlert s

/-! ## The history (18 R608, R609) -/

/-- The location key of a record: the first eight bytes of its details (log entry 40). -/
def locKey (r : Rec) : Nat := leAt r.details 0 8

/-- A count of 16 bits that saturates. -/
def sat16 (n : Nat) : Nat := min n 65535

/-- A record's events added to an entry. -/
def histAdd (r : Rec) (n : Nat) (h : Hist) : Hist :=
  { h with
    ce := if r.sev = 1 then sat16 (h.ce + n) else h.ce
    ue := if r.sev = 2 ∨ r.sev = 3 then sat16 (h.ue + n) else h.ue
    fallow := if r.op = 0x20 then min 255 (h.fallow + 1) else h.fallow
    residue := if r.op = 0x10 ∨ r.op = 0x11 ∨ r.op = 0x32 then min 255 (h.residue + 1) else h.residue
    action := if r.op = 0xB0 ∨ r.op = 0x51 then 3 else h.action }

/-- The hour's entry of a record's unit and location takes its events. -/
def histNote (r : Rec) (n : Nat) : List Hist → List Hist
  | [] => [histAdd r n { unit := r.unit, hour := 0, key := locKey r }]
  | h :: t => if h.unit = r.unit ∧ h.key = locKey r then histAdd r n h :: t else h :: histNote r n t

/-- An entry of a unit's total takes an old entry. -/
def histMerge (h : Hist) : List Hist → List Hist
  | [] => [{ h with key := 0 }]
  | x :: t => if x.unit = h.unit then { x with
      action := if h.action = 0 then x.action else h.action
      hour := h.hour, ce := sat16 (x.ce + h.ce), ue := sat16 (x.ue + h.ue), fallow := min 255 (x.fallow + h.fallow),
      residue := min 255 (x.residue + h.residue) } :: t
    else x :: histMerge h t

/-- Entries the region of 4 MiB holds. -/
def histMax : Nat := 131071

/-! ## Writing a record (18 R612-R615, R623) -/

/-- The 64 bytes of a record in the device ring. -/
def recBytes (seq : Nat) (r : Rec) (coalesced pinned : Bool) (count : Nat) : List Byte :=
  leBytes 8 seq ++ leBytes 8 r.time ++ leBytes 6 r.frame
    ++ [BitVec.ofNat 8 r.sev, BitVec.ofNat 8 ((if coalesced then 1 else 0) + (if pinned then 2 else 0))]
    ++ leBytes 4 r.unit ++ leBytes 2 r.op ++ leBytes 2 r.temp ++ leBytes 2 r.mv ++ leBytes 2 count
    ++ (r.details ++ List.replicate 27 0).take 27 ++ [0]

/-- The slot of the next record: pinned first after a cold reset, plain after a warm one. -/
def recSlot (u : Ras) : Nat :=
  let k := u.since + 1
  if u.cold ∧ 4096 < k then 16 + (k - 17) % 4080 else (k - 1) % 4096

/-- The event bit of a severity. -/
def sevEvent (sev : Nat) (s : State) : State :=
  match sev with
  | 1 => raise F.rasEvtStat_corrected s
  | 2 => raise F.rasEvtStat_uncorrectable s
  | 3 => raise F.rasEvtStat_fatal s
  | _ => s

/-- A record takes its number and slot and is offered to every path. A fatal one halts the module (16 R548). -/
def writeRec (r : Rec) (coalesced : Bool) (count : Nat) (s : State) : State :=
  let u := s.ras
  let seq := s.get F.rasSeq_last + 1
  let pinned := u.cold && decide (u.since < 16)
  let bs := recBytes seq r coalesced pinned (sat16 count)
  let s := { s with ras := { u with
    ring := mput u.ring (recSlot u) bs
    since := u.since + 1
    hourRecs := histNote r (if coalesced then count else 1) u.hourRecs } }
  let s := s.set F.rasSeq_last seq
  let s := if 4096 ≤ u.since then raise F.rasEvtStat_ring_ovf (s.bump F.rasRingOvf_count) else s
  let s := sevEvent r.sev s
  let s := if r.sev = 1 then { s with mirror := { s.mirror with riskCe := s.mirror.riskCe ++ [s.frame] } } else s
  let s := if s.flag F.rasHringCtl_en && !hostRoom u.copied (s.get F.rasHringHead_consumed) (s.get F.rasHringCtl_size_log2)
    then raise F.rasEvtStat_hring_full s else s
  let s := fifoPush ⟨seq, r.sev, bs⟩ s
  if r.sev = 3 then halt 5 s else s

/-- A key under way. -/
def CoalKey.is (k : CoalKey) (r : Rec) : Bool := k.unit == r.unit && k.op == r.op

/-- ERROR_RECORD: the oldest record in flight reaches the RAS block. -/
def errorRecord (s : State) : State :=
  match s.recs with
  | [] => s
  | r :: rest =>
    let s := { s with recs := rest }
    let ks := s.ras.keys
    if r.sev ≠ 1 then writeRec r false 0 s
    else if ks.any (·.is r) then
      { s with ras := { s.ras with
          keys := ks.map (fun k => if k.is r then { k with count := k.count + 1, last := some r } else k) } }
    else if ks.length < 64 then
      writeRec r false 0 { s with ras := { s.ras with keys := ks ++ [{ unit := r.unit, op := r.op }] } }
    else writeRec r false 0 s

def execErrorRecord (s : State) : Host.Outcome State Fault Refusal := .next (errorRecord s)

/-- COALESCE_WINDOW_EXPIRY. -/
def coalesceWindow (unit op : Nat) (s : State) : State :=
  match s.ras.keys.find? (fun k => k.unit == unit && k.op == op) with
  | none => s
  | some k =>
    let s := { s with ras := { s.ras with keys := s.ras.keys.filter (fun x => !(x.unit == unit && x.op == op)) } }
    match k.last with
    | some r => writeRec r true k.count s
    | none => s

def execCoalesceWindowExpiry (unit : Word32) (op : BitVec 16) (s : State) : Host.Outcome State Fault Refusal :=
  .next (coalesceWindow unit.toNat op.toNat s)

/-! ## The host ring (18 R617) -/

/-- The oldest record held whose number is at least n. -/
def heldFrom (ring : List (Nat × List Byte)) (n : Nat) : Option (Nat × List Byte) :=
  ring.foldl (fun best p =>
    let q := leAt p.2 0 8
    if q < n then best
    else match best with
      | some b => if q < b.1 then some (q, p.2) else some b
      | none => some (q, p.2)) none

/-- HOST_RING_COPY. -/
def hostRingCopy (s : State) : State :=
  let u := s.ras
  if !s.flag F.rasHringCtl_en then s
  else
    match heldFrom u.ring u.nextCopy with
    | none => s
    | some (seq, bs) =>
      let j := s.get F.rasHringCtl_size_log2
      if hostRoom u.copied (s.get F.rasHringHead_consumed) j then
        hostEntry 1333 (s.get F.rasHringBase_base * 4096) j u.copied (bs.take 63)
          { s with ras := { u with copied := u.copied + 1, nextCopy := seq + 1 } }
      else raise F.rasEvtStat_hring_full s

def execHostRingCopy (s : State) : Host.Outcome State Fault Refusal := .next (hostRingCopy s)

def execRasRetiredWrite (w : Fin 36) (v : Word32) (s : State) : Host.Outcome State Fault Refusal :=
  .next (retiredWrite w v.toNat s)

/-! ## Parity (18 R593, R595) -/

/-- PARITY_HALT: a compute core stops with its step suspect, and what an instruction under way may have written of its
scratchpad is undefined with its registers (log entry 19); a service core halts the module. -/
def parityHalt (c : Nat) (s : State) : State :=
  if isService c then fatal 5 (coreUnit c 0) 0x11 [] s
  else
    let k := s.core c
    if k.run != .running then s
    else
      let s := undefRegs c (if k.wait.midway then undefPad c s else s)
      let s := suspectStep c 0x11 s
      s.updCore c (fun k => { k with run := .parity, halted := false })

def execParityHalt (c : CoreId) (s : State) : Host.Outcome State Fault Refusal := .next (parityHalt c s)

/-! ## The fallow test (18 R603-R607) -/

/-- A core runs no kernel, and no LAUNCH and no replay waits for it. A launch that runs on without it does not keep it
(R603). -/
def fallowIdle (s : State) (c : Nat) : Bool :=
  coreFree s c && s.launches.all (fun l => l.started || decide (c ∉ l.cores)) && decide (c ∉ replayCores s)

/-- The first core of a field at or after local index i that is not retired. -/
def fallowNext (s : State) (f i : Nat) : Option Nat :=
  (nats (64 - i) i 1).find? (fun x => !coreRetired s (coreAt f x))

/-- The core of field f that its lap tests now. -/
def fallowCore (s : State) (f : Nat) : Option Nat :=
  match fallowNext s f (mget s.ras.next f 0) with
  | some i => some i
  | none => fallowNext s f 0

/-- Field f goes on to the core after local index i, or its lap ends. -/
def fallowAdvance (f i : Nat) (s : State) : State :=
  let ms := s.now / 1000000
  if (fallowNext s f (i + 1)).isSome then { s with ras := { s.ras with next := mput s.ras.next f (i + 1) } }
  else
    let lap := min F.rasFallowStat_lap_ms.max (ms - mget s.ras.lapStart f 0)
    { s with ras := { s.ras with next := mput s.ras.next f 0, lapStart := mput s.ras.lapStart f ms } }.set
      F.rasFallowStat_lap_ms lap f

/-- The set of core c is complete: it has passed, and its field goes on. -/
def fallowPass (c : Nat) (s : State) : State :=
  let n := s.ras.order + 1
  fallowAdvance (fieldOf c) (localOf c) { s with ras := { s.ras with
    passed := mput s.ras.passed c s.frame, passedAt := mput s.ras.passedAt c n, order := n
    failedCores := s.ras.failedCores.filter (· != c), segs := mput s.ras.segs c 0 } }

/-- A segment of core c has passed: the set goes on with the next one at the core's next idle time, or is complete (R604). -/
def fallowDone (c : Nat) (s : State) : State :=
  let k := mget s.ras.segs c 0 + 1
  if s.get F.rasFallowCtl_segs ≤ k then fallowPass c s else { s with ras := { s.ras with segs := mput s.ras.segs c k } }

/-- The core is left as a kernel launch finds it (03 R115, 05 R197, 06 R223, 07 R284, R290). -/
def fallowClean (c : Nat) (s : State) : State :=
  resetCaches c (s.updCore c (fun k => { k with
    sc := { k.sc with
      g := [], pc := 0, seg := [], ls := [], le := [], lc := [], pctr := []
      ldsReg := k.sc.ldsReg &&& 0x7FFFFFFF
      cp0 := none, slot := none, shadow := none, divide := none }
    v := [], tiles := [], accs := [], matq := [], landings := [], tcfgSel := 0, tprog := 0
    amax := [], nanrec := [], nanTrap := none }))

/-- Whether a launch has used core c, in its role there, since fallow pass or start `since` (R595, R607). -/
def usedSince (l : Launch) (c since : Nat) : Bool := decide (swapCore l.pairs c ∈ l.cores ∧ since < l.startedAt)

/-- The completed steps, each with its list, that used core c since `since` and whose records are not yet written (R595,
R607). -/
def pastSteps (s : State) (c since : Nat) : List (Nat × Nat × Launch) :=
  s.queues.flatMap (fun p => (p.2.lists.filter (fun l => !(l.recording || l.out))).flatMap (fun l =>
    (l.past.filter (fun x => usedSince x c since)).map (fun x => (p.1, l.start, x))))

/-- A completed step of list (q, start) becomes suspect by core c: it is replayed, or its list ends with status 0x05. One
that has been replayed is not replayed again (R596, R600). -/
def suspectPast (q start c : Nat) (l : Launch) (s : State) : State :=
  let f := fieldOf (swapCore l.pairs c)
  let det := stepDetails s 0 q start
  let fail := fun (op : Nat) (extra : List Byte) (s : State) =>
    record 2 (coreUnit c 0) op (det ++ extra) (settleList q start (s.updList q start (fun x => { x with
      status := if x.status = 0 then 5 else x.status, stop := true, past := x.past.filter (· != l) })))
  if (s.list q start).isNone then s else
  match l.pairs with
  | p :: _ => fail 0x32 [BitVec.ofNat 8 p.1, BitVec.ofNat 8 p.2]
      (raise F.rasEvtStat_replay_fail (s.bump F.rasReplayCnt_failed))
  | [] =>
    if replayOn s (ctxOf q) then
      { s.updList q start (fun x => { x with
          past := x.past.filter (· != l), done := x.done - 1, ended := none }) with
        launches := s.launches ++ [{ l with suspect := [f], suspectOp := 0x20, suspectCore := c, suspectEpc := 0 }] }
    else fail 0x20 [] s

/-- A step under way becomes suspect by core c: its cores stop. -/
def suspectRunning (c : Nat) (l : Launch) (s : State) : State :=
  let f := fieldOf (swapCore l.pairs c)
  let l' := { l with
    suspect := if f ∈ l.suspect then l.suspect else l.suspect ++ [f]
    suspectOp := if l.suspect = [] then 0x20 else l.suspectOp
    suspectCore := if l.suspect = [] then c else l.suspectCore
    suspectEpc := if l.suspect = [] then 0 else l.suspectEpc }
  let s := { s with launches := s.launches.map (fun x => if x = l then l' else x) }
  suspectStop l' s

/-- A confirmed failure: the core stays withheld, its field goes on, and every step that used the core is suspect. -/
def fallowFail (c : Nat) (s : State) : State :=
  let since := mget s.ras.passedAt c 0
  let frame := mget s.ras.passed c 0
  let s := fallowAdvance (fieldOf c) (localOf c) { s with ras := { s.ras with
    failedCores := s.ras.failedCores.filter (· != c) ++ [c], segs := mput s.ras.segs c 0 } }
  let s := record 2 (coreUnit c 0) 0x20 (leBytes 6 frame ++ leBytes 6 s.frame) s
  let ended := pastSteps s c since
  let s := (s.launches.filter (fun l => l.started && usedSince l c since)).foldl (fun s l => suspectRunning c l s) s
  ended.foldl (fun s x => suspectPast x.1 x.2.1 c x.2.2 s) s

/-- A failed segment withholds its core from new launches, and is run again three times. -/
def fallowRetest (c : Nat) (s : State) : State :=
  { s with ras := { s.ras with
      withheld := s.ras.withheld.filter (· != c) ++ [c], retesting := s.ras.retesting ++ [c] } }.set
    F.rasFallowStat_state 2 (fieldOf c)

/-- The three retests of core c have run, and `failed` of them failed. -/
def fallowJudge (c failed : Nat) (s : State) : State :=
  let s := { s with ras := { s.ras with retesting := s.ras.retesting.filter (· != c) } }.set F.rasFallowStat_state 0 (fieldOf c)
  if failed = 0 then
    fallowDone c (record 1 (coreUnit c 0) 0x21 [] { s with ras := { s.ras with withheld := s.ras.withheld.filter (· != c) } })
  else fallowFail c s

/-- FALLOW_SEGMENT: the next segment of the core its field tests, which passes or fails; the retests of a failed one end in
the same step (`judged`) or in the core's next. -/
def fallowSegment (c : Nat) (judged passed : Bool) (failed : Nat) (s : State) : State :=
  let f := fieldOf c
  if c ∈ s.ras.retesting then fallowJudge c failed (fallowClean c s)
  else if !(s.flag F.rasFallowCtl_en && s.sec.firmware && fallowIdle s c && fallowCore s f == some (localOf c)) then s
  else
    let s := fallowClean c (s.set F.rasFallowStat_core (localOf c) f)
    if passed then fallowDone c s
    else if judged then fallowJudge c failed (fallowRetest c s)
    else fallowRetest c s

def execFallowSegment (c : TileId) (judged passed : Bool) (retestsFailed : Fin 4) (s : State) :
    Host.Outcome State Fault Refusal := .next (fallowSegment c judged passed retestsFailed s)

end Sys2Proof.Machine
end

