-- ==== Sys2Proof/Machine/Power.lean ====
section
/-! DEFINITION. Hearth and the cones: raising and removing the rails, the supply bands, ride-through, measurement,
phases and set points, temperatures and droop (17 R559-R590, 01 R36, R41, R42, R44, 00 R18, 19 R650). -/

namespace Sys2Proof.Machine

/-! ## Cold reset (00 R18) -/

/-- The Hearth state changed. -/
def State.updHearth (s : State) (f : Hearth → Hearth) : State := { s with hearth := f s.hearth }

/-- The cones' state changed. -/
def State.updCones (s : State) (f : Cones → Cones) : State := { s with cones := f s.cones }

/-- Spare rows used in a slice by repairs burnt into the field fuses. -/
def burntOf (u : Upkeep) (n : Nat) : Nat := ((u.burnt.filter (fun p => p.1 / 16 == n)).map (·.2)).sum

/-- The bonded DRAM die of a slice: 4 × die + quadrant (01 R31). -/
def dramDie (n : Nat) : Nat :=
  let x := n % 48
  let y := n / 48
  4 * (x / 24) + x % 24 / 12 + 2 * (y / 12)

/-- A slice's register shows the field fuses that are left on its DRAM die (09 R337). -/
def showFuses (n : Nat) (s : State) : State :=
  s.set F.nmcStat_fuse_left (min 255 (512 - mget s.upkeep.fuses (dramDie n) 0)) n

/-- A slice's register shows the spare rows and field fuses that are left (09 R337). -/
def showSpares (n used : Nat) (s : State) : State := showFuses n (s.set F.nmcStat_spare_left (128 - used) n)

/-- Everything returns to its cold state; fuses and flash keep theirs, and so does the clock pin. -/
def coldReset (s : State) : State :=
  let t : State := {
    pending := s.pending
    freeCount := s.freeCount
    pins := { s.pins with pwrGood := false, alertN := true }
    regs := s.regs.filter (fun p => p.1.1 == .secSvn || p.1.1 == .secDevid)
    hearth := { failures := s.hearth.failures, samples := s.hearth.samples }
    upkeep := { fuses := s.upkeep.fuses, burnt := s.upkeep.burnt, spares := s.upkeep.burnt, hard := s.upkeep.hard }
    ras := { history := s.ras.history, hours := s.ras.hours }
    sec := { slot := s.sec.slot, lms := s.sec.lms, keys := s.sec.keys, debugKey := s.sec.debugKey } }
  (nats 1152 0 1).foldl (fun t n =>
    if burntOf t.upkeep n = 0 ∧ mget t.upkeep.fuses (dramDie n) 0 = 0 then t else showSpares n (burntOf t.upkeep n) t) t

/-! ## Raising and removing the rails (17 R562, R564, R572) -/

/-- Whether every rail is in regulation. -/
def railsUp (s : State) : Bool := s.hearth.rails == 6

/-- COLD_SEQUENCING: V first exceeds 40.0 V. Its rails wait for the reference clock (01 R36). -/
def coldSequencing (s : State) : State :=
  if s.hearth.sequencing ∨ s.hearth.rails ≠ 0 ∨ s.hearth.failures ≠ 0 then s
  else (coldReset s).updHearth (fun h => { h with sequencing := true })

def execColdSequencing (s : State) : Host.Outcome State Fault Refusal := .next (coldSequencing s)

/-- REFCLK_PRESENT. -/
def refclkPresent (s : State) : State := { s with pins := { s.pins with refclk := true } }

def execRefclkPresent (s : State) : Host.Outcome State Fault Refusal := .next (refclkPresent s)

/-- The end of cold sequencing: PWR_GOOD rises, SLOT_ID is sampled, the links may train. -/
def powerGood (s : State) : State :=
  let slot := s.pins.slot.toNat
  let s := { s with pins := { s.pins with pwrGood := true } }.updHearth (fun h => { h with
    sequencing := false, failures := 0 })
  settleAlert ((s.set F.glbSlot_slot_id slot).set F.mirStat_slot slot)

/-- RAIL_REGULATED. -/
def railRegulated (s : State) : State :=
  if s.hearth.sequencing && s.pins.refclk then
    let s := s.updHearth (fun h => { h with rails := h.rails + 1 })
    if railsUp s then powerGood s else s
  else s

def execRailRegulated (s : State) : Host.Outcome State Fault Refusal := .next (railRegulated s)

/-- The rails are removed, PWR_GOOD first: everything without power loses its content. -/
def removeRails (s : State) : State := coldReset s

/-- RAIL_TIMEOUT: the sequence ends, and the rails already up are removed. -/
def railTimeout (s : State) : State :=
  if s.hearth.sequencing && s.pins.refclk then
    (removeRails s).updHearth (fun h => { h with failures := h.failures + 1 })
  else s

def execRailTimeout (s : State) : Host.Outcome State Fault Refusal := .next (railTimeout s)

/-- RAIL_SEQUENCE_RETRY: once, after the first failure. -/
def railSequenceRetry (s : State) : State :=
  if s.hearth.failures = 1 ∧ s.hearth.sequencing = false ∧ s.hearth.rails = 0 then
    s.updHearth (fun h => { h with sequencing := true })
  else s

def execRailSequenceRetry (s : State) : Host.Outcome State Fault Refusal := .next (railSequenceRetry s)

/-! ## Records and captures (17 R579, R581) -/

/-- Hearth's unit for the input. -/
def hearthUnit : Nat := moduleUnit 10 0

/-- An event named in mask bit `i` fixes the trigger sample of a capture that has none. -/
def waveTrigger (i : Nat) (s : State) : State :=
  let h := s.hearth
  if h.capturing && h.trig.isNone && natBit (s.get F.hrtWaveCtl_mask) i then
    (s.set F.hrtWaveTime_time_ns s.now).updHearth (fun h => { h with trig := some (h.taken - 1) })
  else s

/-- A capture starts, or starts again. -/
def startCapture (s : State) : State :=
  ((s.set F.hrtWaveCtl_done 0).set F.hrtWaveCtl_arm 1).updHearth (fun h => { h with
    capturing := true, taken := 0, trig := none, pairs := [] })

/-- A software trigger. -/
def softTrigger (s : State) : State :=
  if s.hearth.capturing && s.hearth.trig.isNone then
    (s.set F.hrtWaveTime_time_ns s.now).updHearth (fun h => { h with trig := some (h.taken - 1) })
  else s

/-- A write of HRT_WAVE_CTL. -/
def waveCtlWrite (v : Nat) (s : State) : State :=
  let s := if s.hearth.capturing then s
    else (s.set F.hrtWaveCtl_mask (natBits v 28 24)).set F.hrtWaveCtl_pre (natBits v 13 0)
  let s := if natBit v 31 then startCapture s else s
  if natBit v 29 then softTrigger s else s

def execWaveArm (v : Word32) (s : State) : Host.Outcome State Fault Refusal := .next (waveCtlWrite (natSetBits v.toNat 31 31 1) s)
def execWaveSwTrig (s : State) : Host.Outcome State Fault Refusal := .next (softTrigger s)

/-- The buffer of a capture whose last pairs, oldest first, are these: the trigger sample is word `pre`, and words before
the first sample are 0. -/
def waveWords (oldest : List Word32) : List Word32 := List.replicate (16384 - oldest.length) 0 ++ oldest

/-- WAVE_CAPTURE_DONE: 16,384 - pre samples have been taken from the trigger sample. -/
def waveCaptureDone (s : State) : State :=
  let h := s.hearth
  let pre := s.get F.hrtWaveCtl_pre
  match h.trig with
  | some t =>
    if h.capturing ∧ t + 16384 - pre ≤ h.taken then
      let s := s.updHearth (fun h => { h with capturing := false, wave := waveWords h.pairs.reverse, waveFree := none, pairs := [] })
      raise F.hrtEvtStat_wave (hwClear F.hrtWaveCtl_arm 0 1 (s.set F.hrtWaveCtl_done 1))
    else s
  | none => s

def execWaveCaptureDone (s : State) : Host.Outcome State Fault Refusal := .next (waveCaptureDone s)

/-! ## Samples (17 R574-R578) -/

/-- Mean of numbers. -/
def meanOf (l : List Nat) : Nat := l.sum / l.length

/-- A sample enters the mean, the energy, the frame's figures and a capture. -/
def takeSample (v i : BitVec 16) (s : State) : State :=
  let h := s.hearth
  let samples := ((v, i) :: h.samples).take 8
  let e := h.energy + v.toNat * i.toNat
  let pre := s.get F.hrtWaveCtl_pre
  let word := decide (h.decCount = 99)
  let words := if word then (h.decSum + v.toNat) :: h.window else h.window
  let whole := decide (words.length = 2000)
  let full := match h.trig with | some t => decide (t + 16384 - pre ≤ h.taken) | none => false
  let grab := h.capturing && !full
  let s := { s with hearth := { h with
    samples := samples
    energy := e % 2000000000
    count := h.count + 1, sum := h.sum + v.toNat, squares := h.squares + v.toNat * v.toNat
    low := if h.count = 0 then v.toNat else min h.low v.toNat
    high := max h.high v.toNat
    atTick := false
    decSum := if word then 0 else h.decSum + v.toNat, decCount := if word then 0 else h.decCount + 1
    window := if whole then [] else words, windowDone := if whole then some words.reverse else h.windowDone
    taken := if grab then h.taken + 1 else h.taken
    pairs := if grab then ((i ++ v : BitVec 32) :: h.pairs).take 16384 else h.pairs } }
  let s := (s.set F.hrtVin_v_mv (meanOf (samples.map (·.1.toNat)))).set F.hrtVin_i_ma (meanOf (samples.map (·.2.toNat)))
  s.set F.hrtEnergy_mj (s.get F.hrtEnergy_mj + e / 2000000000)

/-- The whole square root of a number, by Newton's rule with fuel. -/
def isqrtFrom : Nat → Nat → Nat → Nat
  | 0, _, r => r
  | k + 1, n, r => let r' := (r + n / r) / 2; if r' < r then isqrtFrom k n r' else r

/-- The whole square root. -/
def sqrtFloor (n : Nat) : Nat := if n = 0 then 0 else isqrtFrom 80 n (n + 1)

/-- Hearth's latch of a frame (R575), with rounding towards 0. -/
def frameLatch (s : State) : State :=
  let h := s.hearth
  if h.count = 0 then s
  else
    ((s.set F.hrtFrame_rms_mv (sqrtFloor (h.squares / h.count))).set F.hrtFrame_ripple_mv (h.high - h.low)).updHearth
      (fun h => { h with count := 0, sum := 0, squares := 0, low := 0, high := 0 })

/-- cos(2π j / 1000) for j up to 250, in units of 2^-60, by its series. -/
def cosSeries (j : Nat) : Nat → Int → Int → Int
  | 0, _, acc => acc
  | k + 1, t, acc =>
    let n := 11 - k
    let x := (j * 7244019458077122842 / 1000 : Int)
    let t := -(t * x / 2 ^ 60 * x / 2 ^ 60) / ((2 * n + 1) * (2 * n + 2))
    cosSeries j k t (acc + t)

/-- cos(2π j / 1000), in units of 2^-60. -/
def cosStep (j : Nat) : Int :=
  let j := j % 1000
  let j := if 500 < j then 1000 - j else j
  if 250 < j then -cosSeries (500 - j) 12 (2 ^ 60) (2 ^ 60) else cosSeries j 12 (2 ^ 60) (2 ^ 60)

/-- The magnitude, in mV rms, of a window's component of 20 × m Hz: the whole millivolts, or the next one where the
converter rounds `up`, which the spec leaves open (log entry 37). -/
def rippleOf (w : List Nat) (m : Nat) (up : Bool) : Nat :=
  let part := fun phase : Nat =>
    ((nats w.length 0 1).zip w).foldl (fun (a : Int) p => a + (p.2 : Int) * cosStep (m * p.1 + phase)) 0
  let x := 2 * ((part 0).natAbs ^ 2 + (part 750).natAbs ^ 2)
  let unit := (100 * w.length * 2 ^ 60) ^ 2
  let r := sqrtFloor (x / unit)
  min 65535 (if up && r * r * unit != x then r + 1 else r)

/-- RIPPLE_WINDOW: the four magnitudes of the last whole window replace the previous ones together. -/
def rippleWindow (u1 u2 u3 u4 : Bool) (s : State) : State :=
  match s.hearth.windowDone with
  | none => s
  | some w =>
    let m := if s.flag F.hrtCtl_mains then 6 else 5
    let s := s.updHearth (fun h => { h with windowDone := none })
    (((s.set F.hrtHarm0_h1 (rippleOf w m u1)).set F.hrtHarm0_h2 (rippleOf w (2 * m) u2)).set
      F.hrtHarm1_h3 (rippleOf w (3 * m) u3)).set F.hrtHarm1_h4 (rippleOf w (4 * m) u4)

def execRippleWindow (h1 h2 h3 h4 : Bool) (s : State) : Host.Outcome State Fault Refusal :=
  .next (rippleWindow h1 h2 h3 h4 s)

/-! ## Phases and set points (17 R566, R567, R587) -/

/-- The phases a rail current calls for. -/
def phasesFor (amps : Nat) : Nat := min 24 (max 4 ((amps + 34) / 35 + 2))

/-- The phases of the two dies as they stand. -/
def setPhases (p0 p1 : Nat) (s : State) : State :=
  (s.updHearth (fun h => { h with phases0 := p0, phases1 := p1 })).set F.hrtStat_phases (p0 + p1)

/-- Phases are added for the currents of a sample; all stay on without shedding. -/
def addPhases (a0 a1 : Nat) (s : State) : State :=
  let s := s.updHearth (fun h => { h with need0 := max h.need0 (phasesFor a0), need1 := max h.need1 (phasesFor a1) })
  if s.flag F.hrtCtl_shed_en then setPhases (max s.hearth.phases0 (phasesFor a0)) (max s.hearth.phases1 (phasesFor a1)) s
  else setPhases 24 24 s

/-- A droop trip adds phases on its die: how many the spec leaves open (log entry 41). -/
def droopPhases (die : Nat) (s : State) : State :=
  let more := fun p : Nat => if p < 24 then p + 1 + Config.phasesAdded die % (24 - p) else p
  if die = 0 then setPhases (more s.hearth.phases0) s.hearth.phases1 s else setPhases s.hearth.phases0 (more s.hearth.phases1) s

/-- A frame ends: whether fewer phases than are on would have served each die in it is counted, and the tick with it. -/
def frameEnd (s : State) : State :=
  s.updHearth (fun h => { h with
    need0 := 0, need1 := 0, atTick := true
    fewer0 := if h.need0 < h.phases0 then h.fewer0 + 1 else 0
    fewer1 := if h.need1 < h.phases1 then h.fewer1 + 1 else 0
    trimTicks0 := h.trimTicks0 + 1, trimTicks1 := h.trimTicks1 + 1 })

/-- PHASE_SHED: at a tick, once fewer phases would have served 8 consecutive frames; `amps` is the rail current there. -/
def phaseShed (die amps : Nat) (s : State) : State :=
  let h := s.hearth
  if s.flag F.hrtCtl_shed_en && railsUp s && h.atTick then
    if die = 0 then
      if h.fewer0 < 8 then s
      else (setPhases (min h.phases0 (phasesFor amps)) h.phases1 s).updHearth (fun h => { h with fewer0 := 0 })
    else if h.fewer1 < 8 then s
    else (setPhases h.phases0 (min h.phases1 (phasesFor amps)) s).updHearth (fun h => { h with fewer1 := 0 })
  else s

def execPhaseShed (die : Fin 2) (amps : Nat) (s : State) : Host.Outcome State Fault Refusal := .next (phaseShed die amps s)

/-- The set point of a die after a trim: 5 mV up where the mean of 12 counts over 6,250 latches has fallen 1 %, down where it
has risen 1 %, within 720-780 mV. -/
def trimmed (mv sum fused : Nat) : Nat :=
  let n := 12 * 6250
  if sum * 100 ≤ fused * 99 * n then min 780 (mv + 5)
  else if fused * 101 * n ≤ sum * 100 then max 720 (mv - 5)
  else mv

/-- VCORE_TRIM: at a tick, at most once per 6,250, with the mean of the last 6,250 latches. -/
def vcoreTrim (die : Nat) (s : State) : State :=
  let h := s.hearth
  if !h.atTick then s
  else if die = 0 then
    match h.mean0 with
    | some m =>
      if h.trimTicks0 < 6250 then s
      else (s.set F.hrtVcore_die0_mv (trimmed (s.get F.hrtVcore_die0_mv) m (Config.procFused 0))).updHearth
        (fun h => { h with mean0 := none, trimTicks0 := 0 })
    | none => s
  else
    match h.mean1 with
    | some m =>
      if h.trimTicks1 < 6250 then s
      else (s.set F.hrtVcore_die1_mv (trimmed (s.get F.hrtVcore_die1_mv) m (Config.procFused 1))).updHearth
        (fun h => { h with mean1 := none, trimTicks1 := 0 })
    | none => s

def execVcoreTrim (die : Fin 2) (s : State) : Host.Outcome State Fault Refusal := .next (vcoreTrim die s)

/-! ## Sags and swells (17 R577) -/

/-- The record of an excursion: its start, its length and its extreme. -/
def excursionRecord (x : Excursion) (s : State) : State :=
  record 1 hearthUnit 0x70 (leBytes 8 x.start ++ leBytes 8 (s.now - x.start) ++ leBytes 2 x.worst) s

/-- The sag of a mean. -/
def sagStep (m : Nat) (s : State) : State :=
  let thr := s.get F.hrtEvtThr_sag_mv
  match s.hearth.sag with
  | none =>
    if m < thr then
      let s := waveTrigger 0 (raise F.hrtEvtStat_sag (s.bump F.hrtEvtCnt_sag))
      (s.updHearth (fun h => { h with sag := some ⟨s.now, m⟩ })).updMir (fun x => { x with riskSag := true })
    else s
  | some x =>
    if thr + 1000 ≤ m then excursionRecord x (s.updHearth (fun h => { h with sag := none }))
    else s.updHearth (fun h => { h with sag := some { x with worst := min x.worst m } })

/-- The swell of a mean. -/
def swellStep (m : Nat) (s : State) : State :=
  let thr := s.get F.hrtEvtThr_swell_mv
  match s.hearth.swell with
  | none =>
    if thr < m then
      let s := waveTrigger 1 (raise F.hrtEvtStat_swell (s.bump F.hrtEvtCnt_swell))
      (s.updHearth (fun h => { h with swell := some ⟨s.now, m⟩ })).updMir (fun x => { x with riskSag := true })
    else s
  | some x =>
    if m + 1000 ≤ thr then excursionRecord x (s.updHearth (fun h => { h with swell := none }))
    else s.updHearth (fun h => { h with swell := some { x with worst := max x.worst m } })

/-! ## Bands (17 R559, R560, R568-R573) -/

/-- The band of a mean, as HRT_STAT codes it. -/
def bandOf (m : Nat) : Nat :=
  if m < 30000 then 0 else if m < 34000 then 6 else if m < 38000 then 5 else if m < 40000 then 1
  else if m ≤ 56000 then 2 else if m ≤ 60000 then 3 else 4

/-- Entry to the request band (R568). -/
def requestBand (s : State) : State :=
  let s := (s.set F.klnThrottle_hearth 1).set F.hrtStat_req38 1
  let s := s.updMir (fun m => { m with riskReq := true })
  waveTrigger 2 (record 1 hearthUnit 0x70 [] (raise F.hrtEvtStat_low38 s))

/-- Entry to the halt band (R570): excursions that run into it are recorded there too, and go on (R577). -/
def haltBand (s : State) : State :=
  let s := match s.hearth.sag with | some x => excursionRecord x s | none => s
  let s := match s.hearth.swell with | some x => excursionRecord x s | none => s
  waveTrigger 3 (raise F.hrtEvtStat_halt (fatal 1 hearthUnit 0x70 [] s))

/-- The band is judged: the halt band is left only downwards, the request band upwards only at the request's end. -/
def judgeBand (m : Nat) (s : State) : State :=
  let old := s.get F.hrtStat_band
  let b := bandOf m
  let s := s.updHearth (fun h => { h with switchOpen := if 60000 < m then true else if m < 58000 then false else h.switchOpen })
  if b = 0 then removeRails s
  else if old = 6 then s
  else if b = 6 then haltBand (s.set F.hrtStat_band 6)
  else if b = 5 then
    let s := s.set F.hrtStat_band 5
    if s.flag F.hrtStat_req38 then s else requestBand s
  else if s.flag F.hrtStat_req38 then s
  else s.set F.hrtStat_band b

/-- The band is judged, and its sensor tells a change. -/
def bandStep (m : Nat) (s : State) : State :=
  let t := judgeBand m s
  stateEvent 0x302 (s.get F.hrtStat_band) (t.get F.hrtStat_band) t

/-- HEARTH_SAMPLE. Without rails Hearth only watches for V below 30.0 V, which allows a new start (R562). -/
def hearthSample (v i : BitVec 16) (a0 a1 : Nat) (s : State) : State :=
  let s := takeSample v i s
  let m := s.get F.hrtVin_v_mv
  if railsUp s then
    let s := addPhases a0 a1 s
    bandStep m (swellStep m (sagStep m s))
  else if m < 30000 then
    (if s.hearth.sequencing then removeRails s else s).updHearth (fun h => { h with failures := 0 })
  else s

def execHearthSample (vMv iMa : BitVec 16) (amps0 amps1 : Nat) (s : State) : Host.Outcome State Fault Refusal :=
  .next (hearthSample vMv iMa amps0 amps1 s)

/-- REQ38_END: V has stayed above 39.0 V. The throttle request falls at the next tick; the request band is left, the halt
band is not (R560, R569). -/
def req38End (s : State) : State :=
  let m := s.get F.hrtVin_v_mv
  if s.flag F.hrtStat_req38 ∧ 39000 < m then
    let s := s.set F.hrtStat_req38 0
    if s.get F.hrtStat_band = 5 then stateEvent 0x302 5 (bandOf m) (s.set F.hrtStat_band (bandOf m)) else s
  else s

def execReq38End (s : State) : Host.Outcome State Fault Refusal := .next (req38End s)

/-! ## Temperatures (17 R582-R585) -/

/-- A temperature as a signed number of eighths of a degree. -/
def degrees (t : BitVec 16) : Int := t.toInt

/-- Router of thermal cone i. -/
def thermXY (i : Nat) : Nat × Nat := (2 + 4 * (i % 12), 1 + 3 * (i / 12))

/-- Router of droop cone k. -/
def droopXY (k : Nat) : Nat × Nat := (1 + 3 * (k % 16), 3 + 6 * (k / 16))

/-- Router of DRAM reading j: its quadrant's lowest core, or its port. -/
def dramXY (j : Nat) : Nat × Nat :=
  if j < 8 then (24 * (j / 4) + 12 * (j % 2), 12 * (j % 4 / 2)) else portXY (j - 8)

/-- A reading at its trip (R585). -/
def coneTrip (unit : Nat) (s : State) : State := raise F.conEvtStat_trip (fatal 5 unit 0x80 [] s)

/-- Indices of the readings at or above a limit in degrees. -/
def atOrAbove (limit : Int) (l : List (BitVec 16)) : List Nat :=
  (nats l.length 0 1).filter (fun i => decide (8 * limit ≤ degrees (l.getD i 0)))

/-- THERMAL_CONVERSION. -/
def thermalConversion (temps : List (BitVec 16)) (s : State) : State :=
  let l := temps.take 96
  (atOrAbove s.cones.tripC l).foldl (fun s i => coneTrip (unitId 11 (thermXY i) i) s)
    (s.updCones (fun c => { c with therm := l }))

def execThermalConversion (temps : List (BitVec 16)) (s : State) : Host.Outcome State Fault Refusal :=
  .next (thermalConversion temps s)

/-- DRAM_READING. -/
def dramReading (temps : List (BitVec 16)) (s : State) : State :=
  let l := temps.take 40
  (atOrAbove (s.cones.dramC + 15) l).foldl (fun s j => coneTrip (unitId 11 (dramXY j) (0x300 + j)) s)
    (s.updCones (fun c => { c with dram := l }))

def execDramReading (temps : List (BitVec 16)) (s : State) : Host.Outcome State Fault Refusal := .next (dramReading temps s)

/-- The hottest of some readings with its index. -/
def hottest (l : List (BitVec 16)) : Option (Nat × BitVec 16) :=
  (nats l.length 0 1).foldl (fun best i =>
    let t := l.getD i 0
    match best with
    | some b => if degrees b.2 < degrees t then some (i, t) else some b
    | none => some (i, t)) none

/-- The divisor step a temperature calls for. -/
def stepFor (t : Option (Nat × BitVec 16)) (thr : Int) : Nat :=
  match t with
  | none => 0
  | some (_, t) =>
    if 8 * (thr + 10) ≤ degrees t then 3 else if 8 * (thr + 5) ≤ degrees t then 2 else if 8 * thr ≤ degrees t then 1 else 0

/-- The cone request is the largest of the three. -/
def showRequests (s : State) : State :=
  let d := max s.cones.dieD (max s.cones.dramD s.cones.droopD)
  (s.set F.conStat_d d).set F.klnThrottle_cone d

/-- The readings of a latch go to the registers. -/
def latchReadings (counts : List (BitVec 24)) (s : State) : State :=
  let c := s.cones
  let s := (nats c.therm.length 0 1).foldl (fun s i => s.set F.conTherm_temp (c.therm.getD i 0).toNat i) s
  let s := (nats c.dram.length 0 1).foldl (fun s j => s.set F.conDram_temp (c.dram.getD j 0).toNat j) s
  (nats (min 24 counts.length) 0 1).foldl (fun s p => s.set F.conProc_count (counts.getD p 0).toNat p) s

/-- The process counts of a latch enter each die's window; the window of 6,250 latches ends with its sums (R587). -/
def sumCounts (counts : List (BitVec 24)) (s : State) : State :=
  if counts = [] then s
  else
    let of' := fun lo : Nat => ((nats 24 0 1).filter (fun p => (2 + 4 * (p % 12)) / 24 == lo)).map (fun p => (counts.getD p 0).toNat)
    let p0 := s.hearth.proc0 + (of' 0).sum
    let p1 := s.hearth.proc1 + (of' 1).sum
    s.updHearth (fun h =>
      if h.latches + 1 = 6250 then { h with proc0 := 0, proc1 := 0, latches := 0, mean0 := some p0, mean1 := some p1 }
      else { h with proc0 := p0, proc1 := p1, latches := h.latches + 1 })

/-- The hottest source of a latch. -/
def showHottest (s : State) : State :=
  let a := hottest s.cones.therm
  let b := hottest s.cones.dram
  let h := match a, b with
    | some x, some y => if degrees x.2 < degrees y.2 then some (96 + y.1, y.2) else some x
    | some x, none => some x
    | none, some y => some (96 + y.1, y.2)
    | none, none => none
  match h with
  | some (i, t) => (s.set F.conStat_hot_idx i).set F.conStat_hot_temp t.toNat
  | none => s

/-- The hottest of temperature registers, of a field with n elements. -/
def hottestReg (s : State) (f : Fld) (n : Nat) : BitVec 16 :=
  (nats n 0 1).foldl (fun (m : BitVec 16) i =>
    let t := BitVec.ofNat 16 (s.get f i)
    if m.toInt < t.toInt then t else m) (BitVec.ofNat 16 (s.get f 0))

/-- A threshold event of a sensor whose reading has crossed a limit in degrees (20 R655). -/
def thresholdEvent (sensor : Nat) (old new : BitVec 16) (limit : Int) (s : State) : State :=
  stateEvent sensor (if 8 * limit ≤ degrees old then 1 else 0) (if 8 * limit ≤ degrees new then 1 else 0) s

/-- What the management sensors latch beside the cones' registers, and the events of sensors 5 and 6 against the readings
of the state before (20 R655). -/
def sensorLatch (before s : State) : State :=
  let s := { s with mgt := { s.mgt with
    latch := [s.get F.hrtVin_v_mv, s.get F.hrtVin_i_ma, s.get F.hrtEnergy_mj, s.get F.klnThrottle_eff] } }
  let d0 := hottestReg before F.conTherm_temp 96
  let d1 := hottestReg s F.conTherm_temp 96
  let m0 := hottestReg before F.conDram_temp 40
  let m1 := hottestReg s F.conDram_temp 40
  let s := thresholdEvent 5 d0 d1 (s.get F.conThermCtl_trip_c) (thresholdEvent 5 d0 d1 (s.get F.conThermCtl_thr_c) s)
  thresholdEvent 6 m0 m1 (s.get F.conThermCtl_trip_c) (thresholdEvent 6 m0 m1 (s.get F.conThermCtl_dram_c) s)

/-- Whether a source lies 3 °C below a request's step. -/
def coolFor (t : Option (Nat × BitVec 16)) (thr : Int) (d : Nat) : Bool :=
  match t with
  | some (_, t) => decide (degrees t < 8 * (thr + 5 * ((d : Int) - 1) - 3))
  | none => true

/-- One more latch at which a source lay 3 °C below its request's step, or none (R584). -/
def coolStep (n : Nat) (old d : Nat) (t : Option (Nat × BitVec 16)) (thr : Int) : Nat :=
  if d = old ∧ 0 < d ∧ coolFor t thr d = true then n + 1 else 0

/-- The cones' latch (R583, R584): the thresholds of CON_THERM_CTL come into force (R590); requests rise at once and fall
by THROTTLE_REQUEST_FALL; sixteen trips in the frame raise the droop request for 1,000 latches (R586). -/
def coneLatch (time : Nat) (counts : List (BitVec 24)) (s : State) : State :=
  let before := s
  let s := sumCounts counts (latchReadings counts (s.set F.conSnapTime_time_ns time))
  let c := s.cones
  let thr := s.get F.conThermCtl_thr_c
  let dramC := s.get F.conThermCtl_dram_c
  let die := max c.dieD (stepFor (hottest c.therm) thr)
  let dram := max c.dramD (stepFor (hottest c.dram) dramC)
  let s := if c.dieD = 0 ∧ 0 < die then raise F.conEvtStat_die_hot s else s
  let s := if c.dramD = 0 ∧ 0 < dram then raise F.conEvtStat_dram_hot s else s
  let s := s.updCones (fun c => { c with
    dieD := die, dramD := dram, trips := 0
    dieCool := coolStep c.dieCool c.dieD die (hottest c.therm) thr
    dramCool := coolStep c.dramCool c.dramD dram (hottest c.dram) dramC
    droopD := if 16 ≤ c.trips then 1 else c.droopD
    droopLeft := if 16 ≤ c.trips then 1000 else c.droopLeft - 1
    tripC := s.get F.conThermCtl_trip_c, dramC := dramC, thrC := thr })
  sensorLatch before (showHottest (showRequests s))

/-- IDLE_LATCH_TIMER: with tick_en 0 the latches run every 160 µs. -/
def idleLatch (counts : List (BitVec 24)) (s : State) : State :=
  if s.flag F.klnFrameCtl_tick_en then s else coneLatch s.now counts (frameLatch s)

def execIdleLatchTimer (counts : List (BitVec 24)) (s : State) : Host.Outcome State Fault Refusal := .next (idleLatch counts s)

/-- THROTTLE_REQUEST_FALL: by one step, after 6,250 consecutive latches 3 °C below it. -/
def requestFall (dram : Bool) (s : State) : State :=
  let c := s.cones
  if dram then
    if 0 < c.dramD ∧ 6250 ≤ c.dramCool then
      showRequests (s.updCones (fun c => { c with dramD := c.dramD - 1, dramCool := 0 }))
    else s
  else if 0 < c.dieD ∧ 6250 ≤ c.dieCool then
    showRequests (s.updCones (fun c => { c with dieD := c.dieD - 1, dieCool := 0 }))
  else s

def execThrottleRequestFall (dram : Bool) (s : State) : Host.Outcome State Fault Refusal := .next (requestFall dram s)

/-! ## Droop (17 R586, 19 R650) -/

/-- A droop has abandoned a protected operation; the third of a boot halts the module for good (19 R650). -/
def glitchTrip (s : State) : State :=
  let n := s.sec.glitches + 1
  let s := raise F.secEvtStat_glitch (s.bump F.secGlitchCnt_count)
  let s := { s with sec := { s.sec with glitches := n, burning := false } }
  if n < 3 then s
  else
    let stop := fun (p : Nat × Core) => (p.1, { p.2 with run := RunState.stopped, wait := Wait.none })
    { s with sec := { s.sec with checking := false, firmware := false }, cores := s.cores.map stop } |> bootGoto 7

/-- A droop during a ROM check or a fuse burn; one during a signature is its command's (log entry 46). -/
def glitch (s : State) : State := if s.sec.checking || s.sec.burning then glitchTrip s else s

/-- DROOP_TRIP of cone k. While the droop request stands it restarts the request's 1,000 latches. -/
def droopTrip (k : Nat) (s : State) : State :=
  if !railsUp s then s
  else
    let xy := droopXY k
    let s := droopPhases (xy.1 / 24) s
    let s := waveTrigger 4 (s.bump F.conDroopCnt_trips)
    let s := record 1 (unitId 11 xy (0x100 + k)) 0x80 [] (raise F.conEvtStat_droop s)
    let s := (s.updCones (fun c => { c with
      trips := c.trips + 1, droopLeft := if c.droopD = 1 then 1000 else c.droopLeft })).updMir (fun m => { m with riskDroop := true })
    glitch s

def execDroopTrip (k : Fin 64) (s : State) : Host.Outcome State Fault Refusal := .next (droopTrip k s)

/-- DROOP_REQUEST_END: 1,000 latches after the last raise. -/
def droopRequestEnd (s : State) : State :=
  if 0 < s.cones.droopLeft then s else showRequests (s.updCones (fun c => { c with droopD := 0 }))

def execDroopRequestEnd (s : State) : Host.Outcome State Fault Refusal := .next (droopRequestEnd s)

/-! ## Register writes with conditions (17 R580, R590) -/

/-- A write of HRT_EVT_THR: thresholds in range, the sag below the swell. -/
def evtThrWrite (v : Nat) (s : State) : State :=
  let swell := natBits v 31 16
  let sag := natBits v 15 0
  if swell < 44000 ∨ 60000 < swell ∨ sag < 38500 ∨ 44000 < sag ∨ swell ≤ sag then raise F.hrtEvtStat_cfg_err s
  else (s.set F.hrtEvtThr_swell_mv swell).set F.hrtEvtThr_sag_mv sag

/-- A write of CON_THERM_CTL. -/
def thermCtlWrite (v : Nat) (s : State) : State :=
  let trip := natBits v 23 16
  let dram := natBits v 15 8
  let thr := natBits v 7 0
  if trip < 100 ∨ 115 < trip ∨ dram < 80 ∨ 95 < dram ∨ thr < 70 ∨ trip < thr + 15 then raise F.hrtEvtStat_cfg_err s
  else ((s.set F.conThermCtl_trip_c trip).set F.conThermCtl_dram_c dram).set F.conThermCtl_thr_c thr

/-- A write of CON_DROOP_CTL. -/
def droopCtlWrite (v : Nat) (s : State) : State :=
  let d := natBits v 7 0
  if d < 30 ∨ 120 < d then raise F.hrtEvtStat_cfg_err s else s.set F.conDroopCtl_droop_mv d

end Sys2Proof.Machine
end

