-- ==== Sys2Proof/Machine/Upkeep.lean ====
section
/-! DEFINITION. What keeps the memories: the fills, refresh, calibration, row repair, failed ports, and scrubbing
(09 R334-R356, 14 R474-R480). -/

namespace Sys2Proof.Machine

/-- The upkeep state changed. -/
def State.updUpkeep (s : State) (f : Upkeep → Upkeep) : State := { s with upkeep := f s.upkeep }

/-- State of far port p (R354). -/
def portState (s : State) (p : Nat) : Nat := s.get F.fmcStat_state p

/-! ## Fills (09 R355, 19 R634) -/

/-- The bytes and bad granules of a part of memory become zeros with valid check bits. -/
def fillWhere (f : Nat → Bool) (s : State) : State :=
  { s with mem := s.mem.filter (fun p => !f p.1), bad := s.bad.filter (fun a => !f a) }

/-- Whether an address lies in a scratchpad or a service core's SRAM. -/
def isPad (a : Nat) : Bool := match regionOf a with | .spad _ => true | _ => false

/-- ON_DIE_FILL_DONE: scratchpads, tiles and accumulators are zeros, caches invalid. -/
def onDieFill (s : State) : State :=
  if railsUp s && !s.hearth.onDieFilled then
    (fillWhere isPad { s with undef := [], zeroed := [] }).updHearth (fun h => { h with onDieFilled := true })
  else s

def execOnDieFillDone (s : State) : Host.Outcome State Fault Refusal := .next (onDieFill s)

/-- NEAR_FILL_DONE. The first lap starts; a warm reset's fill keeps the lap under way (14 R477). -/
def nearFill (s : State) : State :=
  if railsUp s && !s.hearth.nearFilled then
    homeFreed (((fillWhere (fun a => regionOf a == .near) s).updHearth (fun h => { h with nearFilled := true })).updUpkeep
      (fun u => { u with nearStart := some (u.nearStart.getD s.now) }))
  else s

def execNearFillDone (s : State) : Host.Outcome State Fault Refusal := .next (nearFill s)

/-! ## Refresh (09 R334, R346) -/

/-- NEAR_REFRESH: a bank is refreshed; its content stays, and the time it takes is in the report of the tick. -/
def execNearRefresh (_n : TileId) (_bank : Fin 16) (s : State) : Host.Outcome State Fault Refusal := .next s

/-- FAR_REFRESH: per bank, or refresh management; the content stays. -/
def execFarRefresh (_p : PortId) (_rfm : Bool) (s : State) : Host.Outcome State Fault Refusal := .next s

/-! ## Calibration (09 R347-R350) -/

/-- The calibration of a channel. -/
def calOf (s : State) (p : Nat) : Cal := mget s.upkeep.cal p {}

/-- The calibration of a channel replaced; cal_overdue shows whether a duty is late. -/
def setCal (p : Nat) (c : Cal) (s : State) : State :=
  (s.updUpkeep (fun u => { u with cal := mput u.cal p c })).set F.fmcStat_cal_overdue (if c.late || c.oscLate then 1 else 0) p

/-- CALIBRATION_DUE. -/
def calibrationDue (p : Nat) (retrain : Bool) (s : State) : State :=
  let c := calOf s p
  if portState s p ≠ 3 ∧ portState s p ≠ 5 ∨ s.upkeep.selfRefresh = true then s
  else setCal p (if retrain then { c with slices := if c.slices = 0 then 8 else c.slices } else { c with osc := true }) s

def execCalibrationDue (p : PortId) (retrain : Bool) (s : State) : Host.Outcome State Fault Refusal :=
  .next (calibrationDue p retrain s)

/-- Whether the engine of port p works on another channel (09 R347). -/
def engineElsewhere (s : State) (p : Nat) : Bool := (nats 8 (p / 8 * 8) 1).any (fun q => q != p && (calOf s q).running)

/-- OSC_TRACKING: the oscillator's count is read, and the delays adjusted when it has drifted. -/
def oscTracking (p : Nat) (drift : Bool) (s : State) : State :=
  let c := calOf s p
  if c.osc ∧ portState s p = 3 ∧ engineElsewhere s p = false ∧ s.upkeep.selfRefresh = false then
    setCal p { c with osc := false, oscLate := false, adjusted := c.adjusted + (if drift then 1 else 0) } s
  else s

def execOscTracking (p : PortId) (drift : Bool) (s : State) : Host.Outcome State Fault Refusal :=
  .next (oscTracking p drift s)

/-- Whether port p's overdue retrain is to have a slice in this frame (R349). -/
def sliceOwed (s : State) (p : Nat) : Bool :=
  (calOf s p).late && portState s p == 3 && !s.upkeep.selfRefresh && (calOf s p).lastFrame != some s.frame

/-- A slice may start: the port is ready, its channel not in self refresh (17 R571), and it waits for no repair, its engine works on no channel, and no lower overdue
channel of the engine is owed its slice of this frame; an overdue channel gets one a frame. -/
def sliceMayStart (s : State) (p : Nat) : Bool :=
  portState s p == 3 && !s.upkeep.selfRefresh && decide (0 < (calOf s p).slices) && decide (p ∉ s.upkeep.granted) &&
  (nats 8 (p / 8 * 8) 1).all (fun q => !(calOf s q).running) && (!(calOf s p).late || sliceOwed s p) &&
  (nats 8 (p / 8 * 8) 1).all (fun q => !(sliceOwed s q && (decide (q < p) || !(calOf s p).late)))

/-- RETRAIN_SLICE. -/
def retrainSlice (p : Nat) (s : State) : State :=
  if sliceMayStart s p then setCal p { calOf s p with running := true, lastFrame := some s.frame } s else s

def execRetrainSlice (p : PortId) (s : State) : Host.Outcome State Fault Refusal := .next (retrainSlice p s)

/-- Engine k starts the slice of its lowest overdue channel that is owed one (R349). -/
def overdueSlice (k : Nat) (s : State) : State :=
  match (nats 8 (8 * k) 1).find? (sliceOwed s) with | some p => retrainSlice p s | none => s

/-- The bank of a granted repair is held from now; the port leaves KLN_REPAIR.pend (02 R107, R351). -/
def startRepair (p : Nat) (s : State) : State :=
  let s := s.set F.klnRepair_pend (natSetBits (s.get F.klnRepair_pend) p p 0)
  let s := s.updUpkeep (fun u => { u with holds := u.holds ++ [p], granted := u.granted.filter (· != p) })
  if portState s p = 3 then s.set F.fmcStat_state 5 p else s

/-- RETRAIN_SLICE_END: a slice that a refresh cut short leaves its work to a further one. A granted repair of the port
starts, and the engine goes on to the next overdue channel. -/
def retrainSliceEnd (p : Nat) (cut : Bool) (s : State) : State :=
  let c := calOf s p
  if !c.running then s
  else
    let n := if cut then c.slices else c.slices - 1
    let s := if c.late then s.bump F.fmcCalStat_overdue_slices p else s
    let s := if n = 0 then s.bumpWrap F.fmcCalStat_retrains p else s
    let s := setCal p { c with running := false, slices := n, late := c.late && decide (0 < n) } s
    homeFreed (overdueSlice (p / 8) (if p ∈ s.upkeep.granted then startRepair p s else s))

def execRetrainSliceEnd (p : PortId) (cut : Bool) (s : State) : Host.Outcome State Fault Refusal :=
  .next (retrainSliceEnd p cut s)

/-- CAL_DEADLINE_EXPIRY. A retrain's overdue slices start at the next tick. -/
def calDeadline (p : Nat) (retrain : Bool) (s : State) : State :=
  let c := calOf s p
  if retrain then (if 0 < c.slices then setCal p { c with late := true, lastFrame := some s.frame } s else s)
  else if c.osc then setCal p { c with oscLate := true } s else s

def execCalDeadlineExpiry (p : PortId) (retrain : Bool) (s : State) : Host.Outcome State Fault Refusal :=
  .next (calDeadline p retrain s)

/-- At a tick each engine starts a slice on its lowest overdue channel; the others follow as slices end (R349). -/
def overdueSlices (s : State) : State := (nats 4 0 1).foldl (fun s k => overdueSlice k s) s

/-- A write of FMC_CAL_CTL. -/
def calCtlWrite (p v : Nat) (s : State) : State :=
  let ms := natBits v 31 16
  let us := natBits v 15 0
  if ms < 10 ∨ 1000 < ms ∨ us < 100 ∨ 10000 < us then s.set F.fmcGlbStat_cfg_err 1
  else (s.set F.fmcCalCtl_retrain_ms ms p).set F.fmcCalCtl_osc_us us p

/-! ## Near row repair (09 R335-R337) -/

/-- The record of a repair that ended (18 R613; log entry 42 for its severity). -/
def repairRecord (unit bank row : Nat) (done : Bool) (s : State) : State :=
  record 0 (unit + bank) (if done then 0x60 else 0x61) (leBytes 4 row) s

/-- The fields of a repair register that hardware leaves to software. -/
def repairFields (hard sub bank row : Fld) (i v : Nat) (s : State) : State :=
  (((s.set hard (fieldOfWord hard v) i).set sub (fieldOfWord sub v) i).set bank (fieldOfWord bank v) i).set row
    (fieldOfWord row v) i

/-- The field fuses of slice n's DRAM die that repairs under way on its other slices are to burn. -/
def fusesAsked (s : State) (n : Nat) : Nat :=
  ((nats 1152 0 1).filter (fun m => m != n && dramDie m == dramDie n && s.flag F.nmcRepair_go m && s.flag F.nmcRepair_hard m)).length

/-- A write of NMC_REPAIR[n]. `go` reads 1 while the controller is busy, whatever a refused write has made of status. -/
def nmcRepairWrite (n v : Nat) (s : State) : State :=
  let busy := s.flag F.nmcRepair_go n
  if natBit v 24 ∨ 1023 < natBits v 17 0 ∨ (busy ∧ natBit v 63) then s.set F.nmcRepair_status 4 n
  else if busy then s
  else if !natBit v 63 then repairFields F.nmcRepair_hard F.nmcRepair_sub F.nmcRepair_bank F.nmcRepair_row n v s
  else
    let s := repairFields F.nmcRepair_hard F.nmcRepair_sub F.nmcRepair_bank F.nmcRepair_row n v s
    let bank := natBits v 23 20
    if 8 ≤ mget s.upkeep.spares (16 * n + bank) 0 ∨ (natBit v 25 ∧ 512 ≤ mget s.upkeep.fuses (dramDie n) 0 + fusesAsked s n) then
      repairRecord (unitId 2 (coreXY n) 0) bank (natBits v 17 0) false (s.set F.nmcRepair_status 3 n)
    else (s.set F.nmcRepair_status 1 n).set F.nmcRepair_go 1 n

def execNmcRepairGo (n : TileId) (v : Word64) (s : State) : Host.Outcome State Fault Refusal :=
  .next (nmcRepairWrite n (natSetBits v.toNat 63 63 1) s)

/-- NEAR_ROW_REPAIR: the controller holds the bank. -/
def nearRowRepair (n : Nat) (s : State) : State :=
  if s.flag F.nmcRepair_go n then s.set F.nmcStat_repairing 1 n else s

def execNearRowRepair (n : TileId) (s : State) : Host.Outcome State Fault Refusal := .next (nearRowRepair n s)

/-- NEAR_REPAIR_DONE: the row is served from its spare, with its content and what was uncorrectable. -/
def nearRepairDone (n : Nat) (s : State) : State :=
  if !s.flag F.nmcStat_repairing n then s
  else
    let bank := s.get F.nmcRepair_bank n
    let k := 16 * n + bank
    let hard := s.flag F.nmcRepair_hard n
    let s := s.updUpkeep (fun u => { u with
      spares := mput u.spares k (mget u.spares k 0 + 1)
      burnt := if hard then mput u.burnt k (mget u.burnt k 0 + 1) else u.burnt
      fuses := if hard then mput u.fuses (dramDie n) (mget u.fuses (dramDie n) 0 + 1) else u.fuses })
    let s := hwClear F.nmcRepair_go n 1 ((s.set F.nmcStat_repairing 0 n).set F.nmcRepair_status 2 n)
    let s := if s.flag F.nmcRepair_go n then s.set F.nmcRepair_status 1 n else s
    let used := ((s.upkeep.spares.filter (fun p => p.1 / 16 == n)).map (·.2)).sum
    let s := if hard then
        ((nats 1152 0 1).filter (fun m => m != n && dramDie m == dramDie n)).foldl (fun s m => showFuses m s) s
      else s
    repairRecord (unitId 2 (coreXY n) 0) bank (s.get F.nmcRepair_row n) true (homeFreed (showSpares n used s))

def execNearRepairDone (n : TileId) (s : State) : Host.Outcome State Fault Refusal := .next (nearRepairDone n s)

/-! ## Far row repair (09 R351, 02 R107) -/

/-- A write of FMC_REPAIR[p]. -/
def fmcRepairWrite (p v : Nat) (s : State) : State :=
  let busy := s.flag F.fmcRepair_go p
  if 196607 < natBits v 17 0 ∨ (busy ∧ natBit v 63) then s.set F.fmcRepair_status 4 p
  else if busy then s
  else if !natBit v 63 then repairFields F.fmcRepair_hard F.fmcRepair_sub F.fmcRepair_bank F.fmcRepair_row p v s
  else
    let s := repairFields F.fmcRepair_hard F.fmcRepair_sub F.fmcRepair_bank F.fmcRepair_row p v s
    let s := (s.set F.fmcRepair_status 1 p).set F.fmcRepair_go 1 p
    raise F.klnEvtStat_repair (s.set F.klnRepair_pend (s.get F.klnRepair_pend ||| 2 ^ p))

def execFmcRepairGo (p : PortId) (v : Word64) (s : State) : Host.Outcome State Fault Refusal :=
  .next (fmcRepairWrite p (natSetBits v.toNat 63 63 1) s)

/-- At a tick a grant lets every pending repair start, and is cleared. A slice that runs goes to its end first
(09 R348, R350). -/
def grantRepairs (s : State) : State :=
  if !s.flag F.klnRepair_grant || s.upkeep.selfRefresh then s
  else
    ((nats 32 0 1).filter (natBit (s.get F.klnRepair_pend))).foldl (fun s p =>
      if (calOf s p).running then s.updUpkeep (fun u => { u with granted := u.granted.filter (· != p) ++ [p] })
      else startRepair p s) (hwClear F.klnRepair_grant 0 1 s)

/-- FAR_REPAIR_DONE: whether the device had a repair resource left. -/
def farRepairDone (p : Nat) (resource : Bool) (s : State) : State :=
  if p ∉ s.upkeep.holds then s
  else
    let v := (s.reg .fmcRepair p).toNat
    let hard := resource && natBit v 25
    let s := s.updUpkeep (fun u => { u with
      holds := u.holds.filter (· != p), hard := if hard then u.hard ++ [(p, v % 2 ^ 25)] else u.hard })
    let s := if portState s p = 5 then s.set F.fmcStat_state 3 p else s
    let s := hwClear F.fmcRepair_go p 1 (s.set F.fmcRepair_status (if resource then 2 else 3) p)
    let s := if s.flag F.fmcRepair_go p then
        raise F.klnEvtStat_repair ((s.set F.fmcRepair_status 1 p).set F.klnRepair_pend (s.get F.klnRepair_pend ||| 2 ^ p))
      else s
    repairRecord (unitId 3 (portXY p) (if natBit v 24 then 0x2000 else 0x1000)) (natBits v 23 20) (natBits v 17 0) resource (homeFreed s)

def execFarRepairDone (p : PortId) (resource : Bool) (s : State) : Host.Outcome State Fault Refusal :=
  .next (farRepairDone p resource s)

/-! ## Starting far memory, and failed ports (09 R339, R342, R352, R355, R356) -/

/-- A write of FMC_MAP; with start it locks the register, and every port trains. -/
def fmcMapWrite (v : Nat) (s : State) : State :=
  if s.flag F.fmcMap_lock ∨ natBits v 9 8 = 3 ∨ 45 < natBits v 5 0 then s.set F.fmcGlbStat_cfg_err 1
  else
    let s := (s.set F.fmcMap_rate (natBits v 9 8)).set F.fmcMap_local_gib (natBits v 5 0)
    if natBit v 30 then
      let s := ((s.set F.fmcMap_start 1).set F.fmcMap_lock 1).set F.fmcGlbStat_fill 1
      let s := if s.get F.secBootStat_state = 2 then bootGoto 3 s else s
      (nats 32 0 1).foldl (fun s p => s.set F.fmcStat_state 1 p) s
    else s

def execFmcMapStart (v : Word32) (s : State) : Host.Outcome State Fault Refusal :=
  .next (fmcMapWrite (natSetBits v.toNat 30 30 1) s)

/-- The fill's progress; it has ended when every port is ready or failed. A failed port counts as progress (DESIGN CHOICE,
log entry 38). -/
def fillProgress (s : State) : State :=
  let done := ((nats 32 0 1).filter (fun p => decide (3 ≤ portState s p))).length
  let s := s.set F.fmcGlbStat_fill_pct (done * 100 / 32)
  if done = 32 ∧ s.get F.fmcGlbStat_fill = 1 then
    s.set F.fmcGlbStat_fill (if s.get F.fmcFailed_ports = 0 then 2 else 3)
  else s

/-- A port fails: its state, its bit, a fatal record, the halt of reason 3. Its repair is dropped, with FMC_REPAIR left busy
(DESIGN CHOICE, log entry 38). -/
def failPort (p : Nat) (s : State) : State :=
  let s := (s.set F.fmcStat_state 4 p).set F.fmcFailed_ports (s.get F.fmcFailed_ports ||| 2 ^ p)
  let s := (setCal p {} s).updUpkeep (fun u => { u with
    holds := u.holds.filter (· != p), granted := u.granted.filter (· != p) })
  let s := s.set F.klnRepair_pend (natSetBits (s.get F.klnRepair_pend) p p 0)
  fatal 3 (unitId 3 (portXY p) 0) 0xB0 [] (fillProgress (homeFreed s))

/-- FAR_TRAINING_DONE: a trained port makes its recorded hard repairs and fills. -/
def farTrainingDone (p : Nat) (ok : Bool) (s : State) : State :=
  if portState s p ≠ 1 then s
  else if ok then
    ((s.set F.fmcStat_state 2 p).set F.fmcStat_rate (s.get F.fmcMap_rate) p).updUpkeep
      (fun u => { u with hard := u.hard.filter (fun h => h.1 != p) })
  else failPort p s

def execFarTrainingDone (p : PortId) (ok : Bool) (s : State) : Host.Outcome State Fault Refusal :=
  .next (farTrainingDone p ok s)

/-- Whether an address lies behind port p. -/
def atPort (s : State) (p a : Nat) : Bool := regionOf a == .far && (farPlace s a).1 == p

/-- FAR_FILL_DONE: the port is ready, and its Mower's first lap starts; a warm reset's fill keeps the lap under way
(14 R477). -/
def farFillDone (p : Nat) (s : State) : State :=
  if portState s p ≠ 2 then s
  else
    let s := (fillWhere (atPort s p) s).set F.fmcStat_state 3 p
    fillProgress ((homeFreed s).updUpkeep (fun u => { u with farLap := mput u.farLap p (mget u.farLap p s.now) }))

def execFarFillDone (p : PortId) (s : State) : Host.Outcome State Fault Refusal := .next (farFillDone p s)

/-- FAR_CHANNEL_FAIL: a channel that had trained stops answering. -/
def farChannelFail (p : Nat) (s : State) : State :=
  if portState s p = 2 ∨ portState s p = 3 ∨ portState s p = 5 then failPort p s else s

def execFarChannelFail (p : PortId) (s : State) : Host.Outcome State Fault Refusal := .next (farChannelFail p s)

/-! ## Scrubbing (14 R474-R480) -/

/-- What a scrub finds in one line or granule. -/
def scrubOne (g req : Nat) (e : Ecc) (s : State) : State :=
  if g ∈ s.bad then eccRecord 2 3 g req s
  else match e.first with
    | .corrected => eccRecord 1 2 g req s
    | .uncorrectable => eccRecord 2 3 g req { s with bad := s.bad ++ [g] }
    | _ => s

/-- What the finds say of item i. -/
def findOf {n : Nat} (l : List (Fin n × Ecc)) (i : Nat) : Ecc :=
  match l.find? (fun p => p.1.val == i) with | some p => p.2 | none => .clean

/-- Groups of a far lap. -/
def farGroups : Nat := 50331648

/-- Rows of a near lap. -/
def nearRows : Nat := 16384

/-- Whether a swath scan holds a port's Mower. -/
def swathHolds (s : State) (p : Nat) : Bool := match s.swath with | some w => decide (p ∈ w.scanning) | none => false

/-- FMC_SCRUB_STAT.mode. -/
def farMode (s : State) (p : Nat) : Nat :=
  if portState s p = 4 then 3 else if swathHolds s p then 2
  else if s.flag F.fmcScrubCtl_en p && decide (portState s p = 3 ∨ portState s p = 5) && !s.upkeep.selfRefresh then 1 else 0

/-- NMC_SCRUB_STAT.mode. -/
def nearMode (s : State) (n : Nat) : Nat := if s.flag F.nmcScrubCtl_en n && s.hearth.nearFilled then 1 else 0

/-- Whether `pos` of `total` is behind a lap of `target` minutes after `ns`. -/
def behind (pos total ns target : Nat) : Bool := decide (pos * (target * 60000000000) < total * ns)

/-- FMC_SCRUB_STAT.behind (14 R475, R479): the condition as it stands, from the port's first lap on. -/
def farBehind (s : State) (p : Nat) : Bool :=
  match s.upkeep.farLap.find? (fun x => x.1 == p) with
  | some x => portState s p != 4 && behind (s.get F.fmcScrubStat_pos p) farGroups (s.now - x.2) (s.get F.fmcScrubCtl_target_min p)
  | none => false

/-- NMC_SCRUB_STAT.behind (14 R478, R480). -/
def nearBehind (s : State) (n : Nat) : Bool :=
  match s.upkeep.nearStart with
  | some t => behind (s.get F.nmcScrubStat_pos n) nearRows (s.now - mget s.upkeep.nearLap n t) (s.get F.nmcScrubCtl_target_min n)
  | none => false

/-- Whether the next group of a port lies in the bank under a repair hold (R477). -/
def groupHeld (s : State) (p : Nat) : Bool :=
  let pos := s.get F.fmcScrubStat_pos p
  decide (p ∈ s.upkeep.holds) && s.get F.fmcRepair_sub p == pos % 2 && s.get F.fmcRepair_bank p == pos / 2 % 16

/-- FAR_SCRUB_GROUP: the 15 data lines of the next group. -/
def farScrub (p : Nat) (finds : List (Fin 15 × Ecc)) (s : State) : State :=
  if farMode s p ≠ 1 ∨ groupHeld s p = true then s
  else
    let pos := s.get F.fmcScrubStat_pos p
    let unit := unitId 3 (portXY p) 0
    let s := (nats 15 0 1).foldl (fun s k => scrubOne (portAddr s p (64 * (15 * pos + k))) unit (findOf finds k) s) s
    let t0 := mget s.upkeep.farLap p 0
    if pos + 1 = farGroups then
      let s := ((s.set F.fmcScrubStat_pos 0 p).bumpWrap F.fmcScrubLap_laps p).set F.fmcScrubTime_last_ms
        (min F.fmcScrubTime_last_ms.max ((s.now - t0) / 1000000)) p
      s.updUpkeep (fun u => { u with farLap := mput u.farLap p s.now })
    else s.set F.fmcScrubStat_pos (pos + 1) p

def execFarScrubGroup (p : PortId) (finds : List (Fin 15 × Ecc)) (s : State) : Host.Outcome State Fault Refusal :=
  .next (farScrub p finds s)

/-- NEAR_SCRUB_ROW: the 64 granules of the next row. -/
def nearScrub (n : Nat) (finds : List (Fin 64 × Ecc)) (s : State) : State :=
  let pos := s.get F.nmcScrubStat_pos n
  let held := s.flag F.nmcStat_repairing n && s.get F.nmcRepair_bank n == pos % 16
  if nearMode s n ≠ 1 ∨ held = true then s
  else
    let base := 0x0200_0000_0000 + n * 0x200_0000 + pos / 16 * 32768 + pos % 16 * 2048
    let unit := unitId 2 (coreXY n) (pos % 16)
    let s := (nats 64 0 1).foldl (fun s k => scrubOne (base + 32 * k) unit (findOf finds k) s) s
    let t0 := mget s.upkeep.nearLap n (s.upkeep.nearStart.getD 0)
    if pos + 1 = nearRows then
      let s := ((s.set F.nmcScrubStat_pos 0 n).bumpWrap F.nmcScrubLap_laps n).set F.nmcScrubTime_last_ms
        (min F.nmcScrubTime_last_ms.max ((s.now - t0) / 1000000)) n
      s.updUpkeep (fun u => { u with nearLap := mput u.nearLap n s.now })
    else s.set F.nmcScrubStat_pos (pos + 1) n

def execNearScrubRow (n : TileId) (finds : List (Fin 64 × Ecc)) (s : State) : Host.Outcome State Fault Refusal :=
  .next (nearScrub n finds s)

/-- FMC_GLB_SCRUB.worst_ms. -/
def farWorst (s : State) : Nat :=
  ((nats 32 0 1).filter (fun p => decide (portState s p ≠ 4 ∧ s.get F.fmcScrubLap_laps p ≠ 0))).foldl
    (fun a p => max a (s.get F.fmcScrubTime_last_ms p)) 0

/-- NMC_GLB_SCRUB.worst_ms. -/
def nearWorst (s : State) : Nat :=
  s.regs.foldl (fun a p => if p.1.1 = .nmcScrubTime then max a (natBits p.2.toNat 31 0) else a) 0

/-- A write of FMC_SCRUB_CTL[p]. -/
def farScrubCtlWrite (p v : Nat) (s : State) : State :=
  if natBits v 15 0 = 0 then s.set F.fmcGlbStat_cfg_err 1
  else (s.set F.fmcScrubCtl_en (natBits v 31 31) p).set F.fmcScrubCtl_target_min (natBits v 15 0) p

/-- A write of NMC_SCRUB_CTL[n]. -/
def nearScrubCtlWrite (n v : Nat) (s : State) : State :=
  if natBits v 15 0 = 0 then s
  else (s.set F.nmcScrubCtl_en (natBits v 31 31) n).set F.nmcScrubCtl_target_min (natBits v 15 0) n

end Sys2Proof.Machine
end

