-- ==== Sys2Proof/Machine/Sieve.lean ====
section
/-! DEFINITION. Swath mode: the SWATH command, the scan of each Mower, the merge and the result buffer
(14 R481-R494). -/

namespace Sys2Proof.Machine

/-! ## The SWATH command (14 R482, R483) -/

/-- The device address a reference names, and what its handle allows from there: the entry and the bytes left. -/
def refPlace (s : State) (ctx ref : Nat) : Option ((Word64 × Word64) × Nat × Nat) :=
  (tableEntry s ctx (ref / 2 ^ 48)).map (fun e =>
    (e, entryBase e + ref % 2 ^ 48, entryLen e - ref % 2 ^ 48))

/-- The class of a handle entry. -/
def entryClass (e : Word64 × Word64) : Nat := fieldOfWord F.klnHtabW0_class e.1.toNat
/-- Read permission. -/
def entryR (e : Word64 × Word64) : Bool := natBit e.1.toNat 55
/-- Write permission. -/
def entryW (e : Word64 × Word64) : Bool := natBit e.1.toNat 56

/-- The checks of status 0x03. -/
def swathOk (b : List Byte) : Bool :=
  let nq := leAt b 32 1
  let k := leAt b 33 1
  let n := leAt b 16 8
  decide (leAt b 1 1 < 2) && zeroBytes b 2 8 && zeroBytes b 34 40 && zeroBytes b 56 64 &&
  decide (1 ≤ nq ∧ nq ≤ 16 ∧ 1 ≤ k ∧ k ≤ 64 ∧ 1 ≤ n ∧ n < 2 ^ 48 ∧ leAt b 48 8 < 2 ^ 48 ∧ leAt b 48 8 + n ≤ 2 ^ 48)

/-- The checks of status 0x05: the device addresses of the region, the queries and the result. -/
def swathPlaces (s : State) (ctx : Nat) (b : List Byte) : Option (Nat × Nat × Nat) :=
  let w8 := if natBit (leAt b 1 1) 0 then 64 else 32
  let nq := leAt b 32 1
  match refPlace s ctx (leAt b 8 8), refPlace s ctx (leAt b 24 8), refPlace s ctx (leAt b 40 8) with
  | some (e, a, room), some (eq, aq, roomq), some (er, ar, roomr) =>
    if entryClass e = 2 ∧ entryR e = true ∧ leAt b 16 8 * w8 ≤ room ∧ a % w8 = 0 ∧
       entryClass eq ≠ 0 ∧ entryR eq = true ∧ nq * w8 ≤ roomq ∧
       entryClass er ≠ 0 ∧ entryW er = true ∧ ar % 64 = 0 ∧ 64 + 8 * nq * leAt b 33 1 ≤ roomr then some (a, aq, ar)
    else none
  | _, _, _ => none

/-- Consecutive chunksOf of n bytes. -/
def chunksOf (n : Nat) : Nat → List Byte → List (List Byte)
  | 0, _ => []
  | k + 1, l => l.take n :: chunksOf n k (l.drop n)

/-- SWATH starts: its number is taken, its queries are read, and every Mower pauses its scrub to scan. -/
def swathStart (q : Nat) (h : HostView) (l : CmdList) (b : List Byte) (s : State) : State :=
  if !swathOk b then commandEnd q l.start 3 s
  else
    match swathPlaces s (ctxOf q) b with
    | none => commandEnd q l.start 5 s
    | some (a, aq, ar) =>
      let u := s.queue q
      let seq := u.swathSeq + 1
      let s := s.setQueue q { u with swathSeq := seq }
      let w8 := if natBit (leAt b 1 1) 0 then 64 else 32
      let nq := leAt b 32 1
      match engineRead ⟨engineUnit 9, ctxOf q⟩ aq (nq * w8) h s with
      | (s, none) => commandEnd q l.start 6 s
      | (s, some qs) =>
        { s with swath := some {
            queue := q
            start := l.start
            seq := seq
            tag := l.tag
            width := 8 * w8
            region := a
            count := leAt b 16 8
            idBase := leAt b 48 8
            k := leAt b 33 1
            result := ar
            queries := chunksOf w8 nq qs
            scanning := nats 32 0 1
            best := List.replicate nq [] } }

/-- SWATH. -/
def swath (q : Nat) (h : HostView) (s : State) : State :=
  beginCmd q h (fun op => op == 0x30 && engineOf q == 9) (fun h l b s => swathStart q h l b s) s (fun s b =>
    if swathOk b then (swathPlaces s (ctxOf q) b).map (fun p => (p.2.1, leAt b 32 1 * (if natBit (leAt b 1 1) 0 then 64 else 32)))
    else none)

def execSwath (q : QueueId) (hv : HostView) (s : State) : Host.Outcome State Fault Refusal := .next (swath q hv s)

/-! ## A Mower's scan (14 R485, R488, R492) -/

/-- Set bits of a byte. -/
def byteBits (b : Byte) : Nat := ((nats 8 0 1).filter (fun i => natBit b.toNat i)).length

/-- The Hamming distance of two sketches (R481). -/
def hamming (a b : List Byte) : Nat := ((a.zip b).map (fun p => byteBits (p.1 ^^^ p.2))).sum

/-- A key (distance, identifier) enters a list of at most k, in order. -/
def keepKey (k : Nat) (x : Nat × Nat) (l : List (Nat × Nat)) : List (Nat × Nat) :=
  let lo := l.takeWhile (fun y => decide (y.1 < x.1 ∨ (y.1 = x.1 ∧ y.2 < x.2)))
  (lo ++ x :: l.drop lo.length).take k

/-- A sketch is compared with every query. -/
def compare (w : Swath) (id : Nat) (sk : List Byte) (best : List (List (Nat × Nat))) : List (List (Nat × Nat)) :=
  (w.queries.zip best).map (fun (p : List Byte × List (Nat × Nat)) => keepKey w.k (hamming sk p.1, id) p.2)

/-- The numbers of the sketches of a region that lie behind port p. -/
def shareOf (s : State) (w : Swath) (p : Nat) : List Nat :=
  (nats w.count 0 1).filter (fun i => (farPlace s (w.region + i * (w.width / 8))).1 == p)

/-- What a scan read of a line finds: `finds` by the line's number in the device. -/
def scanRead (line unit : Nat) (finds : List (Nat × Ecc)) (s : State) : State × Ecc :=
  if 64 * line ∈ s.bad then (eccRecord 2 3 (64 * line) unit s, .uncorrectable)
  else match finds.find? (fun p => p.1 == line) with
    | some (_, .corrected) => (eccRecord 1 1 (64 * line) unit s, .corrected)
    | some (_, .uncorrectable) =>
      (eccRecord 2 3 (64 * line) unit { s with bad := s.bad ++ [64 * line] }, .uncorrectable)
    | _ => (s, .clean)

/-- The share of a port, sketch by sketch: the state, the outcome of the line read last, and the result so far. -/
def scanShare (w : Swath) (unit : Nat) (finds : List (Nat × Ecc)) :
    List Nat → State → Option (Nat × Ecc) → SieveRes → State × SieveRes
  | [], s, _, r => (s, r)
  | i :: rest, s, last, r =>
    let a := w.region + i * (w.width / 8)
    let line := a / 64
    let (s, e) := match last with
      | some (x, e) => if x = line then (s, e) else scanRead line unit finds s
      | none => scanRead line unit finds s
    let r := match e with
      | .uncorrectable => { r with skipped := r.skipped + 1, lost := true }
      | _ => { r with
          scanned := r.scanned + 1, corrected := r.corrected || (match e with | .corrected => true | _ => false)
          lists := compare w (w.idBase + i) (s.bytes a (w.width / 8)) r.lists }
    scanShare w unit finds rest s (some (line, e)) r

/-- MOWER_SCAN_DONE: port p has scanned its share, and sends its lists. A failed port's share is skipped. -/
def mowerScan (p : Nat) (finds : List (Nat × Ecc)) (s : State) : State :=
  match s.swath with
  | none => s
  | some w =>
    if p ∉ w.scanning then s
    else
      let share := shareOf s w p
      let empty : SieveRes := ⟨p, List.replicate w.queries.length [], 0, 0, false, false, false⟩
      let r := if portState s p = 4 then
          (s, { empty with skipped := share.length, lost := !share.isEmpty, failedPort := !share.isEmpty })
        else scanShare w (unitId 3 (portXY p) 0) finds share s none empty
      let s := r.1.bumpWrap F.fmcSwathCnt_sketches p r.2.scanned
      let s := meter (portXY p) (23, 12) 3 (flits (8 * w.queries.length * w.k) 96) s
      { s with swath := some { w with scanning := w.scanning.filter (· != p) }, sieveRes := s.sieveRes ++ [r.2] }

def execMowerScanDone (p : PortId) (finds : List (Nat × Ecc)) (s : State) : Host.Outcome State Fault Refusal :=
  .next (mowerScan p finds s)

/-! ## Merge and result (14 R488-R491) -/

/-- Two lists of keys merged to the k smallest. -/
def mergeKeys (k : Nat) (a b : List (Nat × Nat)) : List (Nat × Nat) := b.foldl (fun l x => keepKey k x l) a

/-- A result entry, or an unused one. -/
def entryBytes (x : Option (Nat × Nat)) : List Byte :=
  match x with | some (d, id) => leBytes 8 (d * 2 ^ 48 + id) | none => List.replicate 8 0xFF

/-- Bytes 0-59 of the result buffer, and the entries from byte 64. -/
def resultHead (s : State) (w : Swath) : List Byte :=
  let flags := (if w.lost then 1 else 0) + (if w.failedPort then 2 else 0) + (if w.corrected then 4 else 0)
  leBytes 8 w.seq ++ leBytes 8 w.tag ++ leBytes 6 s.frame ++ [0, BitVec.ofNat 8 flags]
    ++ leBytes 8 w.scanned ++ leBytes 8 w.skipped
    ++ (nats 16 0 1).map (fun j => BitVec.ofNat 8 (w.best.getD j []).length) ++ [0, 0, 0, 0]

/-- The entries of every query, best first. -/
def resultEntries (w : Swath) : List Byte :=
  w.best.flatMap (fun l => (nats w.k 0 1).flatMap (fun r => entryBytes l[r]?))

/-- Bytes stored in writes of at most 256 that cross no 256-byte boundary. -/
def storeChunks (agent ctx unit : Nat) : Nat → Nat → List Byte → State → State
  | 0, _, _, s => s
  | f + 1, a, bs, s =>
    if bs = [] then s else
    let n := 256 - a % 256
    storeChunks agent ctx unit f (a + n) (bs.drop n) (storeOut agent ctx unit a (bs.take n) s)

/-- A merged result: the lists, the counts and the flags. -/
def mergeRes (w : Swath) (r : SieveRes) : Swath :=
  { w with
    best := (w.best.zip r.lists).map (fun (p : List (Nat × Nat) × List (Nat × Nat)) => mergeKeys w.k p.1 p.2)
    merged := w.merged ++ [r.port], scanned := w.scanned + r.scanned, skipped := w.skipped + r.skipped
    lost := w.lost || r.lost, failedPort := w.failedPort || r.failedPort, corrected := w.corrected || r.corrected }

/-- The SWATH ends with a status, and its scan with it, by the release that closes it (12 R434). -/
def swathEnd (w : Swath) (st : Nat) (s : State) : State :=
  engineEnd w.queue w.start st (isHostAddr w.result) { s with swath := none, sieveRes := [] }

/-- The first write of a result: the entries, and bytes 0-59 (R491). -/
def firstWrite (w : Swath) (s : State) : State :=
  let agent := listAgent w.queue w.start
  let n := 8 * w.queries.length * w.k
  let s := storeChunks agent (ctxOf w.queue) (engineUnit 9) (n / 256 + 2) (w.result + 64) (resultEntries w) s
  storeOut agent (ctxOf w.queue) (engineUnit 9) w.result (resultHead s w) s

/-- SIEVE_RESULT_ARRIVAL: a list is merged. -/
def sieveArrival (p : Nat) (t : Transit) (s : State) : State :=
  match s.swath, takeFirst (fun r => r.port == p) s.sieveRes with
  | some w, some (r, rest) =>
    let (s, poison) := transit t s
    if poison then swathEnd w 6 s
    else { s with sieveRes := rest, swath := some (mergeRes w r) }
  | _, _ => s

def execSieveResultArrival (p : PortId) (t : Transit) (s : State) : Host.Outcome State Fault Refusal :=
  .next (sieveArrival p t s)

/-- Whether a result buffer can be written now: the link carries it, or its homes serve all of it. -/
def resultServes (w : Swath) (s : State) : Bool :=
  if isHostAddr w.result then linkUp s else rangeServes s w.result (64 + 8 * w.queries.length * w.k)

/-- The second write, ordered after the first has been accepted, and the end of the command (R491). -/
def secondWrite (w : Swath) (s : State) : State :=
  let host := isHostAddr w.result
  if (!host || linkUp s) && !hostQuiet s (listAgent w.queue w.start) then s
  else if (s.list w.queue w.start).any (fun l => l.refused) || (host && !linkUp s) then swathEnd w 6 s
  else swathEnd w 0 (storeOut (readyTx w).agent (ctxOf w.queue) (engineUnit 9) (readyTx w).addr (readyTx w).data s)

/-- READY_WORD_WRITE: after the last list is merged the buffer is written, in two writes. Its homes take both at once; a
host takes the second when the first is placed. A command that cannot complete writes no part (R491). -/
def readyWord (s : State) : State :=
  match s.swath with
  | none => s
  | some w =>
    if w.merged.length < 32 then s
    else if w.written then secondWrite w s
    else if resultServes w s then
      let w := { w with written := true }
      secondWrite w (firstWrite w { s with swath := some w })
    else if isHostAddr w.result then swathEnd w 6 s
    else s

def execReadyWordWrite (s : State) : Host.Outcome State Fault Refusal := .next (readyWord s)

/-! ## Parity errors of held commands (18 R594) -/

/-- Command i of a list ends it with status 0x03, at the end of what is already under way of it: a COPY stops, a SWATH and
a LAUNCH that has not started are dropped. -/
def commandLost (q : Nat) (l : CmdList) (i : Nat) (s : State) : State :=
  if l.fired.isNone then s.updList q l.start (fun l => { l with status := 3, reportOnly := true })
  else if l.busy && i + 1 == l.idx then
    match s.swath with
    | some w =>
      if w.queue = q ∧ w.start = l.start ∧ w.written = false then swathEnd w 3 s
      else s.updList q l.start (fun l => { l with status := if l.status = 0 then 3 else l.status, stop := true })
    | none =>
      if leAt l.cmd 0 1 = 0x20 then copyEnd q l 3 s
      else s.updList q l.start (fun l => { l with status := if l.status = 0 then 3 else l.status, stop := true })
  else
    let s := { s with launches := s.launches.filter (fun x => !(x.queue == q && x.start == l.start && x.idx == i && !x.started)) }
    settleList q l.start (s.updList q l.start (fun l => { l with status := if l.status = 0 then 3 else l.status, stop := true }))

/-- COMMAND_PARITY_ERROR: a held command is discarded, and fetched again from its slot, which keeps its content until the
record is written (02 R75); a second error on the slot ends the list. A command that has ended is held no longer. -/
def commandParityError (q start i : Nat) (s : State) : State :=
  match s.list q start with
  | none => s
  | some l =>
    let waits := (s.launchesOf q start).any (fun x => x.idx == i && !x.started)
    let held := decide (l.idx ≤ i ∧ i < l.count) || (l.busy && i + 1 == l.idx) || waits
    if l.ended.isSome || l.reportOnly || !held then s
    else if i ∈ l.parity then commandLost q l i s
    else s.updList q start (fun l => { l with parity := l.parity ++ [i] })

def execCommandParityError (q : HeldCommand) (s : State) : Host.Outcome State Fault Refusal :=
  .next (commandParityError q.queue q.start.toNat q.idx.toNat s)

end Sys2Proof.Machine
end

