-- ==== Sys2Proof/Machine/Tick.lean ====
section
/-! DEFINITION. The tick: its sources and acquisition, firing, deadlines and overruns, and the work of every tick
(02 R57-R68, R95-R107, 12 R454, 15 R519, 16 R529, R534, R537, R546, R547, 18 R601, R620, 20 R659, R660). -/

namespace Sys2Proof.Machine

/-- The Kiln changed. -/
def State.updKiln (s : State) (f : Kiln → Kiln) : State := { s with kiln := f s.kiln }

/-! ## The frame that starts (02 R59, R65, R68, R104, R105) -/

/-- Usable time of a frame of period p µs under a cap. -/
def usableNs (p cap : Nat) : Nat := p * 1000 - min cap (p * 250) - 2000

/-- The count, the time, the period and the cap of the frame that starts, and its sync pulse (R64). -/
def newFrame (adopted : Option Nat) (s : State) : State :=
  let p := s.get F.klnFrameCtl_period_us
  let cap := s.get F.klnStolenCap_cap_ns
  let s := match adopted with | some f => s.set F.klnFrameNum_count f | none => s.bumpWrap F.klnFrameNum_count
  let s := (s.set F.klnTickTime_time_ns s.now).set F.klnUsable_usable_ns (usableNs p cap)
  let pulse := s.flag F.klnFrameCtl_sync_out && s.get F.klnFrameCtl_src != 2
  s.updKiln (fun k => { k with
    period := p, cap := min cap (p * 250), tickClk := s.clk, pulses := if pulse then k.pulses + 1 else k.pulses })

/-- Whether a list ran in the frame that ends, and its record is still to be written. -/
def ranInFrame (f : Nat) (l : CmdList) : Bool :=
  l.fired.isSome && !l.recording && !l.out && (l.ended.isNone || l.ended == some f)

/-- The units' stolen time of the frame that ends (R89, R106, 18 R620), before the frame number changes. -/
def takeReport (r : TickReport) (s : State) : State :=
  let s := (s.set F.klnStolenLast_class r.cls.toNat).set F.klnStolenLast_ns r.ns.toNat
  r.lists.foldl (fun s x => s.updList x.queue x.start.toNat (fun l =>
    if ranInFrame s.frame l then { l with stolen := max l.stolen x.ns.toNat, capped := l.capped || x.cap } else l)) s

/-- The effective throttle of the frame that starts (R103, 17 R569). -/
def throttleStep (s : State) : State :=
  let s := s.set F.klnThrottle_hearth (if s.flag F.hrtStat_req38 then 1 else 0)
  let d := max (s.get F.klnThrottle_host) (max (s.get F.klnThrottle_hearth) (s.get F.klnThrottle_cone))
  if d = s.get F.klnThrottle_eff then s else raise F.klnEvtStat_throttle (s.set F.klnThrottle_eff d)

/-- Whether this tick fires lists (R103). -/
def firingTick (s : State) : Bool := s.frame % 2 ^ s.get F.klnThrottle_eff == 0

/-! ## Overrun (02 R99-R102, 12 R454, 14 R494) -/

/-- The notice to every core of the list's running kernels (04 R185). -/
def overrunNotice (q start : Nat) (s : State) : State :=
  ((s.launchesOf q start).filter (·.started)).foldl (fun s l =>
    l.left.foldl (fun s c => meter (23, 11) (coreXY c) 2 1 (s.updSc c (fun k => { k with ip := k.ip ||| 0x10 }))) s) s

/-- Launches of a list that have not started are cancelled (R101, R102); one that runs goes on to its end. -/
def dropWaiting (q start : Nat) (s : State) : State :=
  let mine := fun l : Launch => l.queue == q && l.start == start && !l.started
  if s.launches.any mine then
    { s with launches := s.launches.filter (fun l => !mine l) }.updList q start (fun l => { l with cut := true })
  else s

/-- A WAIT in progress is a command boundary: its waiter is withdrawn unless a grant is on its way (12 R454). -/
def dropWait (q start : Nat) (s : State) : State :=
  let granted := s.syncAns.any (fun r => r.agent == 1156 + q && !r.err && (match r.kind with | .wait _ false => true | _ => false))
  if (s.list q start).any (fun l => l.holds) && !granted then
    (withdraw (1156 + q) .returned s).updList q start (fun l => { l with busy := false, holds := false, cut := true })
  else s

/-- The abort policy reaches a list that runs: no further command starts, and what is at a boundary ends now. -/
def abortList (q start : Nat) (s : State) : State :=
  let s := s.updList q start (fun l => { l with aborting := true, stop := true })
  let s := dropWait q start (dropWaiting q start s)
  let s := match s.swath with
    | some w => if w.queue = q ∧ w.start = start ∧ w.written = false then swathEnd w 1 s else s
    | none => s
  settleList q start s

/-- A list overruns at its deadline tick. -/
def overrun (q : Nat) (l : CmdList) (s : State) : State :=
  let s := raise F.klnEvtStat_overrun (s.set F.klnQstat_overrun 1 q)
  let s := s.bump F.klnOverrunCnt_count
  let s := { s with mgt := { s.mgt with overruns := s.mgt.overruns + 1 } }
  let s := s.updList q l.start (fun l => { l with ranPast := true })
  if !l.live then s
  else
    let s := if engineOf q = 0 then overrunNotice q l.start s else s
    if s.flag F.klnQctl_policy q then abortList q l.start s else s

/-- Whether a fired list's time still counts: it runs, or its record waits for room (R92). -/
def counts (s : State) (q : Nat) (l : CmdList) : Bool :=
  l.fired.isSome && !l.recording && !l.out && (l.live || waitsRoom s q l)

/-- A firing tick brings a list one nearer to its deadline. -/
def deadlineStep (q : Nat) (s : State) (l : CmdList) : State :=
  if l.left = 0 || !counts s q l then s
  else
    let s := s.updList q l.start (fun l => { l with left := l.left - 1 })
    if l.left = 1 then overrun q l s else s

/-- The deadlines of every queue. -/
def deadlines (s : State) : State :=
  s.queues.foldl (fun s p => p.2.lists.foldl (fun s l => deadlineStep p.1 s l) s) s

/-! ## Firing (02 R95, R98, 16 R537) -/

/-- Whether R537 holds back what is due. -/
def mirrorHolds (s : State) : Bool :=
  if epochsRun s then
    let back := if s.flag F.hrtStat_req38 then 1 else 2
    decide (s.mirror.first + back ≤ s.frame) && !epochAcked s (s.frame - back)
  else false

/-- A list that is not run is reported: at once, or behind the records of earlier lists that are still to be written
(R95). -/
def reportList (q : Nat) (l : CmdList) (s : State) : State :=
  let s := s.updList q l.start (fun l => { l with ended := some s.frame })
  if (recordDue s q).any (fun x => x.start == l.start) then writeRecord q l.start .clean [] s else s

/-- A list fires; one whose ring its context does not own ends unexecuted (R88). -/
def fireList (q : Nat) (l : CmdList) (s : State) : State :=
  if decide (l.cring < 64) && ringOwned s l.cring (ctxOf q) then
    s.updList q l.start (fun l => { l with fired := some s.frame, left := l.budget })
  else reportList q l (s.updList q l.start (fun l => { l with status := 3 }))

/-- A list that R537 holds back carries the started-late flag. -/
def holdList (q : Nat) (l : CmdList) (s : State) : State :=
  s.updList q l.start (fun l => { l with late := true })

/-- A list waits for room in its ring (R92). -/
def stallList (q : Nat) (l : CmdList) (s : State) : State := s.updList q l.start (fun l => { l with stalled := true })

/-- A queue's lists at a firing tick, oldest first: reports in order, then at most one list fires; the list behind a
reported one may fire at this tick, the one behind a list that ends unexecuted may not (log entry 28). Behind a list that
is being aborted (`stopping`) a list may fire (R101), but none is reported before that one has ended (R81, R95). Answers
whether a list was held back. -/
def fireQueue (hold : Bool) (q : Nat) (stopping : Bool) : List CmdList → State → State × Bool
  | [], s => (s, false)
  | l :: t, s =>
    if l.ended.isSome then
      if !l.recording && !l.out && !l.aborting && waitsRoom s q l then (s, false) else fireQueue hold q stopping t s
    else if l.fired.isSome then
      if l.aborting then fireQueue hold q true t s else (s, false)
    else if l.reportOnly then
      if stopping then (s, false)
      else if waitsRoom s q l then (stallList q l s, false)
      else fireQueue hold q stopping t (reportList q l s)
    else if !eligible s q l || !(l.next || decide (l.target ≤ s.frame)) then (s, false)
    else if waitsRoom s q l then (stallList q l s, false)
    else if hold then (holdList q l s, true)
    else (fireList q l s, false)

/-- Every enabled queue fires. -/
def fireAll (s : State) : State :=
  if !mayFire s then s
  else
    let hold := mirrorHolds s
    let r := s.queues.foldl (fun (r : State × Bool) p =>
      if r.1.flag F.klnQctl_en p.1 then
        let x := fireQueue hold p.1 false (r.1.queue p.1).lists r.1
        (x.1, r.2 || x.2)
      else r) (s, false)
    if r.2 then raise F.mirEvtStat_held (r.1.bump F.mirHeldCnt_ticks) else r.1

/-! ## Messages and snapshots of a tick (15 R519, 20 R659, R660) -/

/-- The tick is pending at every core (04 R179). -/
def tickCores (s : State) : State :=
  { s with cores := (nats 1156 0 1).map (fun c =>
      let k := s.core c
      (c, { k with sc := { k.sc with ip := k.sc.ip ||| 1 } })) }

/-- FSYNC to the companion; it takes the place of one that waits. -/
def fsyncSend (s : State) : State :=
  if s.flag F.vclFsyncCtl_en && s.frame % 2 ^ s.get F.vclFsyncCtl_div == 0 then
    let s := (nats 3 0 1).foldl (fun s b =>
      let u := s.bundle .vcl b
      if u.waiting.any (fun t => t.kind == .fsync) then
        s.setBundle .vcl b { u with waiting := u.waiting.filter (fun t => t.kind != .fsync) } else s) s
    match lowBundle s .vcl with
    | some b => sendOn .vcl b { kind := .fsync, addr := s.get F.vclFsyncAddr_addr * 16, data := fsyncData s, slots := 2 } s
    | none => s
  else s

/-- Retired cores. -/
def retiredCount (s : State) : Nat := ((nats 1152 0 1).filter (coreRetired s)).length

/-- The bytes of snapshot h but the last. -/
def snapBytes (s : State) (h : Nat) : List Byte :=
  leBytes 8 h ++ leBytes 6 s.frame ++ [0, 0] ++ leBytes 8 (s.get F.klnTickTime_time_ns)
    ++ leBytes 4 (s.reg .hrtVin 0).toNat ++ leBytes 4 (s.reg .hrtFrame 0).toNat ++ leBytes 8 (s.reg .hrtEnergy 0).toNat
    ++ leBytes 2 (hottestReg s F.conTherm_temp 96).toNat ++ leBytes 2 (hottestReg s F.conDram_temp 40).toNat
    ++ [BitVec.ofNat 8 (s.get F.klnThrottle_eff), BitVec.ofNat 8 (mirState s), BitVec.ofNat 8 (s.get F.mirStat_risk), 0]
    ++ leBytes 4 (s.reg .klnStolenLast 0).toNat ++ leBytes 4 s.mgt.overruns ++ leBytes 8 (s.get F.rasSeq_last)
    ++ leBytes 4 (farWorst s) ++ leBytes 4 (s.get F.fmcFailed_ports) ++ leBytes 2 (retiredCount s)
    ++ List.replicate 53 0

/-- The telemetry snapshot of a tick. -/
def telemetry (s : State) : State :=
  if s.flag F.mgtTelCtl_en && s.frame % 2 ^ s.get F.mgtTelCtl_div == 0 then
    let n := s.mgt.snaps
    let j := s.get F.mgtTelCtl_size_log2
    if hostRoom n (s.get F.mgtTelHead_consumed) j then
      let bs := snapBytes s (n + 1)
      hostEntry 1334 (s.get F.mgtTelBase_base * 4096) j n bs { s with mgt := { s.mgt with snaps := n + 1, overruns := 0 } }
    else s.bump F.mgtTelLost_count
  else s

/-! ## The tick -/

/-- What the Kiln does at a tick, once its source has made it. -/
def tick (r : TickReport) (adopted : Option Nat) (s : State) : State :=
  let s := throttleStep (newFrame adopted (takeReport r s))
  let s := if firingTick s then fireAll (deadlines s) else s
  let s := grantRepairs (tickCores s)
  let s := resyncStep r.resync (sendMhb (epochClose s.frame r.peerLocked (sendMirFsync (fsyncSend s))))
  let s := coneLatch (s.get F.klnTickTime_time_ns) r.counts (frameEnd (frameLatch (writeWitness s)))
  overdueSlices (telemetry (shipAhead (riskUpdate s)))

/-- KILN_TICK: the internal source's tick (R60). -/
def kilnTick (r : TickReport) (s : State) : State :=
  if s.flag F.klnFrameCtl_tick_en && s.get F.klnFrameCtl_src == 0 then tick r none s else s

def execKilnTick (r : TickReport) (s : State) : Host.Outcome State Fault Refusal := .next (kilnTick r s)

/-! ## Source ticks (02 R61-R63) -/

/-- Core cycles since the last tick, or since tick_en was set. -/
def elapsed (s : State) : Nat := s.clk - s.kiln.tickClk

/-- Whether a source tick falls in the capture window, ± win × 10 ns about one period. -/
def inWindow (s : State) : Bool :=
  let p := s.kiln.period * 1700
  let w := s.get F.klnFrameCtl_win * 17
  decide (p ≤ elapsed s + w ∧ elapsed s ≤ p + w)

/-- A source tick that becomes the tick clears the run of misses. -/
def sourceTick (r : TickReport) (adopted : Option Nat) (s : State) : State :=
  tick r adopted ((s.set F.klnFrameStat_miss_run 0).updKiln (fun k => { k with acqMiss := 0, adopt := false }))

/-- A source tick arrives, with the frame number it carries. -/
def sourceEdge (r : TickReport) (carried : Option Nat) (s : State) : State :=
  if !s.flag F.klnFrameCtl_tick_en then s
  else if s.kiln.acq then
    if elapsed s < s.kiln.period * 1700 then s
    else sourceTick r (if s.kiln.adopt then carried else none) (s.updKiln (fun k => { k with acq := false, inWin := 0 }))
  else if inWindow s then
    let s := s.updKiln (fun k => { k with inWin := k.inWin + 1 })
    sourceTick r none (if 4 ≤ s.kiln.inWin then s.set F.klnFrameStat_locked 1 else s)
  else s

/-- FRAME_SYNC_EDGE. -/
def frameSyncEdge (r : TickReport) (s : State) : State :=
  if s.get F.klnFrameCtl_src = 2 then sourceEdge r none s else s

def execFrameSyncEdge (r : TickReport) (s : State) : Host.Outcome State Fault Refusal := .next (frameSyncEdge r s)

/-- FSYNC of the peer, over the mirror link. -/
def fsync (frame : Nat) (r : TickReport) (s : State) : State :=
  if s.get F.klnFrameCtl_src = 1 then sourceEdge r (some frame) s else s

def execFsync (frame : BitVec 48) (_timeNs : Word64) (r : TickReport) (s : State) : Host.Outcome State Fault Refusal :=
  .next (fsync frame.toNat r s)

/-- A miss is counted, and the run in the window ends. -/
def countMiss (s : State) : State :=
  raise F.klnEvtStat_sync_miss (((s.bump F.klnFrameStat_miss_run).bump F.klnFrameStat_miss_cnt).updKiln
    (fun k => { k with acqMiss := k.acqMiss + 1, inWin := 0 }))

/-- SYNC_WINDOW_EXPIRY; after three misses in a row the lock is lost. -/
def syncWindowExpiry (r : TickReport) (s : State) : State :=
  if !s.flag F.klnFrameCtl_tick_en || s.get F.klnFrameCtl_src == 0 || s.kiln.acq then s
  else
    let s := countMiss s
    let s := if 3 ≤ s.kiln.acqMiss then
        enterAcq true (raise F.klnEvtStat_sync_lost (s.set F.klnFrameStat_locked 0)) else s
    tick r none s

def execSyncWindowExpiry (r : TickReport) (s : State) : Host.Outcome State Fault Refusal := .next (syncWindowExpiry r s)

/-- ACQUISITION_TIMEOUT: the frame has lasted two periods. Three misses in a row clear `locked` (R62). -/
def acquisitionTimeout (r : TickReport) (s : State) : State :=
  if !s.flag F.klnFrameCtl_tick_en || s.get F.klnFrameCtl_src == 0 || !s.kiln.acq then s
  else
    let s := countMiss s
    let s := if 3 ≤ s.kiln.acqMiss && !s.kiln.acqLost then
        raise F.klnEvtStat_sync_lost ((s.updKiln (fun k => { k with acqLost := true })).set F.klnFrameStat_locked 0) else s
    tick r none s

def execAcquisitionTimeout (r : TickReport) (s : State) : Host.Outcome State Fault Refusal := .next (acquisitionTimeout r s)

/-! ## The end of grace (02 R101, 18 R601, 19 R647) -/

/-- The engine stops what is left of a launch: a replay swaps back first; the stopped cores' registers and scratchpads
are undefined. -/
def stopLaunch (l : Launch) (s : State) : State :=
  let s := { s with launches := s.launches.map (fun x => if x = l then { x with pairs := [], cut := true } else x) }
  let s := if l.pairs = [] then s else (swapFields l.pairs s).updList l.queue l.start (fun x => { x with replayed := true })
  if l.left = [] then launchGone l 1 s
  else l.left.foldl (fun s c =>
    if (s.core c).ending.isSome then s else stopPart c 0 (undefPad (swapCore l.pairs c) (undefRegs c s))) s

/-- ABORT_GRACE_EXPIRY. A launch whose cores have all ended their parts and that waits for the placement of their host
writes alone is left to its end (R101, R102); one that awaits replay is cancelled (18 R601). -/
def abortGrace (q : Nat) (s : State) : State :=
  match (s.queue q).lists.find? (fun l => l.live && l.aborting) with
  | some l =>
    if engineOf q ≠ 0 then s
    else
      let ls := (s.launchesOf q l.start).filter (fun x => !x.left.isEmpty || awaitsReplay x)
      if ls.isEmpty then s
      else ls.foldl (fun s x => stopLaunch x s) (s.updList q l.start (fun l => { l with cut := true }))
  | none => s

def execAbortGraceExpiry (q : QueueId) (s : State) : Host.Outcome State Fault Refusal := .next (abortGrace q.val s)

end Sys2Proof.Machine
end

