-- ==== Sys2Proof/Machine/Failover.lean ====
section
/-! DEFINITION. The loss of a peer: dying gasp, missed heartbeats, the witness, promotion (16 R546-R551). -/

namespace Sys2Proof.Machine

/-- A shadow whose content is not to be used. -/
def detach (s : State) : State :=
  raise F.mirEvtStat_detached (settleJournal ((mirGoto 8 0 s).updMir (fun m => { m with
    journal := [], markers := [], recvd := [], waitsWitness := false, lost := true })))

/-- The lists a promoted module still holds carry the started-late flag. -/
def lateLists (s : State) : State :=
  { s with queues := s.queues.map (fun p => (p.1, { p.2 with
      lists := p.2.lists.map (fun l => if l.fired.isNone && l.ended.isNone then { l with late := true } else l) })) }

/-- The module's own tick source. -/
def ownSource (s : State) : State :=
  ((s.set F.klnFrameCtl_src 0).set F.klnFrameStat_locked 0).updKiln (fun k => { k with
    acq := false, acqLost := false, acqMiss := 0, inWin := 0, adopt := false })

/-- Promotion (R551): what is incomplete is discarded; complete epochs have been applied as they completed. -/
def promoteModule (r : TickReport) (s : State) : State :=
  let s := if mirState s = 9 then s else mirGoto 9 0 s
  let s := settleJournal (s.updMir (fun m => { m with
    journal := [], markers := [], recvd := [], waitsWitness := false, lost := true }))
  let s := mirGoto 5 0 (lateLists (ownSource s))
  let s := if s.flag F.klnFrameCtl_tick_en then tick r none s else s
  raise F.mirEvtStat_promoted (writeWitness s)

/-- A loss declared at a primary. -/
def peerLost (s : State) : State := raise F.mirEvtStat_peer_lost (unprotected s)

/-- MGASP received. -/
def mgasp (r : TickReport) (s : State) : State :=
  let s := raise F.mirEvtStat_gasp_rx s
  if isPrimary s then peerLost s
  else if mirState s = 7 ∨ (mirState s = 9 ∧ s.mirror.waitsWitness = true) then promoteModule r s
  else if mirState s = 6 then detach s
  else s

def execMgasp (_reason : BitVec 16) (r : TickReport) (s : State) : Host.Outcome State Fault Refusal := .next (mgasp r s)

/-- HEARTBEAT_TIMEOUT: two heartbeats have been missed. -/
def heartbeatTimeout (r : TickReport) (s : State) : State :=
  if isPrimary s then peerLost s
  else if mirState s = 6 then detach s
  else if mirState s = 7 then
    if s.flag F.mirCtl_witness_en then (mirGoto 9 0 s).updMir (fun m => { m with waitsWitness := true, lost := true })
    else promoteModule r s
  else s

def execHeartbeatTimeout (r : TickReport) (s : State) : Host.Outcome State Fault Refusal := .next (heartbeatTimeout r s)

/-- The peer's witness record as host memory serves it (R547), or nothing where its read fails. A MIR_PEER_WITNESS_ADDR that
has never been written names no host memory, and its read fails (log entry 35). -/
def witnessRecord (h : HostView) (s : State) : State × Option (List Byte) :=
  let a := s.get F.mirPeerWitnessAddr_addr * 16
  if isHostAddr a then engineRead ⟨unitId 8 (35, 4) 0x200, 0⟩ a 16 h s else (s, none)

/-- WITNESS_READ: a frame in the peer's record at or above this module's shows that the primary is alive. -/
def witnessRead (h : HostView) (r : TickReport) (s : State) : State :=
  if mirState s = 9 ∧ s.mirror.waitsWitness = true then
    match witnessRecord h s with
    | (s, some b) => if s.frame ≤ leAt b 0 6 then detach s else promoteModule r s
    | (s, none) => detach s
  else s

def execWitnessRead (hv : HostView) (r : TickReport) (s : State) : Host.Outcome State Fault Refusal :=
  .next (witnessRead hv r s)

end Sys2Proof.Machine
end

