-- ==== Sys2Proof/Machine/Alu.lean ====
section
/-! DEFINITION. The integer instructions (03 R114, R120-R124). -/

namespace Sys2Proof.Machine

/-- A register-register operation of major 0x00: minor[11:6] is 0, and rb too for one operand (03 R120). -/
def aluRR (c : CoreId) (w : Word32) (one : Bool) (f : Word64 → Word64 → Word64) (s : State) : State :=
  issue c w .plain [raOf w, rbOf w] (legal (fld w 11 6 == 0 && (!one || rbOf w == 0)))
    (fun k s => writeG c (rdOf w) (f (k.sc.gr (raOf w)) (k.sc.gr (rbOf w))) s) s

/-- A shift by minor[11:6]; rb is not named (03 R120). -/
def aluShiftI (c : CoreId) (w : Word32) (f : Word64 → Nat → Word64) (s : State) : State :=
  issue c w .plain [raOf w] (legal (rbOf w == 0)) (fun k s => writeG c (rdOf w) (f (k.sc.gr (raOf w)) (fld w 11 6)) s) s

/-- An immediate instruction (03 R121). -/
def aluI (c : CoreId) (w : Word32) (raZero : Bool) (f : Word64 → Word64) (s : State) : State :=
  issue c w .plain [raOf w] (legal (!raZero || raOf w == 0)) (fun k s => writeG c (rdOf w) (f (k.sc.gr (raOf w))) s) s

/-- A one-bit result. -/
def bit64 (b : Bool) : Word64 := if b then 1 else 0

/-- The set bits of the low n bits of a number. -/
def popNat : Nat → Nat → Nat
  | 0, _ => 0
  | n + 1, v => v % 2 + popNat n (v / 2)

/-- Zeros above the highest set bit of the low n bits (n if none is set). -/
def clzNat : Nat → Nat → Nat
  | 0, _ => 0
  | n + 1, v => if v / 2 ^ n % 2 = 1 then 0 else clzNat n v + 1

/-- Zeros below the lowest set bit of the low n bits (n if none is set). -/
def ctzNat : Nat → Nat → Nat
  | 0, _ => 0
  | n + 1, v => if v % 2 = 1 then 0 else ctzNat n (v / 2) + 1

def execAdd (c : CoreId) (w : Word32) (s : State) : Host.Outcome State Fault Refusal :=
  .next (aluRR c w false (fun a b => a + b) s)
def execSub (c : CoreId) (w : Word32) (s : State) : Host.Outcome State Fault Refusal :=
  .next (aluRR c w false (fun a b => a - b) s)
def execAnd (c : CoreId) (w : Word32) (s : State) : Host.Outcome State Fault Refusal :=
  .next (aluRR c w false (fun a b => a &&& b) s)
def execOr (c : CoreId) (w : Word32) (s : State) : Host.Outcome State Fault Refusal :=
  .next (aluRR c w false (fun a b => a ||| b) s)
def execXor (c : CoreId) (w : Word32) (s : State) : Host.Outcome State Fault Refusal :=
  .next (aluRR c w false (fun a b => a ^^^ b) s)
def execAndn (c : CoreId) (w : Word32) (s : State) : Host.Outcome State Fault Refusal :=
  .next (aluRR c w false (fun a b => a &&& ~~~b) s)
def execSlt (c : CoreId) (w : Word32) (s : State) : Host.Outcome State Fault Refusal :=
  .next (aluRR c w false (fun a b => bit64 (a.slt b)) s)
def execSltu (c : CoreId) (w : Word32) (s : State) : Host.Outcome State Fault Refusal :=
  .next (aluRR c w false (fun a b => bit64 (a.ult b)) s)
def execSll (c : CoreId) (w : Word32) (s : State) : Host.Outcome State Fault Refusal :=
  .next (aluRR c w false (fun a b => a <<< (b.toNat % 64)) s)
def execSrl (c : CoreId) (w : Word32) (s : State) : Host.Outcome State Fault Refusal :=
  .next (aluRR c w false (fun a b => a >>> (b.toNat % 64)) s)
def execSra (c : CoreId) (w : Word32) (s : State) : Host.Outcome State Fault Refusal :=
  .next (aluRR c w false (fun a b => a.sshiftRight (b.toNat % 64)) s)
def execSlli (c : CoreId) (w : Word32) (s : State) : Host.Outcome State Fault Refusal :=
  .next (aluShiftI c w (fun a n => a <<< n) s)
def execSrli (c : CoreId) (w : Word32) (s : State) : Host.Outcome State Fault Refusal :=
  .next (aluShiftI c w (fun a n => a >>> n) s)
def execSrai (c : CoreId) (w : Word32) (s : State) : Host.Outcome State Fault Refusal :=
  .next (aluShiftI c w (fun a n => a.sshiftRight n) s)
def execMin (c : CoreId) (w : Word32) (s : State) : Host.Outcome State Fault Refusal :=
  .next (aluRR c w false (fun a b => if b.slt a then b else a) s)
def execMax (c : CoreId) (w : Word32) (s : State) : Host.Outcome State Fault Refusal :=
  .next (aluRR c w false (fun a b => if a.slt b then b else a) s)
def execMinu (c : CoreId) (w : Word32) (s : State) : Host.Outcome State Fault Refusal :=
  .next (aluRR c w false (fun a b => if b.ult a then b else a) s)
def execMaxu (c : CoreId) (w : Word32) (s : State) : Host.Outcome State Fault Refusal :=
  .next (aluRR c w false (fun a b => if a.ult b then b else a) s)
def execClz (c : CoreId) (w : Word32) (s : State) : Host.Outcome State Fault Refusal :=
  .next (aluRR c w true (fun a _ => BitVec.ofNat 64 (clzNat 64 a.toNat)) s)
def execCtz (c : CoreId) (w : Word32) (s : State) : Host.Outcome State Fault Refusal :=
  .next (aluRR c w true (fun a _ => BitVec.ofNat 64 (ctzNat 64 a.toNat)) s)
def execPopc (c : CoreId) (w : Word32) (s : State) : Host.Outcome State Fault Refusal :=
  .next (aluRR c w true (fun a _ => BitVec.ofNat 64 (popNat 64 a.toNat)) s)
def execSextw (c : CoreId) (w : Word32) (s : State) : Host.Outcome State Fault Refusal :=
  .next (aluRR c w true (fun a _ => sext 32 a.toNat) s)
def execZextw (c : CoreId) (w : Word32) (s : State) : Host.Outcome State Fault Refusal :=
  .next (aluRR c w true (fun a _ => BitVec.ofNat 64 (a.toNat % 2 ^ 32)) s)

def execAddi (c : CoreId) (w : Word32) (s : State) : Host.Outcome State Fault Refusal :=
  .next (aluI c w false (fun a => a + immS w) s)
def execAndi (c : CoreId) (w : Word32) (s : State) : Host.Outcome State Fault Refusal :=
  .next (aluI c w false (fun a => a &&& immZ w) s)
def execOri (c : CoreId) (w : Word32) (s : State) : Host.Outcome State Fault Refusal :=
  .next (aluI c w false (fun a => a ||| immZ w) s)
def execXori (c : CoreId) (w : Word32) (s : State) : Host.Outcome State Fault Refusal :=
  .next (aluI c w false (fun a => a ^^^ immZ w) s)
def execLui (c : CoreId) (w : Word32) (s : State) : Host.Outcome State Fault Refusal :=
  .next (aluI c w true (fun _ => immS w <<< 17) s)
def execLsi (c : CoreId) (w : Word32) (s : State) : Host.Outcome State Fault Refusal :=
  .next (aluI c w false (fun a => (a <<< 17) ||| immZ w) s)
def execSlti (c : CoreId) (w : Word32) (s : State) : Host.Outcome State Fault Refusal :=
  .next (aluI c w false (fun a => bit64 (a.slt (immS w))) s)

/-! ## Multiply and divide (03 R122, R123) -/

/-- A multiply of major 0x14: minor is its whole function code. -/
def mulRR (c : CoreId) (w : Word32) (f : Word64 → Word64 → Word64) (s : State) : State :=
  issue c w .plain [raOf w, rbOf w] (legal true)
    (fun k s => writeG c (rdOf w) (f (k.sc.gr (raOf w)) (k.sc.gr (rbOf w))) s) s

/-- A divide or remainder: zero divisor faults before rd is written; otherwise the divider starts and rd is written
when it finishes. A second divide waits for the first (issue interval 34). -/
def divRR (c : CoreId) (w : Word32) (f : Word64 → Word64 → Word64) (s : State) : State :=
  if (s.core c).sc.divide.isSome then s else
  issue c w .plain [raOf w, rbOf w] (legal true)
    (fun k s =>
      let b := k.sc.gr (rbOf w)
      if b = 0 then .trap ⟨9, 0⟩ s
      else .done (s.updSc c (fun x => { x with divide := some ⟨BitVec.ofNat 5 (rdOf w), f (k.sc.gr (raOf w)) b⟩ }))) s

def execMul (c : CoreId) (w : Word32) (s : State) : Host.Outcome State Fault Refusal :=
  .next (mulRR c w (fun a b => a * b) s)
def execMulh (c : CoreId) (w : Word32) (s : State) : Host.Outcome State Fault Refusal :=
  .next (mulRR c w (fun a b => BitVec.ofInt 64 (a.toInt * b.toInt / 2 ^ 64)) s)
def execMulhu (c : CoreId) (w : Word32) (s : State) : Host.Outcome State Fault Refusal :=
  .next (mulRR c w (fun a b => BitVec.ofNat 64 (a.toNat * b.toNat / 2 ^ 64)) s)
def execDiv (c : CoreId) (w : Word32) (s : State) : Host.Outcome State Fault Refusal :=
  .next (divRR c w (fun a b => BitVec.ofInt 64 (a.toInt.tdiv b.toInt)) s)
def execDivu (c : CoreId) (w : Word32) (s : State) : Host.Outcome State Fault Refusal :=
  .next (divRR c w (fun a b => BitVec.ofNat 64 (a.toNat / b.toNat)) s)
def execRem (c : CoreId) (w : Word32) (s : State) : Host.Outcome State Fault Refusal :=
  .next (divRR c w (fun a b => BitVec.ofInt 64 (a.toInt.tmod b.toInt)) s)
def execRemu (c : CoreId) (w : Word32) (s : State) : Host.Outcome State Fault Refusal :=
  .next (divRR c w (fun a b => BitVec.ofNat 64 (a.toNat % b.toNat)) s)

/-- The divider finishes and writes rd (03 R122); a later write to rd stands (03 R130). -/
def divideComplete (c : CoreId) (s : State) : State :=
  match (s.core c).sc.divide with
  | some d => s.updSc c (fun k => { k with g := if d.rd = 0 then k.g else mput k.g d.rd.toNat d.value, divide := none })
  | none => s

def execDivideComplete (c : CoreId) (s : State) : Host.Outcome State Fault Refusal :=
  .next (divideComplete c s)

end Sys2Proof.Machine
end

