-- ==== Sys2Proof/Machine/Coproc.lean ====
section
/-! DEFINITION. The coprocessors: cp0, the top-k selector, and cp1, the sketch and hash unit (03 R158-R162). -/

namespace Sys2Proof.Machine

/-! ## cp0 (03 R159, R160) -/

/-- Whether key a ranks before key b: the larger, or with mode[0] the smaller, of the key type mode[2:1]. -/
def keyBetter (mode : BitVec 3) (a b : Word32) : Bool :=
  let (x, y) := if natBit mode.toNat 0 then (a, b) else (b, a)
  match natBits mode.toNat 2 1 with
  | 0 => x.ult y
  | 1 => x.slt y
  | _ => Val.lt (dec32 x.toNat) (dec32 y.toNat)

/-- A key entered behind those that are not worse than it. -/
def rankIn (mode : BitVec 3) (key id : Word32) : List (Word32 × Word32) → List (Word32 × Word32)
  | [] => [(key, id)]
  | p :: t => if keyBetter mode key p.1 then (key, id) :: p :: t else p :: rankIn mode key id t

/-- A key offered: a NaN is discarded, and a full list keeps its first k. -/
def tkOffer (t : TopK) (key id : Word32) : TopK :=
  if natBits t.mode.toNat 2 1 = 2 ∧ (dec32 key.toNat).isNan = true then t
  else { t with entries := (rankIn t.mode key id t.entries).take t.k }

/-- A cp0 function: its fields, then cause 0x12 before a successful `tk.init`. -/
def tk (c : CoreId) (w : Word32) (rd ra rb : Bool) (srcs : List Nat) (body : TopK → Core → State → Eff) (s : State) : State :=
  issue c w .plain srcs
    (computeOnly c ((rd || rdOf w == 0) && (ra || raOf w == 0) && (rb || rbOf w == 0)))
    (fun k s => match k.sc.cp0 with
      | some t => body t k s
      | none => .trap ⟨0x12, 0⟩ s) s

/-- `tk.init`. -/
def tkInit (c : CoreId) (w : Word32) (s : State) : State :=
  issue c w .plain [raOf w, rbOf w] (computeOnly c (rdOf w == 0)) (fun k s =>
    let n := natBits (k.sc.gr (raOf w)).toNat 6 0
    let m := natBits (k.sc.gr (rbOf w)).toNat 2 0
    if n = 0 ∨ 64 < n ∨ 6 ≤ m then .trap ⟨0x12, 0⟩ s
    else .done (s.updSc c (fun x => { x with cp0 := some ⟨n, BitVec.ofNat 3 m, []⟩ }))) s

/-- `tk.push`. -/
def tkPush (c : CoreId) (w : Word32) (s : State) : State :=
  tk c w false true true [raOf w, rbOf w] (fun t k s =>
    .done (s.updSc c (fun x => { x with
      cp0 := some (tkOffer t ((k.sc.gr (raOf w)).setWidth 32) ((k.sc.gr (rbOf w)).setWidth 32)) }))) s

/-- `tk.pushv`: the 32 lanes of va, lane i with id gb + i. -/
def tkPushv (c : CoreId) (w : Word32) (s : State) : State :=
  tk c w false true true [rbOf w] (fun t k s =>
    let id := (k.sc.gr (rbOf w)).setWidth 32
    let lanes := (lanesOf 32 (k.vr (raOf w))).zipIdx
    .done (s.updSc c (fun x => { x with
      cp0 := some (lanes.foldl (fun t p => tkOffer t (BitVec.ofNat 32 p.1) (id + BitVec.ofNat 32 p.2)) t) }))) s

/-- `tk.rd`. -/
def tkRd (c : CoreId) (w : Word32) (s : State) : State :=
  tk c w true true false [raOf w] (fun t k s =>
    match t.entries[(k.sc.gr (raOf w)).toNat]? with
    | some p => writeG c (rdOf w) (BitVec.ofNat 64 (p.1.toNat * 2 ^ 32 + p.2.toNat)) s
    | none => .trap ⟨0x12, 0⟩ s) s

/-- `tk.cnt`. -/
def tkCnt (c : CoreId) (w : Word32) (s : State) : State :=
  tk c w true false false [] (fun t _ s =>
    writeG c (rdOf w) (BitVec.ofNat 64 (t.entries.length + t.k * 2 ^ 8 + t.mode.toNat * 2 ^ 16)) s) s

/-- `tk.thr`. -/
def tkThr (c : CoreId) (w : Word32) (s : State) : State :=
  tk c w true false false [] (fun t _ s =>
    match t.entries.getLast? with
    | some p => writeG c (rdOf w) (BitVec.ofNat 64 (p.1.toNat + (if t.entries.length = t.k then 2 ^ 32 else 0))) s
    | none => .trap ⟨0x12, 0⟩ s) s

/-! ## cp1 (03 R161, R162) -/

/-- The sum over bytes of the set bits of an n-byte number. -/
def popWide (n v : Nat) : Nat := ((leBytes n v).map (fun b => popNat 8 b.toNat)).sum

/-- The distances of n pieces of two registers, piece j in bits [16j+15:16j]. -/
def hamPieces (n : Nat) (a b : VReg) : Nat :=
  let w := 1024 / n
  ((nats n 0 1).map (fun j => popWide (w / 8) ((a ^^^ b).toNat / 2 ^ (w * j) % 2 ^ w) * 2 ^ (16 * j))).sum

/-- A function of two vector registers to g. -/
def skOp (c : CoreId) (w : Word32) (rb : Bool) (f : VReg → VReg → Nat) (s : State) : State :=
  issue c w .plain [] (computeOnly c (rb || rbOf w == 0))
    (fun k s => writeG c (rdOf w) (BitVec.ofNat 64 (f (k.vr (raOf w)) (k.vr (rbOf w)))) s) s

/-- The signs of FP32 lanes: bit i is whether lane i is greater than +0. -/
def signBits (a : VReg) : Nat :=
  ((lanesOf 32 a).zipIdx.map (fun p => if Val.lt (.fin false 0 0) (dec32 p.1) then 2 ^ p.2 else 0)).sum

/-- One step of the CRC register. -/
def crcBits : Nat → Nat → Nat
  | 0, x => x
  | n + 1, x => crcBits n (if x % 2 = 1 then x / 2 ^^^ 0x82F63B78 else x / 2)

/-- CRC-32C of a state updated with bytes, without inversion. -/
def crc32c (st : Nat) (bs : List Byte) : Nat := bs.foldl (fun x b => crcBits 8 (x ^^^ b.toNat)) st

/-- A function of two g registers. -/
def hsOp (c : CoreId) (w : Word32) (f : Word64 → Word64 → Word64) (s : State) : State :=
  issue c w .plain [raOf w, rbOf w] (computeOnly c true)
    (fun k s => writeG c (rdOf w) (f (k.sc.gr (raOf w)) (k.sc.gr (rbOf w))) s) s

def execTkInit (c : CoreId) (w : Word32) (s : State) : Host.Outcome State Fault Refusal := .next (tkInit c w s)
def execTkPush (c : CoreId) (w : Word32) (s : State) : Host.Outcome State Fault Refusal := .next (tkPush c w s)
def execTkPushv (c : CoreId) (w : Word32) (s : State) : Host.Outcome State Fault Refusal := .next (tkPushv c w s)
def execTkRd (c : CoreId) (w : Word32) (s : State) : Host.Outcome State Fault Refusal := .next (tkRd c w s)
def execTkCnt (c : CoreId) (w : Word32) (s : State) : Host.Outcome State Fault Refusal := .next (tkCnt c w s)
def execTkThr (c : CoreId) (w : Word32) (s : State) : Host.Outcome State Fault Refusal := .next (tkThr c w s)
def execSkHam (c : CoreId) (w : Word32) (s : State) : Host.Outcome State Fault Refusal := .next (skOp c w true (hamPieces 1) s)
def execSkHam2 (c : CoreId) (w : Word32) (s : State) : Host.Outcome State Fault Refusal := .next (skOp c w true (hamPieces 2) s)
def execSkHam4 (c : CoreId) (w : Word32) (s : State) : Host.Outcome State Fault Refusal := .next (skOp c w true (hamPieces 4) s)
def execSkSign (c : CoreId) (w : Word32) (s : State) : Host.Outcome State Fault Refusal :=
  .next (skOp c w false (fun a _ => signBits a) s)
def execHsCrc (c : CoreId) (w : Word32) (s : State) : Host.Outcome State Fault Refusal :=
  .next (hsOp c w (fun a b => BitVec.ofNat 64 (crc32c (a.toNat % 2 ^ 32) (leBytes 8 b.toNat))) s)
def execHsCrcw (c : CoreId) (w : Word32) (s : State) : Host.Outcome State Fault Refusal :=
  .next (hsOp c w (fun a b => BitVec.ofNat 64 (crc32c (a.toNat % 2 ^ 32) (leBytes 4 b.toNat))) s)
def execHsMix (c : CoreId) (w : Word32) (s : State) : Host.Outcome State Fault Refusal := .next (hsOp c w hsMix s)

end Sys2Proof.Machine
end

