-- ==== Sys2Proof/Machine/Sha.lean ====
section
/-! DEFINITION. SHA-256 and SHA-384, by FIPS 180-4, which 19 R625-R629 name (log entry 8). -/

namespace Sys2Proof.Machine

/-- The round constants of SHA-384; those of SHA-256 are the upper halves of the first 64. -/
def shaK0 : List (BitVec 64) := [
    0x428a2f98d728ae22, 0x7137449123ef65cd, 0xb5c0fbcfec4d3b2f, 0xe9b5dba58189dbbc,
    0x3956c25bf348b538, 0x59f111f1b605d019, 0x923f82a4af194f9b, 0xab1c5ed5da6d8118,
    0xd807aa98a3030242, 0x12835b0145706fbe, 0x243185be4ee4b28c, 0x550c7dc3d5ffb4e2,
    0x72be5d74f27b896f, 0x80deb1fe3b1696b1, 0x9bdc06a725c71235, 0xc19bf174cf692694,
    0xe49b69c19ef14ad2, 0xefbe4786384f25e3, 0x0fc19dc68b8cd5b5, 0x240ca1cc77ac9c65,
    0x2de92c6f592b0275, 0x4a7484aa6ea6e483, 0x5cb0a9dcbd41fbd4, 0x76f988da831153b5,
    0x983e5152ee66dfab, 0xa831c66d2db43210, 0xb00327c898fb213f, 0xbf597fc7beef0ee4,
    0xc6e00bf33da88fc2, 0xd5a79147930aa725, 0x06ca6351e003826f, 0x142929670a0e6e70,
    0x27b70a8546d22ffc, 0x2e1b21385c26c926, 0x4d2c6dfc5ac42aed, 0x53380d139d95b3df,
    0x650a73548baf63de, 0x766a0abb3c77b2a8, 0x81c2c92e47edaee6, 0x92722c851482353b]
def shaK1 : List (BitVec 64) := [
    0xa2bfe8a14cf10364, 0xa81a664bbc423001, 0xc24b8b70d0f89791, 0xc76c51a30654be30,
    0xd192e819d6ef5218, 0xd69906245565a910, 0xf40e35855771202a, 0x106aa07032bbd1b8,
    0x19a4c116b8d2d0c8, 0x1e376c085141ab53, 0x2748774cdf8eeb99, 0x34b0bcb5e19b48a8,
    0x391c0cb3c5c95a63, 0x4ed8aa4ae3418acb, 0x5b9cca4f7763e373, 0x682e6ff3d6b2b8a3,
    0x748f82ee5defb2fc, 0x78a5636f43172f60, 0x84c87814a1f0ab72, 0x8cc702081a6439ec,
    0x90befffa23631e28, 0xa4506cebde82bde9, 0xbef9a3f7b2c67915, 0xc67178f2e372532b,
    0xca273eceea26619c, 0xd186b8c721c0c207, 0xeada7dd6cde0eb1e, 0xf57d4f7fee6ed178,
    0x06f067aa72176fba, 0x0a637dc5a2c898a6, 0x113f9804bef90dae, 0x1b710b35131c471b,
    0x28db77f523047d84, 0x32caab7b40c72493, 0x3c9ebe0a15c9bebc, 0x431d67c49c100d4c,
    0x4cc5d4becb3e42b6, 0x597f299cfc657e2a, 0x5fcb6fab3ad6faec, 0x6c44198c4a475817]

/-- The initial hash values. -/
def sha256Init : List (BitVec 32) := [
    0x6a09e667, 0xbb67ae85, 0x3c6ef372, 0xa54ff53a,
    0x510e527f, 0x9b05688c, 0x1f83d9ab, 0x5be0cd19]
def sha384Init : List (BitVec 64) := [
    0xcbbb9d5dc1059ed8, 0x629a292a367cd507, 0x9159015a3070dd17, 0x152fecd8f70e5939,
    0x67332667ffc00b31, 0x8eb44a8768581511, 0xdb0c2e0d64f98fa7, 0x47b5481dbefa4fa4]

/-- What differs between the two functions: the four mixing functions. -/
structure ShaMix (w : Nat) where
  big0 : BitVec w → BitVec w
  big1 : BitVec w → BitVec w
  small0 : BitVec w → BitVec w
  small1 : BitVec w → BitVec w

/-- One round, with the sum of its constant and its word. -/
def shaRound {w : Nat} (m : ShaMix w) (st : List (BitVec w)) (kw : BitVec w) : List (BitVec w) :=
  match st with
  | [a, b, c, d, e, f, g, h] =>
    let t := h + m.big1 e + ((e &&& f) ^^^ (~~~e &&& g)) + kw
    [t + (m.big0 a + ((a &&& b) ^^^ (a &&& c) ^^^ (b &&& c))), a, b, c, d + t, e, f, g]
  | _ => st

/-- The message schedule, newest word first, n words on. -/
def shaExtend {w : Nat} (m : ShaMix w) : Nat → List (BitVec w) → List (BitVec w)
  | 0, l => l
  | n + 1, l => shaExtend m n ((m.small1 (l.getD 1 0) + l.getD 6 0 + m.small0 (l.getD 14 0) + l.getD 15 0) :: l)

/-- A block enters the hash value. -/
def shaBlock {w : Nat} (m : ShaMix w) (ks : List (BitVec w)) (h block : List (BitVec w)) : List (BitVec w) :=
  let ws := (shaExtend m (ks.length - 16) block.reverse).reverse
  let st := (ks.zip ws).foldl (fun st p => shaRound m st (p.1 + p.2)) h
  (h.zip st).map (fun p => p.1 + p.2)

/-- A word of n bytes, the first the most significant. -/
def beWord (w : Nat) (bs : List Byte) : BitVec w := BitVec.ofNat w (bs.foldl (fun x b => x * 256 + b.toNat) 0)

/-- The n bytes of a number, the most significant first. -/
def beBytes (n x : Nat) : List Byte := (leBytes n x).reverse

/-- Parts of n items, the last perhaps short. -/
def partsOf {α : Type} (n : Nat) : Nat → List α → List (List α)
  | 0, _ => []
  | f + 1, l => if l.isEmpty then [] else l.take n :: partsOf n f (l.drop n)

/-- A message padded to blocks of 8 × `len` bytes, its length in bits in the last `len` bytes. -/
def shaPad (len : Nat) (bs : List Byte) : List Byte :=
  let b := 8 * len
  bs ++ 0x80 :: (List.replicate ((2 * b - 1 - len - bs.length % b) % b) 0 ++ beBytes len (8 * bs.length))

/-- The hash of a message in words of w bits. -/
def shaHash {w : Nat} (m : ShaMix w) (ks init : List (BitVec w)) (bs : List Byte) : List Byte :=
  let words := (partsOf (w / 8) (bs.length + 256) (shaPad (w / 4) bs)).map (beWord w)
  let h := (partsOf 16 (bs.length + 16) words).foldl (shaBlock m ks) init
  h.flatMap (fun x => beBytes (w / 8) x.toNat)

/-- SHA-256. -/
def sha256 (bs : List Byte) : List Byte :=
  shaHash {
    big0 := fun x => x.rotateRight 2 ^^^ x.rotateRight 13 ^^^ x.rotateRight 22
    big1 := fun x => x.rotateRight 6 ^^^ x.rotateRight 11 ^^^ x.rotateRight 25
    small0 := fun x => x.rotateRight 7 ^^^ x.rotateRight 18 ^^^ x >>> 3
    small1 := fun x => x.rotateRight 17 ^^^ x.rotateRight 19 ^^^ x >>> 10 }
    (((shaK0 ++ shaK1).take 64).map (fun k => k.extractLsb' 32 32)) sha256Init bs

/-- SHA-384. -/
def sha384 (bs : List Byte) : List Byte :=
  (shaHash {
    big0 := fun x => x.rotateRight 28 ^^^ x.rotateRight 34 ^^^ x.rotateRight 39
    big1 := fun x => x.rotateRight 14 ^^^ x.rotateRight 18 ^^^ x.rotateRight 41
    small0 := fun x => x.rotateRight 1 ^^^ x.rotateRight 8 ^^^ x >>> 7
    small1 := fun x => x.rotateRight 19 ^^^ x.rotateRight 61 ^^^ x >>> 6 }
    (shaK0 ++ shaK1) sha384Init bs).take 48

end Sys2Proof.Machine
end

