-- ==== Sys2Proof/Machine/Flash.lean ====
section
/-! DEFINITION. What the flash and the fuses of the boot and security block hold, and their forms: the layout, the image
and its checks, the history entries, the LMS reservation records (18 R608, 19 R624-R629, R644). -/

namespace Sys2Proof.Machine

/-- The block's unit: 0 the block, 1 the flash, 2 the fuses (R625). -/
def secUnit (sub : Nat) : Nat := unitId 13 (0, 0) sub

/-- CRC-32C of bytes: the register starts at all ones and is inverted at the end (log entry 8). -/
def crcOf (bs : List Byte) : Nat := 0xFFFF_FFFF ^^^ crc32c 0xFFFF_FFFF bs

/-! ## The image (R628, R629) -/

/-- The bytes of the header and the section table. -/
def headLen (bs : List Byte) : Nat := 64 + 16 * min 16 (leAt bs 24 4)

/-- The image in the flash slot: the block of signatures follows byte length - 1 (R628). -/
def slotImage (bs : List Byte) : Image :=
  let n := leAt bs 12 4
  ⟨bs.take (headLen bs), (bs.drop n).take 4096, bs.take n⟩

/-- The image in a recovery stream: the header and the table, the signature block, then the image (R637). -/
def streamImage (bs : List Byte) : Image :=
  let h := headLen bs
  ⟨bs.take h, (bs.drop h).take 4096, bs.drop (h + 4096)⟩

/-- What the flash slot holds of an image. -/
def Image.slot (m : Image) : List Byte := m.body ++ m.sig

/-- A section: image offset, bytes, target, and the offset in the target. -/
structure Section where
  off : Nat
  size : Nat
  target : Nat
  load : Nat
deriving DecidableEq, Repr

/-- Security version, key slot, commit flag and length of an image. -/
def Image.svn (m : Image) : Nat := leAt m.head 8 4
def Image.keySlot (m : Image) : Nat := leAt m.head 6 1
def Image.commit (m : Image) : Bool := natBit (leAt m.head 7 1) 0
def Image.length (m : Image) : Nat := leAt m.head 12 4

/-- The section table. -/
def Image.sections (m : Image) : List Section :=
  (nats (min 16 (leAt m.head 24 4)) 64 16).map (fun a =>
    ⟨leAt m.head a 4, leAt m.head (a + 4) 4, leAt m.head (a + 8) 1, leAt m.head (a + 12) 4⟩)

/-- First address and bytes of a section's target: the SRAM of SC0-SC3 from offset 0x1_0000, or a reserve of R627. -/
def sectionTarget (t : Nat) : Nat × Nat :=
  if t < 4 then (0x0300_0000_0000 + (1152 + t) * 0x20_0000 + 0x1_0000, 0x1F_0000)
  else
    let c := if t = 4 then 0 else if t = 5 then 47 else if t = 6 then 1104 else 1151
    (0x0200_0000_0000 + c * 0x200_0000 + 0x1F0_0000, 0x10_0000)

/-- Whether a section is aligned, names a target, and lies within an image of n bytes and within its target. -/
def sectionOk (n : Nat) (x : Section) : Bool :=
  decide (x.off % 64 = 0 ∧ x.size % 64 = 0 ∧ x.target < 8 ∧ x.off + x.size ≤ n ∧ x.load + x.size ≤ (sectionTarget x.target).2)

/-- Whether two sections share no byte of a target. -/
def sectionsApart (x y : Section) : Bool :=
  decide (x.target ≠ y.target ∨ x.load + x.size ≤ y.load ∨ y.load + y.size ≤ x.load)

/-- Whether no two sections of a list share a byte of a target. -/
def allApart : List Section → Bool
  | [] => true
  | x :: t => t.all (sectionsApart x) && allApart t

/-- Header and section table are well formed, and the image is whole: it ends with its last section, begins with the header
that was read first, and its signature block ends in zeros (R628, check 2 of R629). -/
def Image.formOk (m : Image) : Bool :=
  let h := m.head
  let n := m.length
  leAt h 0 4 == 0x5746_5143 && leAt h 4 2 == 1 && decide (m.keySlot < 4 ∧ leAt h 7 1 < 2 ∧ m.svn ≤ 64) &&
  decide (n % 64 = 0 ∧ n ≤ 0x80_0000 - 4096 ∧ 1 ≤ leAt h 24 4 ∧ leAt h 24 4 ≤ 16) &&
  ((h.drop 28).take 36).all (· == 0) && h.length == headLen h &&
  (nats (min 16 (leAt h 24 4)) 64 16).all (fun a => leAt h (a + 9) 3 == 0) &&
  m.sections.all (sectionOk n) && allApart m.sections && m.sections.foldl (fun a x => max a (x.off + x.size)) 0 == n &&
  m.body.length == n && m.body.take h.length == h && m.sig.length == 4096 && (m.sig.drop 3856).all (· == 0)

/-- The public keys in a signature block. -/
def Image.ecdsaKey (m : Image) : List Byte := m.sig.take 96
def Image.hssKey (m : Image) : List Byte := (m.sig.drop 192).take 60

/-- Whether a key slot that is not revoked holds the digests of two public keys. -/
def KeySlot.holds (k : KeySlot) (ecdsa hss : List Byte) : Bool :=
  !k.revoked && sha384 ecdsa == k.ecdsa && sha256 hss == k.hss

/-- The lowest failing reason of R629, or 0. -/
def imageReason (r : ImageReport) (m : Image) (s : State) : Nat :=
  if !r.flashOk then 1 else if !m.formOk then 2
  else if !((s.sec.keys.getD m.keySlot {}).holds m.ecdsaKey m.hssKey) then 3
  else if !r.ecdsaOk then 4 else if !r.hssOk then 5 else if m.svn < s.get F.secSvn_fused then 6 else 0

/-- The section bytes of a well-formed image are written to their targets as they are read (R630). -/
def loadSections (m : Image) (s : State) : State :=
  if !m.formOk then s
  else m.sections.foldl (fun s x =>
    (memWrite ((sectionTarget x.target).1 + x.load) ((m.body.drop x.off).take x.size) .clean (secUnit 0) s).1) s

/-! ## History entries (18 R608) -/

/-- The 32 bytes of an entry. -/
def histBytes (h : Hist) : List Byte :=
  let b := leBytes 4 h.unit ++ leBytes 4 h.hour ++ leBytes 2 h.ce ++ leBytes 2 h.ue ++ leBytes 1 h.fallow
    ++ leBytes 1 h.residue ++ [0, 0] ++ leBytes 8 h.key ++ leBytes 4 h.action
  b ++ leBytes 4 (crcOf b)

/-! ## LMS reservation records (R644) -/

/-- Records of a sector and of the region of 64 KiB (log entry 8). -/
def lmsSector : Nat := 128
def lmsPlaces : Nat := 2048

/-- The 32 bytes of a record: the value, the write count, zeros, and the CRC-32C of what goes before (log entry 8). -/
def lmsRecord (value count : Nat) : List Byte :=
  let b := leBytes 8 value ++ leBytes 4 count ++ List.replicate 16 0
  b ++ leBytes 4 (crcOf b)

/-- Whether a record's CRC is right. -/
def lmsValid (b : List Byte) : Bool := b.length == 32 && leAt b 28 4 == crcOf (b.take 28)

/-- The records that are valid. -/
def lmsGood (s : State) : List (Nat × List Byte) := s.sec.lms.filter (fun p => lmsValid p.2)

/-- The largest value found in a valid record. -/
def lmsLargest (s : State) : Nat := (lmsGood s).foldl (fun a p => max a (leAt p.2 0 8)) 0

/-- The newest record: the one of the greatest write count. -/
def lmsNewest (s : State) : Option (Nat × List Byte) :=
  (lmsGood s).foldl (fun (best : Option (Nat × List Byte)) p =>
    match best with
    | some b => if leAt b.2 8 4 < leAt p.2 8 4 then some p else some b
    | none => some p) none

/-- A record of a value is appended behind the newest. The sector it opens is erased first: the newest lies in the one
before. -/
def lmsAppend (value : Nat) (s : State) : State :=
  let (place, count) := match lmsNewest s with
    | some p => ((p.1 + 1) % lmsPlaces, leAt p.2 8 4 + 1)
    | none => (0, 1)
  let l := if place % lmsSector = 0 then s.sec.lms.filter (fun p => p.1 / lmsSector != place / lmsSector) else s.sec.lms
  { s with sec := { s.sec with lms := mput l place (lmsRecord value count) } }

/-! ## The layout (R624) -/

/-- A byte of the flash. An erased one reads 0xFF (log entry 8). -/
def flashByte (s : State) (a : Nat) : Byte :=
  if a < 0x80_0000 then s.sec.slot.getD a 0xFF
  else if a < 0xC0_0000 then
    match s.ras.history[(a - 0x80_0000) / 32]? with | some h => (histBytes h).getD (a % 32) 0xFF | none => 0xFF
  else if a < 0xC1_0000 then
    match s.sec.lms.find? (fun p => p.1 == (a - 0xC0_0000) / 32) with | some p => p.2.getD (a % 32) 0xFF | none => 0xFF
  else if a < 0xC2_0000 then Config.blobByte (a - 0xC1_0000)
  else 0xFF

end Sys2Proof.Machine
end

