-- ==== Sys2Proof/Machine/Boot.lean ====
section
/-! DEFINITION. Boot, recovery, anti-rollback, LMS reservations and the unlock of debug (19 R624-R651). -/

namespace Sys2Proof.Machine

/-- The boot and security block changed. -/
def State.updSec (s : State) (f : Sec → Sec) : State := { s with sec := f s.sec }

/-! ## Starting firmware (19 R631, R639, R644) -/

/-- Service core n starts at SRAM offset 0x1_0000, at machine level. -/
def startService (n : Nat) (s : State) : State :=
  let c := 1152 + n
  s.setCore c { run := .running, sc := {
    pl := 3
    pc := 0x1_0000
    code := ⟨0x7F, BitVec.ofNat 48 (0x0300_0000_0000 + c * 0x20_0000), 0x20_0000, true, 0, false⟩ } }

/-- A valid image runs: the blob is unsealed, SC0-SC3 start, and RAS_RETIRED is loaded (R631 steps 4 and 5). -/
def bootImage (m : Image) (idOk recovered : Bool) (s : State) : State :=
  let s := ((s.set F.secBootStat_reason 0).set F.secBootStat_id_valid (if idOk then 1 else 0)).set F.secBootStat_svn m.svn
  let s := s.set F.secBootStat_recovered (if recovered then 1 else 0)
  let s := (s.set F.secLms_q (lmsLargest s)).set F.secLmsLimit_limit (lmsLargest s)
  let s := reloadRetired (s.set F.rasFallowCtl_segs Config.fallowSegs)
  let s := s.updSec (fun c => { c with
    checking := false, firmware := true, commit := m.commit, holder := none, staged := none, stream := [], checkWaits := false
    digest := sha384 m.body })
  bootGoto 2 ((nats 4 0 1).foldl (fun s n => startService n s) s)

/-! ## The ROM (19 R631, R636) -/

/-- Whether a reset holds the module (01 R40, R41). -/
def held (s : State) : Bool := s.resets.warm || !s.pins.modResetN

/-- Recovery is entered for a reason. -/
def enterRecovery (reason : Nat) (s : State) : State :=
  bootGoto 5 ((s.set F.secBootStat_reason reason).updSec (fun c => { c with
    checking := false, holder := none, staged := none, stream := [], checkWaits := false }))

/-- ROM_START. -/
def romStart (s : State) : State :=
  if !railsUp s || !s.hearth.onDieFilled || held s || s.get F.secBootStat_state != 0 then s
  else if s.flag F.secBootCtl_rcv_next then enterRecovery 10 (s.set F.secBootCtl_rcv_next 0)
  else bootGoto 1 (s.updSec (fun c => { c with checking := true }))

def execRomStart (s : State) : Host.Outcome State Fault Refusal := .next (romStart s)

/-! ## Ready (19 R632, R633, R638) -/

/-- Firmware has installed the machine code segment of every compute core (R631 step 5). -/
def segmentsIn (s : State) : Bool :=
  decide (1152 ≤ (s.regs.filter (fun p => p.1.1 == .dbgMsegLimit && decide (p.1.2 < 1152) && p.2 != 0)).length)

/-- READY, once every step of R631 is done, or failed with reason 8 where a port has failed. A MOD_RESET_N low since cold sequencing holds the cores, and
with them the ready state, until it rises (01 R41). -/
def ready (s : State) : State :=
  let st := s.get F.secBootStat_state
  if !s.pins.modResetN || !s.sec.firmware || !(st == 2 || st == 3) || !s.hearth.nearFilled then s
  else if s.get F.fmcGlbStat_fill = 2 then
    if !segmentsIn s || !s.sec.distSet then s else
    let s := raise F.secEvtStat_ready (bootGoto 4 s)
    s.updSec (fun c => { c with burning := c.commit && decide (s.get F.secSvn_fused < s.get F.secBootStat_svn) })
  else if s.get F.fmcGlbStat_fill = 3 then bootGoto 6 (s.set F.secBootStat_reason 8)
  else s

def execReady (s : State) : Host.Outcome State Fault Refusal := .next (ready s)

/-- FUSE_BURN: one bit of the thermometer. -/
def fuseBurn (s : State) : State :=
  if s.sec.burning ∧ s.get F.secSvn_fused < s.get F.secBootStat_svn then
    let s := s.set F.secSvn_fused (s.get F.secSvn_fused + 1)
    s.updSec (fun c => { c with burning := decide (s.get F.secSvn_fused < s.get F.secBootStat_svn) })
  else s

def execFuseBurn (s : State) : Host.Outcome State Fault Refusal := .next (fuseBurn s)

/-- LMS_RESERVATION: q has reached limit, and the record of limit + 1,024 is in flash. -/
def lmsReservation (s : State) : State :=
  let lim := s.get F.secLmsLimit_limit
  if s.sec.firmware ∧ lim ≤ s.get F.secLms_q then
    let v := min F.secLmsLimit_limit.max (lim + 1024)
    (lmsAppend v s).set F.secLmsLimit_limit v
  else s

def execLmsReservation (s : State) : Host.Outcome State Fault Refusal := .next (lmsReservation s)

/-! ## Recovery (19 R636, R637, R651) -/

/-- Whether the block waits for a recovery image. -/
def recovering (s : State) : Bool := s.get F.secBootStat_state == 5

/-- A reply of the management port. -/
def reply (proto cmd code : Nat) (data : List Byte) (s : State) : State :=
  { s with mgt := { s.mgt with replies := s.mgt.replies ++ [⟨proto, cmd, code, data⟩] } }

/-- The flash slot is erased, and the image written. -/
def startReflash (m : Image) (idOk : Bool) (s : State) : State :=
  s.updSec (fun c => { c with slot := [], reflashing := true, staged := some (m, idOk) })

/-- A transfer ends without an image that runs. -/
def endTransfer (s : State) : State :=
  (s.set F.secRcvStat_bytes 0).updSec (fun c => { c with holder := none, staged := none, stream := [], checkWaits := false })

/-- The whole stream of a recovery has been taken: its image is loaded and checked (R630, R637). One of the management port
is written to the flash, and its VerifyComplete carries the reason (20 R656). -/
def checkStream (r : ImageReport) (s : State) : State :=
  let m := streamImage s.sec.stream
  let s := loadSections m s
  let n := imageReason { r with flashOk := true } m s
  let s := (s.set F.secRcvStat_reason n).updSec (fun c => { c with checkWaits := false })
  if s.sec.holder = some true then
    let s := reply 1 0x17 n [] s
    if n = 0 then startReflash m r.idOk s else endTransfer s
  else if n ≠ 0 then endTransfer (s.set F.secRcvStat_state 0)
  else if s.flag F.secRcvCtl_reflash then startReflash m r.idOk (s.set F.secRcvStat_state 1)
  else bootImage m r.idOk true (endTransfer (s.set F.secRcvStat_state 0))

/-- The last bytes of a stream have been taken. The reserve is written only after the near fill (R630): until then the check
waits, and IMAGE_CHECK_DONE makes it. -/
def streamTaken (r : ImageReport) (s : State) : State :=
  if s.hearth.nearFilled then checkStream r s
  else (s.set F.secRcvStat_state 1).updSec (fun c => { c with checkWaits := true })

/-- IMAGE_CHECK_DONE: of the flash image, or of a recovery stream whose check has waited for the near fill. -/
def imageCheckDone (r : ImageReport) (s : State) : State :=
  if !s.hearth.nearFilled then s
  else if recovering s && s.sec.checkWaits then checkStream r s
  else if !s.sec.checking || s.get F.secBootStat_state != 1 then s
  else
    let m := slotImage s.sec.slot
    let s := loadSections m s
    let n := imageReason r m s
    if n = 0 then bootImage m r.idOk false s else enterRecovery n s

def execImageCheckDone (r : ImageReport) (s : State) : Host.Outcome State Fault Refusal := .next (imageCheckDone r s)

/-- RCV_GO: a chunk of the stream, the first `len` bytes of the buffer. -/
def rcvGo (r : ImageReport) (s : State) : State :=
  if !recovering s || s.sec.holder == some true then s.set F.secRcvStat_state 3
  else if s.get F.secRcvStat_state = 1 then s
  else
    let n := s.get F.secRcvCtl_len
    let s := s.updSec (fun c => { c with
      holder := some false, stream := c.stream ++ (nats n 0 1).map (fun i => mget c.rcvBuf i 0) })
    let s := s.set F.secRcvStat_bytes (min F.secRcvStat_bytes.max (s.get F.secRcvStat_bytes + n))
    let s := s.set F.secRcvStat_state 2
    if s.flag F.secRcvCtl_last then streamTaken r s else s

/-- RCV_ABORT: the transfer ends, unless its image is being written. -/
def rcvAbort (s : State) : State :=
  if s.sec.holder.isNone || s.sec.reflashing then s else endTransfer (s.set F.secRcvStat_state 0)

def execRcvAbort (s : State) : Host.Outcome State Fault Refusal := .next (rcvAbort s)

/-- A write of SEC_RCV_CTL. A length outside 1-65,536 is refused, and a go with it. -/
def rcvCtlWrite (v : Nat) (r : ImageReport) (s : State) : State :=
  let len := natBits v 16 0
  let lenOk := decide (1 ≤ len ∧ len ≤ 65536)
  let s := (s.set F.secRcvCtl_last (natBits v 30 30)).set F.secRcvCtl_reflash (natBits v 29 29)
  let s := if lenOk then s.set F.secRcvCtl_len len else s
  let s := if natBit v 28 then rcvAbort s else s
  if natBit v 31 then (if lenOk then rcvGo r s else s.set F.secRcvStat_state 3) else s

def execRcvGo (v : Word32) (r : ImageReport) (s : State) : Host.Outcome State Fault Refusal :=
  .next (rcvCtlWrite (natSetBits v.toNat 31 31 1) r s)

/-- REFLASH_DONE: the slot holds the image. A recovery of the link starts it; one of the management port waits for its
activation, and an update in normal running for a reset (20 R656). ApplyComplete tells the management controller. -/
def reflashDone (s : State) : State :=
  match s.sec.staged with
  | some (m, idOk) =>
    if !s.sec.reflashing then s
    else
      let s := s.updSec (fun c => { c with slot := m.slot, reflashing := false })
      if s.sec.firmware then
        reply 1 0x18 0 [] ({ s with mgt := { s.mgt with pendingActivation := true, updating := false, updBytes := 0 } }.updSec
          (fun c => { c with staged := none, stream := [] }))
      else if s.sec.holder = some true then reply 1 0x18 0 [] s
      else bootImage m idOk true (endTransfer (s.set F.secRcvStat_state 0))
  | none => s

def execReflashDone (s : State) : Host.Outcome State Fault Refusal := .next (reflashDone s)

/-! ## The unlock of debug (19 R648, R649) -/

/-- NEW_NONCE: 256 bits of the random source. -/
def newNonce (s : State) : State :=
  let n := s.freeCount
  let s := (nats 8 0 1).foldl (fun s w => s.set F.secDbgNonce_nonce (Config.freeWord (n + w)).toNat w) s
  { s with freeCount := n + 8 }.updSec (fun c => { c with nonceFresh := true })

def execNewNonce (s : State) : Host.Outcome State Fault Refusal := .next (newNonce s)

/-- A failed submission; after 8 they are refused. What an earlier token has unlocked stays unlocked. -/
def dbgFail (s : State) : State :=
  let s := raise F.secEvtStat_dbg_fail (s.bump F.secDbgStat_fails)
  s.set F.secDbgStat_state (if 8 ≤ s.get F.secDbgStat_fails then 3 else if s.get F.secDbgStat_scope = 0 then 0 else 2)

/-- SUBMIT: the check starts; the nonce is consumed. -/
def submit (s : State) : State :=
  if s.get F.secDbgStat_state = 3 ∨ s.get F.secDbgStat_state = 1 then s
  else
    let fresh := s.sec.nonceFresh
    let s := s.updSec (fun c => { c with nonceFresh := false })
    if fresh then s.set F.secDbgStat_state 1 else dbgFail s

def execSubmit (s : State) : Host.Outcome State Fault Refusal := .next (submit s)

/-- A byte of the token buffer. -/
def tokenByte (s : State) (i : Nat) : Byte := mget s.sec.token i 0

/-- Bytes [lo, lo + n) of the token buffer as a number. -/
def tokenAt (s : State) (lo n : Nat) : Nat := ofLeBytes ((nats n lo 1).map (tokenByte s))

/-- What a token must hold beside its keys and signatures. -/
def tokenForm (s : State) : Bool :=
  tokenAt s 0 4 == 0x4B544244 && tokenAt s 4 2 == 1 && tokenAt s 6 2 == 0 &&
  (nats 4 0 1).all (fun w => tokenAt s (8 + 4 * w) 4 == s.get F.secDevid_id w) &&
  (nats 8 0 1).all (fun w => tokenAt s (24 + 4 * w) 4 == s.get F.secDbgNonce_nonce w) &&
  decide (tokenAt s 56 4 < 4) && tokenAt s 60 4 == 0

/-- Whether the debug key slot holds the digests of the token's public keys. -/
def tokenKeys (s : State) : Bool :=
  s.sec.debugKey.holds ((nats 96 64 1).map (tokenByte s)) ((nats 60 160 1).map (tokenByte s))

/-- Where a debugger is attached, DBG_CTL.halt holds its core (R647). -/
def haltAsked (s : State) : State :=
  if dbgAttached s then
    (nats 1156 0 1).foldl (fun s c =>
      if s.flag F.dbgCtl_halt c then s.updCore c (fun k => { k with halted := true }) else s) s
  else s

/-- TOKEN_CHECK_DONE, with what the check of each signature found. -/
def tokenCheckDone (ecdsaOk hssOk : Bool) (s : State) : State :=
  if s.get F.secDbgStat_state ≠ 1 then s
  else if ecdsaOk && hssOk && tokenForm s && tokenKeys s then
    raise F.secEvtStat_unlock
      (haltAsked ((s.set F.secDbgStat_state 2).set F.secDbgStat_scope (s.get F.secDbgStat_scope ||| tokenAt s 56 4)))
  else dbgFail s

def execTokenCheckDone (ecdsaOk hssOk : Bool) (s : State) : Host.Outcome State Fault Refusal :=
  .next (tokenCheckDone ecdsaOk hssOk s)

/-- RELOCK; a module that refuses submissions goes on refusing. -/
def relock (s : State) : State :=
  let s := (s.set F.secDbgStat_state (if s.get F.secDbgStat_state = 3 then 3 else 0)).set F.secDbgStat_scope 0
  { s with cores := s.cores.map (fun p => (p.1, { p.2 with halted := false, step := false })) }

def execRelock (s : State) : Host.Outcome State Fault Refusal := .next (relock s)

/-- A write of SEC_DBG_CTL. -/
def dbgCtlWrite (v : Nat) (s : State) : State :=
  let s := if natBit v 31 then newNonce s else s
  let s := if natBit v 30 then submit s else s
  if natBit v 29 then relock s else s

end Sys2Proof.Machine
end

