-- ==== Sys2Proof/Machine/Mgmt.lean ====
section
/-! DEFINITION. The management port: I3C addresses, MCTP control, PLDM, SPDM, and firmware update
(19 R641-R644, 20 R652-R658). What the cited DMTF and MIPI standards number is log entry 44. -/

namespace Sys2Proof.Machine

/-- The management port changed. -/
def State.updMgt (s : State) (f : Mgt → Mgt) : State := { s with mgt := f s.mgt }

/-- The port answers while the rails are up (R653). -/
def atPortUp (s : State) (f : State → State) : State := if s.pins.pwrGood then f s else s

/-! ## I3C addresses (R652) -/

/-- A dynamic address is taken by a port that has none. -/
def takeAddress (a : Nat) (s : State) : State :=
  atPortUp s (fun s => if s.flag F.mgtStat_i3c then s else (s.set F.mgtStat_i3c 1).set F.mgtStat_dyn_addr a)

/-- The static address. -/
def staticAddr (s : State) : Nat := 0x60 + s.get F.glbSlot_slot_id

/-- The 48-bit provisioned ID: the manufacturer code, a 1, and word 0 of the device identifier (R652, R673). -/
def provisionedId (s : State) : Nat := s.get F.glbId_mfr * 2 ^ 33 + 2 ^ 32 + s.get F.secDevid_id

/-- ENTDAA: a port without a dynamic address shows its provisioned ID, the most significant byte first, and takes the
address (log entry 44). -/
def entdaa (a : Nat) (s : State) : State :=
  if s.flag F.mgtStat_i3c then s
  else takeAddress a (atPortUp s (reply 3 7 0 (leBytes 6 (provisionedId s)).reverse))

def execEntdaa (addr : BitVec 7) (s : State) : Host.Outcome State Fault Refusal := .next (entdaa addr.toNat s)
def execSetdasa (addr : BitVec 7) (s : State) : Host.Outcome State Fault Refusal := .next (takeAddress addr.toNat s)
def execSetaasa (s : State) : Host.Outcome State Fault Refusal := .next (takeAddress (staticAddr s) s)

/-- RSTDAA: the port answers again at its static address. -/
def rstdaa (s : State) : State := atPortUp s (fun s => (s.set F.mgtStat_i3c 0).set F.mgtStat_dyn_addr 0)

def execRstdaa (s : State) : Host.Outcome State Fault Refusal := .next (rstdaa s)

/-! ## MCTP control (R654) -/

/-- SET_ENDPOINT_ID: 0 and 0xFF are no endpoint identifiers. -/
def setEndpointId (e : Nat) (s : State) : State :=
  atPortUp s (fun s =>
    if e = 0 ∨ e = 255 then reply 0 1 2 [] s else reply 0 1 0 [0, BitVec.ofNat 8 e] (s.set F.mgtStat_eid e))

def execSetEndpointId (eid : Byte) (s : State) : Host.Outcome State Fault Refusal := .next (setEndpointId eid.toNat s)

def execGetEndpointId (s : State) : Host.Outcome State Fault Refusal :=
  .next (atPortUp s (fun s => reply 0 2 0 [BitVec.ofNat 8 (s.get F.mgtStat_eid)] s))

/-- GET_MCTP_VERSION_SUPPORT: 1.3 for the base (0xFF) and control (0), the bindings of PLDM (1) and SPDM (5); no other
message type. -/
def mctpVersion (t : Nat) (s : State) : State :=
  atPortUp s (fun s =>
    if t = 255 ∨ t = 0 then reply 0 4 0 [1, 0xF1, 0xF3, 0xFF, 0] s
    else if t = 1 ∨ t = 5 then reply 0 4 0 ([1] ++ Config.pldmVersion (256 + t)) s
    else reply 0 4 0x80 [] s)

def execGetMctpVersionSupport (msgType : Byte) (s : State) : Host.Outcome State Fault Refusal :=
  .next (mctpVersion msgType.toNat s)

def execGetMessageTypeSupport (s : State) : Host.Outcome State Fault Refusal :=
  .next (atPortUp s (fun s => reply 0 5 0 [2, 1, 5] s))

/-- The bytes of an opaque array. -/
def arr {n : Nat} (f : Fin n → Byte) : List Byte := (List.finRange n).map f

/-- The device identifier's words. -/
def devId (s : State) : List Word32 := (nats 4 0 1).map (fun w => BitVec.ofNat 32 (s.get F.secDevid_id w))

def execGetEndpointUuid (s : State) : Host.Outcome State Fault Refusal :=
  .next (atPortUp s (fun s => reply 0 3 0 (arr (Config.uuid (devId s))) s))

/-! ## PLDM base (R653, R654) -/

/-- A request that firmware alone serves: before it runs, ERROR_NOT_READY. -/
def needsFirmware (cmd : Nat) (f : State → State) (s : State) : State :=
  atPortUp s (fun s => if s.sec.firmware then f s else reply 1 cmd 4 [] s)

/-- The PLDM types served: by the ROM type 0, and in recovery 5; by firmware 0, 2 and 5. -/
def pldmServed (s : State) (t : Nat) : Bool :=
  t == 0 || (s.sec.firmware && (t == 2 || t == 5)) || (recovering s && t == 5)

/-- Commands of a type, as bits. -/
def pldmCommands (t : Nat) : List Nat :=
  if t = 0 then [2, 3, 4, 5] else if t = 2 then [4, 0x0A, 0x0B, 0x11, 0x21, 0x51]
  else [0x10, 0x13, 0x14, 0x15, 0x16, 0x17, 0x18, 0x19, 0x1A, 0x1B, 0x1C, 0x1D]

/-- Bits set in a little-endian field of n bytes. -/
def bitField (n : Nat) (l : List Nat) : List Byte := leBytes n ((l.map (fun b => 2 ^ b)).sum)

def execGettid (s : State) : Host.Outcome State Fault Refusal :=
  .next (atPortUp s (fun s => reply 1 2 0 [Config.pldmTid] s))

/-- A request that names a PLDM type. -/
def typeRequest (cmd t : Nat) (data : List Byte) (s : State) : State :=
  atPortUp s (fun s => if pldmServed s t then reply 1 cmd 0 data s else reply 1 cmd 0x83 [] s)

def execGetpldmversion (pldmType : Byte) (s : State) : Host.Outcome State Fault Refusal :=
  .next (typeRequest 3 pldmType.toNat (Config.pldmVersion pldmType.toNat) s)
def execGetpldmtypes (s : State) : Host.Outcome State Fault Refusal :=
  .next (atPortUp s (fun s => reply 1 4 0 (bitField 8 ([0, 2, 5].filter (pldmServed s))) s))
def execGetpldmcommands (pldmType : Byte) (s : State) : Host.Outcome State Fault Refusal :=
  .next (typeRequest 5 pldmType.toNat (bitField 32 (pldmCommands pldmType.toNat)) s)

/-! ## Events and records (R657, R658) -/

/-- SETEVENTRECEIVER: what the FIFO holds is sent, as records that follow are. -/
def setReceiver (e : Nat) (s : State) : State :=
  let s := reply 1 4 0 [] (s.updMgt (fun m => { m with receiver := some e }))
  s.mgt.fifo.foldl (fun s r => reply 1 0x0A 0 r.bytes s) s

def execSeteventreceiver (eid : Byte) (s : State) : Host.Outcome State Fault Refusal :=
  .next (needsFirmware 4 (setReceiver eid.toNat) s)

/-- POLLFORPLATFORMEVENTMESSAGE: the oldest record, which stays until it is acknowledged. -/
def pollEvent (s : State) : State :=
  match s.mgt.fifo with
  | r :: _ => reply 1 0x0B 0 r.bytes s
  | [] => reply 1 0x0B 0 [] s

def execPollforplatformeventmessage (s : State) : Host.Outcome State Fault Refusal :=
  .next (needsFirmware 0x0B pollEvent s)

/-- PLATFORMEVENTMESSAGE_ACK: a record leaves the FIFO, or an event is no longer pending. -/
def eventAck (a : PldmAck) (s : State) : State :=
  match a with
  | .record seq =>
    let s := s.updMgt (fun m => { m with fifo := m.fifo.filter (fun r => r.seq != seq.toNat) })
    settleAlert (s.set F.mgtStat_fifo s.mgt.fifo.length)
  | .event bit => settleAlert (s.updMgt (fun m => { m with events := m.events.filter (· != bit.val) }))

def execPlatformeventmessageAck (a : PldmAck) (s : State) : Host.Outcome State Fault Refusal :=
  .next (needsFirmware 0x0A (eventAck a) s)

def execGetpdr (handle : Nat) (s : State) : Host.Outcome State Fault Refusal :=
  .next (needsFirmware 0x51 (reply 1 0x51 0 (Config.pldmPdr handle)) s)

/-! ## Sensors (R655) -/

/-- A sensor's reading and its bytes; no other identifier names a sensor. -/
def sensorValue (s : State) (n : Nat) : Option (List Byte) :=
  let l := fun i => s.mgt.latch.getD i 0
  if n = 1 then some (leBytes 2 (l 0)) else if n = 2 then some (leBytes 2 (l 1))
  else if n = 3 then some (leBytes 4 (l 0 * l 1 / 1000000)) else if n = 4 then some (leBytes 8 (l 2))
  else if n = 5 then some (leBytes 2 (hottestReg s F.conTherm_temp 96).toNat)
  else if n = 6 then some (leBytes 2 (hottestReg s F.conDram_temp 40).toNat)
  else if n = 7 then some (leBytes 1 (l 3))
  else if 0x100 ≤ n ∧ n < 0x160 then some (leBytes 2 (s.get F.conTherm_temp (n - 0x100)))
  else if 0x200 ≤ n ∧ n < 0x228 then some (leBytes 2 (s.get F.conDram_temp (n - 0x200)))
  else if n = 0x300 then some (leBytes 1 (s.get F.secBootStat_state))
  else if n = 0x301 then some (leBytes 1 (mirState s)) else if n = 0x302 then some (leBytes 1 (s.get F.hrtStat_band))
  else none

/-- SENSOR_READING. -/
def sensorReading (n : Nat) (s : State) : State :=
  let cmd := if 0x300 ≤ n then 0x21 else 0x11
  match sensorValue s n with
  | some v => reply 1 cmd 0 v s
  | none => reply 1 cmd 0x80 [] s

def execSensorReading (sensor : BitVec 16) (s : State) : Host.Outcome State Fault Refusal :=
  .next (needsFirmware 0x11 (sensorReading sensor.toNat) s)

/-! ## Firmware update (R656, 19 R636, R637) -/

/-- The last block of an update in normal running: VerifyComplete, then the slot is erased and written. -/
def updateCheck (r : ImageReport) (s : State) : State :=
  let x := streamImage s.sec.stream
  let n := imageReason { r with flashOk := true } x s
  let s := reply 1 0x17 n [] s
  if n = 0 then startReflash x r.idOk s
  else (s.updMgt (fun m => { m with updating := false, updBytes := 0 })).updSec (fun c => { c with stream := [] })

/-- A block of an update in normal running. -/
def updateBlock (data : List Byte) (last : Bool) (r : ImageReport) (s : State) : State :=
  if s.sec.reflashing then s
  else
    let s := (s.updMgt (fun m => { m with updating := true, updBytes := m.updBytes + data.length })).updSec
      (fun c => { c with stream := c.stream ++ data })
    if last then updateCheck r s else s

/-- A block of a recovery stream from the management port. -/
def recoveryBlock (data : List Byte) (last : Bool) (r : ImageReport) (s : State) : State :=
  if s.sec.holder == some false then s.set F.secRcvStat_state 3
  else if s.sec.reflashing || s.sec.checkWaits then s
  else
    let s := s.updSec (fun c => { c with holder := some true, stream := c.stream ++ data })
    let s := s.set F.secRcvStat_bytes (min F.secRcvStat_bytes.max (s.get F.secRcvStat_bytes + data.length))
    if last then streamTaken r s else s

/-- FIRMWARE_DATA_RECEIVE: at most 4 KiB of the image. -/
def firmwareData (data : List Byte) (last : Bool) (r : ImageReport) (s : State) : State :=
  atPortUp s (fun s =>
    if 4096 < data.length then reply 1 0x15 1 [] s
    else if s.sec.firmware then updateBlock data last r s
    else if recovering s then recoveryBlock data last r s
    else reply 1 0x15 4 [] s)

def execFirmwareDataReceive (data : List Byte) (last : Bool) (r : ImageReport) (s : State) :
    Host.Outcome State Fault Refusal := .next (firmwareData data last r s)

/-- ACTIVATEFIRMWARE: starts the written image of a recovery, or reports that a reset is awaited. -/
def activate (s : State) : State :=
  atPortUp s (fun s =>
    if s.sec.firmware then reply 1 0x1A (if s.mgt.pendingActivation then 0 else 1) [] s
    else
      match s.sec.staged with
      | some (x, idOk) =>
        if recovering s && !s.sec.reflashing && s.sec.holder == some true then
          bootImage x idOk true (endTransfer (reply 1 0x1A 0 [] s))
        else reply 1 0x1A 1 [] s
      | none => reply 1 0x1A (if recovering s then 1 else 4) [] s)

def execActivatefirmware (s : State) : Host.Outcome State Fault Refusal := .next (activate s)

/-- UPDATE_CANCEL: the slot is as it was, or invalid once it has been erased. -/
def updateCancel (s : State) : State :=
  atPortUp s (fun s =>
    if s.sec.firmware then
      reply 1 0x1D (if s.mgt.updating || s.sec.reflashing then 0 else 1) [] ((s.updMgt (fun m => { m with updating := false, updBytes := 0 })).updSec (fun c => { c with
        reflashing := false, staged := none, stream := [] }))
    else if s.sec.holder == some true then
      reply 1 0x1D 0 [] ((endTransfer s).updSec (fun c => { c with reflashing := false }))
    else reply 1 0x1D (if recovering s then 1 else 4) [] s)

def execUpdateCancel (s : State) : Host.Outcome State Fault Refusal := .next (updateCancel s)

/-! ## SPDM (19 R641-R644, R649) -/

/-- An SPDM request: firmware serves it, and before it runs the answer is ERROR Busy. -/
def spdm (cmd : Nat) (f : State → State) (s : State) : State :=
  atPortUp s (fun s => if s.sec.firmware then f s else reply 2 cmd 3 [] s)

/-- A request of attestation: refused without an identity, while debug is unlocked, and before negotiation. -/
def attest (cmd : Nat) (f : State → State) : State → State :=
  spdm cmd (fun s =>
    if s.mgt.spdm < 3 then reply 2 cmd 4 [] s
    else if !s.flag F.secBootStat_id_valid || s.get F.secDbgStat_state == 2 || s.get F.secDbgStat_scope != 0 then reply 2 cmd 5 [] s
    else f s)

/-- A step of the negotiation, which follows the ones before it. -/
def negotiated (cmd step : Nat) (data : List Byte) : State → State :=
  spdm cmd (fun s =>
    if s.mgt.spdm + 1 < step then reply 2 cmd 4 [] s
    else reply 2 cmd 0 data (s.updMgt (fun m => { m with spdm := step, signed := if step = 1 then none else m.signed })))

def execGetVersion (s : State) : Host.Outcome State Fault Refusal := .next (negotiated 0x84 1 [0x13] s)
def execGetCapabilities (s : State) : Host.Outcome State Fault Refusal := .next (negotiated 0xE1 2 (leBytes 4 0x16) s)

/-- NEGOTIATE_ALGORITHMS: P-384 with SHA-384, or an error. -/
def negotiate (p384 sha384 : Bool) : State → State :=
  if p384 && sha384 then negotiated 0xE3 3 (leBytes 4 4 ++ leBytes 4 0x80 ++ leBytes 4 2)
  else spdm 0xE3 (reply 2 0xE3 1 [])

def execNegotiateAlgorithms (p384 sha384 : Bool) (s : State) : Host.Outcome State Fault Refusal :=
  .next (negotiate p384 sha384 s)

/-- SHA-384 of the certificate chain. -/
def chainDigest : List Byte := sha384 Config.certChain

def execGetDigests (s : State) : Host.Outcome State Fault Refusal :=
  .next (attest 0x81 (fun s => reply 2 0x81 0 ([1] ++ chainDigest) s) s)

/-- Of certificate slots, 0 alone is served. -/
def slotZero (cmd : Nat) (slot : Byte) (f : State → State) : State → State :=
  attest cmd (fun s => if slot = 0 then f s else reply 2 cmd 1 [] s)

def execGetCertificate (slot : Byte) (off len : Nat) (s : State) : Host.Outcome State Fault Refusal :=
  .next (slotZero 0x82 slot (fun s => reply 2 0x82 0 ((Config.certChain.drop off).take len) s) s)

/-- n bytes the spec does not give: a random nonce, or a signature. -/
def freeBytes (k lo n : Nat) : List Byte := (nats n lo 1).map (Config.undefByte k)

/-- A signed response: `data`, a random nonce, and a signature of 96 bytes. An envelope may name it. -/
def signedReply (cmd : Nat) (data : List Byte) (s : State) : State :=
  let k := s.freeCount
  reply 2 cmd 0 (data ++ freeBytes k 0 32 ++ freeBytes k 32 96)
    ({ s with freeCount := k + 1 }.updMgt (fun m => { m with signed := some (k, data) }))

/-- A measurement (R642). -/
def measurement (s : State) (i : Nat) : List Byte :=
  if i = 1 then arr Config.romDigest
  else if i = 2 then s.sec.digest
  else if i = 3 then [BitVec.ofNat 8 (s.get F.secBootStat_svn), BitVec.ofNat 8 (s.get F.secSvn_fused)]
  else [BitVec.ofNat 8 (s.get F.secDbgStat_state), BitVec.ofNat 8 (s.get F.secBootStat_recovered),
    BitVec.ofNat 8 (s.get F.secBootStat_id_valid)]

def execChallenge (slot : Byte) (s : State) : Host.Outcome State Fault Refusal :=
  .next (slotZero 0x83 slot (fun s => signedReply 0x83 chainDigest s) s)

/-- GET_MEASUREMENTS: one index, or all with 0xFF. -/
def measurements (i : Nat) : State → State :=
  attest 0xE0 (fun s =>
    if 1 ≤ i ∧ i ≤ 4 then signedReply 0xE0 (measurement s i) s
    else if i = 255 then signedReply 0xE0 ([1, 2, 3, 4].flatMap (measurement s)) s
    else reply 2 0xE0 1 [] s)

def execGetMeasurements (index : Byte) (s : State) : Host.Outcome State Fault Refusal :=
  .next (measurements index.toNat s)

/-- The SHA-384 digest that the signature of signed response k covers: of the messages it follows and of its own content
(log entry 44). -/
def responseDigest (k : Nat) (data : List Byte) : List Byte := sha384 (Config.transcript k ++ data ++ freeBytes k 0 32)

/-- The bytes of an envelope for leaf q and signed response k. -/
def envelopeBytes (q k : Nat) (data : List Byte) (free : Nat) : List Byte :=
  leBytes 4 0x56454C45 ++ leBytes 2 1 ++ [0, 0] ++ leBytes 8 q ++ responseDigest k data ++ freeBytes k 32 96
    ++ arr Config.hssKey ++ freeBytes free 0 3604

/-- The envelope: at most 16 a second; no signature without a leaf of the reserved block, and each spends its leaf, one that
a droop abandons too (R644, R650; log entry 46 for its answer). -/
def envelope (droop : Bool) (s : State) : State :=
  let sec := s.now / 1000000000
  let n := if s.mgt.envelopeSecond = sec then s.mgt.envelopes else 0
  let q := s.get F.secLms_q
  match s.mgt.signed with
  | none => reply 2 0xFE 4 [] s
  | some (k, data) =>
    if 16 ≤ n then reply 2 0xFE 3 [] s
    else if s.get F.secLmsLimit_limit ≤ q then reply 2 0xFE 3 [] s
    else
      let free := s.freeCount
      let s := ({ s with freeCount := free + 1 }.set F.secLms_q (q + 1)).updMgt (fun m => { m with
        envelopes := n + 1, envelopeSecond := sec })
      if droop then reply 2 0xFE 3 [] (glitchTrip s) else reply 2 0xFE 0 (envelopeBytes q k data free) s

def execVendorDefinedRequest (ask : VendorAsk) (s : State) : Host.Outcome State Fault Refusal :=
  .next (attest 0xFE (fun s => match ask with
    | .hssCert => reply 2 0xFE 0 Config.hssCert s
    | .envelope droop => envelope droop s) s)

def execSpdmUnsupportedRequest (code : Byte) (s : State) : Host.Outcome State Fault Refusal :=
  .next (spdm code.toNat (reply 2 code.toNat 7 []) s)

end Sys2Proof.Machine
end

