-- ==== Sys2Proof/Machine/Resets.lean ====
section
/-! DEFINITION. Warm, engine and context resets (00 R17-R19, 01 R40, R41, 02 R97, R111, 15 R520, R525, 16 R558,
18 R623, 19 R634, R635, 21 R674). -/

namespace Sys2Proof.Machine

/-! ## Warm reset -/

/-- A register's value after a warm reset, field by field (00 R16). -/
def warmValue (r : Reg) (v : Nat) : Nat :=
  (regRow r).rows.foldl (fun a f => match f.warm with | .kept => a | .to w => natSetBits a f.hi f.lo w) v

/-- Every register after a warm reset. -/
def warmRegs (s : State) : State :=
  { s with regs := s.regs.map (fun p => (p.1, BitVec.ofNat 64 (warmValue p.1.1 p.2.toNat))) }

/-- What the units hold beside the registers after a warm reset. -/
def warmUnits (s : State) : State :=
  { pending := s.pending
    freeCount := s.freeCount + 1
    clk := s.clk
    pins := s.pins
    regs := s.regs
    mem := s.mem
    bad := s.bad
    undef := s.undef
    zeroed := s.zeroed
    kiln := { period := s.get F.klnFrameCtl_period_us
              cap := min (s.get F.klnStolenCap_cap_ns) (s.get F.klnFrameCtl_period_us * 250)
              pulses := s.kiln.pulses }
    hearth := { s.hearth with onDieFilled := false, capturing := false, trig := none, pairs := [], waveFree := some s.freeCount }
    cones := { therm := s.cones.therm, dram := s.cones.dram
               tripC := s.cones.tripC, dramC := s.cones.dramC, thrC := s.cones.thrC }
    cores := s.cores.map (fun p => (p.1, { dcache := { lfsr := p.2.dcache.lfsr }, icache := { lfsr := p.2.icache.lfsr } }))
    upkeep := { s.upkeep with cal := [], holds := [], granted := [], late := [] }
    ras := { s.ras with
      segs := [], retesting := [], withheld := s.ras.withheld.filter (· ∉ s.ras.retesting)
      ring := [], keys := [], since := 0, cold := false, copied := 0, nextCopy := 1 }
    sec := { slot := s.sec.slot, lms := s.sec.lms, keys := s.sec.keys, debugKey := s.sec.debugKey
             distSet := s.sec.distSet }
    mgt := { replies := s.mgt.replies, latch := s.mgt.latch, ibi := s.mgt.ibi }
    resets := { warm := true, byPin := !s.pins.modResetN } }

/-- Ports under repair are ready again; with wipe_warm near and far memory fill again, without training (19 R634). -/
def warmMemory (s : State) : State :=
  let s := (nats 32 0 1).foldl (fun s p => if portState s p = 5 then s.set F.fmcStat_state 3 p else s) s
  if s.flag F.secBootCtl_wipe_warm then
    let s := s.updHearth (fun h => { h with nearFilled := false })
    if s.flag F.fmcMap_start then
      (nats 32 0 1).foldl (fun s p => if portState s p = 3 then s.set F.fmcStat_state 2 p else s)
        ((s.set F.fmcGlbStat_fill 1).set F.fmcGlbStat_fill_pct 0)
    else s
  else s

/-- A warm reset. A module that failed for its far memory, or that halted for glitches, stays so (19 R633, R650). -/
def warmReset (s : State) : State :=
  let st := s.get F.secBootStat_state
  let t := warmMemory (warmUnits (warmRegs s))
  let t := t.set F.klnUsable_usable_ns (usableNs (t.get F.klnFrameCtl_period_us) (t.get F.klnStolenCap_cap_ns))
  settleAlert (if st = 6 then (t.set F.secBootStat_state 6).set F.secBootStat_reason 8
    else if st = 7 then t.set F.secBootStat_state 7 else t)

/-- MOD_RESET_ASSERT: the filter accepts the low. Before the rails are up it requests nothing (01 R41). -/
def modResetAssert (s : State) : State :=
  if !s.pins.modResetN then s
  else
    let s := { s with pins := { s.pins with modResetN := false } }
    if !railsUp s then s
    else if s.resets.warm then { s with resets := { s.resets with byPin := true } }
    else warmReset s

def execModResetAssert (s : State) : Host.Outcome State Fault Refusal := .next (modResetAssert s)

/-- A warm reset ends: a module that had halted starts again, and its far ports leave self refresh (17 R571, R572,
19 R634). -/
def endWarm (s : State) : State :=
  ({ s with
    resets := { s.resets with warm := false, byPin := false }
    upkeep := { s.upkeep with selfRefresh := false } }.set F.hrtStat_halted 0).set F.hrtStat_parked 0

/-- MOD_RESET_RELEASE. -/
def modResetRelease (s : State) : State :=
  let s := { s with pins := { s.pins with modResetN := true } }
  if s.resets.byPin then endWarm s else s

def execModResetRelease (s : State) : Host.Outcome State Fault Refusal := .next (modResetRelease s)

/-- RST_DELAY_EXPIRY: 1 µs after the CPL's flit has been acknowledged. -/
def rstDelay (s : State) : State :=
  if s.resets.rstWaits.isSome && rstAcked s && !s.resets.warm then warmReset s else s

def execRstDelayExpiry (s : State) : Host.Outcome State Fault Refusal := .next (rstDelay s)

/-- RST_RESET_END: 10 µs after it began; a pin held low holds the reset. -/
def rstResetEnd (s : State) : State :=
  if s.resets.warm && !s.resets.byPin then endWarm s else s

def execRstResetEnd (s : State) : Host.Outcome State Fault Refusal := .next (rstResetEnd s)

/-! ## Engine and context resets (00 R17, 21 R674) -/

/-- A register element returns to its cold value. -/
def coldReg (r : Reg) (i : Nat) (s : State) : State := s.setReg r i (BitVec.ofNat 64 (coldValue r))

/-- A queue's lists are cancelled and its registers return to their cold values; the head keeps its count. -/
def resetQueue (q : Nat) (s : State) : State :=
  let s := cancelQueue q s
  coldReg .engDbTail q (coldReg .klnQstat q (coldReg .klnQctl q (coldReg .klnQbase q s)))

/-- Combine entries of the contexts `f` names are discarded at every router, and with them what is on its way of their
rounds, which are never delivered (10 R388). -/
def dropCombines (f : Nat → Bool) (s : State) : State :=
  { s with
    combEntries := s.combEntries.filter (fun p => !f p.2.hdr.ctx.toNat)
    combs := s.combs.filter (fun p => !f p.hdr.ctx.toNat)
    rounds := s.rounds.filter (fun p => !f p.hdr.ctx.toNat) }

/-- Engine e is reset. -/
def resetEngine (e : Nat) (s : State) : State :=
  let s := (nats 16 (16 * e) 1).foldl (fun s q => resetQueue q s) s
  if e = 0 then dropCombines (fun _ => true) s
  else if e ≤ 8 then coldReg .klnXeNumstat (e - 1) (coldReg .klnXeAmax (e - 1) s)
  else s

/-- Context x is reset. -/
def resetContext (x : Nat) (s : State) : State :=
  let s := (nats 11 0 1).foldl (fun s e => resetQueue (16 * e + x) s) s
  let s := (nats 64 0 1).foldl (fun s m =>
    if s.get F.klnCrctl_owner m = x then (s.set F.klnCrctl_en 0 m).set F.klnCrhead_consumed 0 m else s) s
  let s := { s with regs := s.regs.filter (fun p =>
    !((p.1.1 == .klnHtabW0 || p.1.1 == .klnHtabW1) && p.1.2 / 64 == x) && !(p.1.1 == .synVtab && p.1.2 / 1024 == x)) }
  dropCombines (· == x) s

/-- ENGINE_RESET: a write of GLB_ENG_RST. A bit that reads 1 already has no further effect. -/
def engineReset (mask : Nat) (s : State) : State :=
  let new := (nats 11 0 1).filter (fun e => natBit mask e && !natBit (s.get F.glbEngRst_eng) e)
  new.foldl (fun s e => resetEngine e s) (s.set F.glbEngRst_eng (s.get F.glbEngRst_eng ||| mask % 2048))

/-- A request in whose cycle a wider reset, cold or warm, is requested too is discarded (00 R19). -/
def execEngineReset (ask : ResetAsk 11) (s : State) : Host.Outcome State Fault Refusal :=
  .next (if ask.wider then s else engineReset ask.mask.toNat s)

/-- CONTEXT_RESET: a write of GLB_CTX_RST. -/
def contextReset (mask : Nat) (s : State) : State :=
  let new := (nats 16 0 1).filter (fun x => natBit mask x && !natBit (s.get F.glbCtxRst_ctx) x)
  new.foldl (fun s x => resetContext x s) (s.set F.glbCtxRst_ctx (s.get F.glbCtxRst_ctx ||| mask % 65536))

/-- A request in whose cycle a wider reset, cold, warm or of an engine, is requested too is discarded (00 R19). -/
def execContextReset (ask : ResetAsk 16) (s : State) : Host.Outcome State Fault Refusal :=
  .next (if ask.wider then s else contextReset ask.mask.toNat s)

/-- Whether what a queue's engine sent has been accepted: writes to host memory by the link, crossed grants returned. -/
def queueQuiet (s : State) (q : Nat) : Bool :=
  let mine := fun t : Tx => t.kind == .mwr && decide (2000 ≤ t.agent) && (t.agent - 2000) % 176 == q
  s.bundles.all (fun p => p.1.1 != .vcl || (p.2.waiting.all (fun t => !mine t) && p.2.replay.all (fun x => !mine x.tx))) &&
  s.upkeep.late.all (fun l => !(decide (2000 ≤ l.agent) && (l.agent - 2000) % 176 == q)) &&
  s.syncAns.all (fun r => r.agent != 1156 + q) && s.syncOps.all (fun o => o.agent != 1156 + q)

/-- Whether the stops of cores that `f` selects are complete. -/
def coresStopped (s : State) (f : Core → Bool) : Bool :=
  s.cores.all (fun p => decide (1152 ≤ p.1) || p.2.ending.isNone || !f p.2)

/-- ENGINE_RESET_DONE: of engine i, or of context i. -/
def engineResetDone (ctx : Bool) (i : Nat) (s : State) : State :=
  if ctx then
    if natBit (s.get F.glbCtxRst_ctx) i && (nats 11 0 1).all (fun e => queueQuiet s (16 * e + i)) &&
       coresStopped s (fun k => k.sc.ctx.toNat == i) then hwClear F.glbCtxRst_ctx 0 (2 ^ i) s
    else s
  else if decide (i < 11) && natBit (s.get F.glbEngRst_eng) i && (nats 16 (16 * i) 1).all (queueQuiet s) &&
     (i != 0 || coresStopped s (fun _ => true)) then hwClear F.glbEngRst_eng 0 (2 ^ i) s
  else s

def execEngineResetDone (ctx : Bool) (i : Fin 16) (s : State) : Host.Outcome State Fault Refusal :=
  .next (engineResetDone ctx i.val s)

end Sys2Proof.Machine
end

