-- ==== Sys2Proof/Machine/Registers.lean ====
section
/-! DEFINITION. Reads and writes of MMIO registers by the host, a service core or machine-level code (00 R11-R15,
15 R510, 19 R632, R645-R647, 21 R670, R671), and host access to near and far memory. -/

namespace Sys2Proof.Machine

/-! ## Where a register lies (21 R671, R676) -/

/-- The element of register r, and the byte of it, that lies at an offset of the MMIO region. -/
def regHit (off : Nat) (r : Reg) : Option (Nat × Nat) :=
  let w := regRow r
  let o := off - w.base
  let i := if w.count = 1 then 0 else o / w.stride
  let b := if w.count = 1 then o else o % w.stride
  if w.base ≤ off ∧ i < w.count ∧ b < (if w.wide then 8 else 4) then some (i, b) else none

/-- The register that lies at an offset: its element and the byte of it. -/
def resolve (off : Nat) : Option (Reg × Nat × Nat) := allRegs.findSome? (fun r => (regHit off r).map (fun p => (r, p)))

/-! ## Debug windows (19 R645, R647) -/

/-- DBG_STAT.run: 0 running, 1 idle, 2 halted, 3 stopped. A core halts at an instruction boundary. -/
def runCode (k : Core) : Nat :=
  match k.run with
  | .idle => 1
  | .running =>
    let still := match k.wait with | .none | .retry | .idle => true | _ => false
    if k.halted && !k.step && still && k.sc.divide.isNone then 2 else 0
  | _ => 3

/-- The register DBG_REG_SEL selects at core c. -/
def dbgRead (c : Nat) (s : State) : Nat :=
  let sel := s.get F.dbgRegSel_reg c
  let k := s.core c
  match sel / 4096 with
  | 0 => if sel % 32 = 0 then 0 else (mget k.sc.g (sel % 32) 0).toNat
  | 1 => if csrKnown c (sel % 4096) then csrVal c (sel % 4096) s else 0
  | 2 => if isService c then 0 else natBits (k.vr (natBits sel 9 5)).toNat (64 * natBits sel 3 0 + 63) (64 * natBits sel 3 0)
  | 3 => k.sc.pc.toNat
  | _ => 0

/-- The register DBG_REG_SEL selects at core c set to v. A CSR write that an instruction could not make changes
nothing. -/
def dbgWrite (c v : Nat) (s : State) : State :=
  let sel := s.get F.dbgRegSel_reg c
  let k := s.core c
  match sel / 4096 with
  | 0 => s.updSc c (fun x => x.setG (sel % 32) (BitVec.ofNat 64 v))
  | 1 =>
    let n := sel % 4096
    if !csrKnown c n || csrReadOnly c n then s
    else if n = 0x40 then
      (if (tcfgCheck v).isSome ∨ k.matq ≠ [] ∨ k.landings ≠ [] then s else tcfgDo c v s)
    else match csrPut c n v s with | .ok t => t | .error _ => s
  | 2 =>
    if isService c then s
    else
      let j := natBits sel 3 0
      s.setV c (natBits sel 9 5) (BitVec.ofNat 1024 (natSetBits (k.vr (natBits sel 9 5)).toNat (64 * j + 63) (64 * j) v))
  | 3 => s.updSc c (fun x => { x with pc := BitVec.ofNat 48 (v % 2 ^ 48 / 4 * 4), slot := none })
  | _ => s

/-- A write of DBG_CTL: halt acts while a debugger is attached; step lets a halted core run one instruction, and the
core then halts again. -/
def dbgCoreCtl (c v : Nat) (s : State) : State :=
  let halt := natBit v 31
  let s := s.set F.dbgCtl_halt (if halt then 1 else 0) c
  s.updCore c (fun k =>
    if natBit v 30 && runCode k == 2 then { k with step := true }
    else { k with halted := halt && (k.halted || dbgAttached s) })

/-- A write of DBG_REG_DATA. -/
def dbgRegData (c v : Nat) (s : State) : State :=
  if runCode (s.core c) = 2 then dbgWrite c v s else s.set F.dbgStat_err 1 c

/-- A write of DBG_SWI (04 R183): ip_mswi and ip_sswi of core c. -/
def swiWrite (c v : Nat) (s : State) : State :=
  s.updSc c (fun x => { x with
    ip := x.ip ||| (if natBit v 1 then 0x80 else 0) ||| (if natBit v 0 then 8 else 0) })

/-! ## Reading a register -/

/-- KLN_QSTAT.state of queue q (02 R76, R92), by its oldest list whose record is still to be written: stalled where only
the room of its ring holds it, whether it has ended or was due at a firing tick. A disabled queue that holds no list is
idle, as a reset leaves it with its head kept (R97). -/
def queueStat (s : State) (q : Nat) : Nat :=
  match (s.queue q).lists with
  | [] => if s.get F.engDbTail_tail q = s.get F.engDbHead_head q || !s.flag F.klnQctl_en q then 0 else 1
  | l :: t =>
    match (l :: t).find? (fun l => !l.recording && !l.out) with
    | none => 2
    | some l =>
      if waitsRoom s q l && (l.ended.isSome || (l.fired.isNone && l.stalled)) then 3
      else if l.fired.isSome || l.ended.isSome then 2 else 1

/-- A register element as a read shows it: fields that hardware computes, and what a read may not see as 0. -/
def regValue (s : State) (r : Reg) (i : Nat) : Nat :=
  let v := (s.reg r i).toNat
  match r with
  | .klnQstat => natSetBits v 31 30 (queueStat s i)
  | .glbTime => s.now % 2 ^ 64
  | .mshMonTime => if s.flag F.mshMonSel_en i then (s.clk + 2 ^ 48 - v % 2 ^ 48) % 2 ^ 48 else 0
  | .mirStat =>
    let mask := (mirBundles s).foldl (fun a b => a + 2 ^ b) 0
    let stalled := (mirBundles s).any (fun b =>
      (s.bundle .mir b).waiting.any (fun t => t.kind == .mfwd && t.tag == 0 && decide ((s.bundle .mir b).posted < t.slots)))
    natSetBits (natSetBits v 21 19 mask) 18 18 (if stalled then 1 else 0)
  | .fmcScrubStat => natSetBits (natSetBits v 31 30 (farMode s i)) 29 29 (if farBehind s i then 1 else 0)
  | .nmcScrubStat => natSetBits (natSetBits v 31 30 (nearMode s i)) 29 29 (if nearBehind s i then 1 else 0)
  | .fmcGlbScrub => farWorst s
  | .nmcGlbScrub => nearWorst s
  | .rasFallowStat => if s.flag F.rasFallowCtl_en then v else natSetBits v 31 30 3
  | .dbgSwi =>
    let ip := (s.core i).sc.ip.toNat
    (if natBit ip 7 then 2 else 0) + (if natBit ip 3 then 1 else 0)
  | .dbgStat => natSetBits v 31 30 (runCode (s.core i))
  | .dbgRegData => if runCode (s.core i) = 2 then dbgRead i s else 0
  | .dbgSynSel => if synUnlocked s then v else 0
  | .dbgSynSet => 0
  | .dbgSynStat =>
    if synUnlocked s then
      match mget s.waiters (s.get F.dbgSynSel_phys) [] with
      | [] => 0
      | w :: _ => 2 ^ 31 + w.2.1
    else 0
  | .dbgSynWaiters => if synUnlocked s then (mget s.waiters (s.get F.dbgSynSel_phys) []).length else 0
  | _ => v

/-- The rc fields of a register element after a read (00 R12). -/
def rcClear (r : Reg) (i : Nat) (s : State) : State :=
  if (regRow r).rows.any (fun f => f.acc == .rc) then
    s.setReg r i (BitVec.ofNat 64
      ((regRow r).rows.foldl (fun v f => if f.acc = .rc then natSetBits v f.hi f.lo 0 else v) (s.reg r i).toNat))
  else s

/-- What lies at an offset that no register of R676 names: the buffers of Hearth, the RAS block and the security
block, or reserved (21 R670). -/
def bufferByte (s : State) (off : Nat) : Byte :=
  if 0x1E1_0000 ≤ off ∧ off < 0x1E2_0000 then
    let o := off - 0x1E1_0000
    match s.hearth.waveFree with
    | some n => Config.undefByte n o
    | none => BitVec.ofNat 8 ((s.hearth.wave.getD (o / 4) 0).toNat / 2 ^ (8 * (o % 4)))
  else if 0x201_0000 ≤ off ∧ off < 0x205_0000 then
    let o := off - 0x201_0000
    (mget s.ras.ring (o / 64) []).getD (o % 64) 0
  else if 0x211_0000 ≤ off ∧ off < 0x212_0000 then mget s.sec.rcvBuf (off - 0x211_0000) 0
  else if 0x212_0000 ≤ off ∧ off < 0x212_1000 then mget s.sec.token (off - 0x212_0000) 0
  else 0

/-- The register of 64 bits that an aligned 8-byte access reaches whole (00 R11). -/
def wholeReg (off : Nat) : Option (Reg × Nat) :=
  match resolve off with
  | some (r, i, 0) => if (regRow r).wide then some (r, i) else none
  | _ => none

/-- A 32-bit read. -/
def read32 (off : Nat) (s : State) : Nat × State :=
  match resolve off with
  | some (r, i, b) => (regValue s r i / 2 ^ (8 * b) % 2 ^ 32, rcClear r i s)
  | none => (ofLeBytes ((nats 4 off 1).map (bufferByte s)), s)

/-- Whether an agent reaches an offset of the debug block: the host reaches DBG_SWI always, and the rest of a window
only as a debugger (19 R646). The sync-object page has its own lock. -/
def debugReach (host : Bool) (s : State) (off : Nat) : Bool :=
  !host || decide (off < 0x300_0000) || decide (0x3FF_0000 ≤ off) || off % 4096 == 0x40 || dbgAttached s

/-- A read of 4 or 8 aligned bytes: one 64-bit register, or 32-bit ones, the lower first (21 R670). -/
def regRead (host : Bool) (off n : Nat) (s : State) : Nat × State :=
  let part (o : Nat) (s : State) : Nat × State := if debugReach host s o then read32 o s else (0, s)
  if n = 4 then part off s
  else match wholeReg off with
    | some (r, i) => if debugReach host s off then (regValue s r i, rcClear r i s) else (0, s)
    | none =>
      let a := part off s
      let b := part (off + 4) a.2
      (a.1 + b.1 * 2 ^ 32, b.2)

/-! ## Handle-table entries (08 R305, R306, 21 R668) -/

/-- Whether n bytes from a lie wholly in the region of a class. -/
def inClass (cls a n : Nat) : Bool :=
  n == 0 || (decide (a + n ≤ 2 ^ 48) &&
  match cls, regionOf a, regionOf (a + n - 1) with
  | 0, .spad j, .spad k => j == k || decide (1152 ≤ j ∧ 1152 ≤ k)
  | 1, .near, .near => decide (a < 0x0280_0000_0000) == decide (a + n - 1 < 0x0280_0000_0000)
  | 2, .far, .far => true
  | 3, .host, .host => true
  | _, _, _ => false)

/-- The checks of a valid entry: word 0 against the length held. -/
def htabOk (v len : Nat) : Bool :=
  let cls := natBits v 59 58
  let x := natBit v 57
  natBits v 62 60 == 0 && natBits v 54 48 == 0 && v % 8 == 0 && !(x && natBit v 56) && !(x && (cls == 0 || cls == 3)) &&
  inClass cls (v % 2 ^ 48) len &&
  (cls != 0 || len == 0 || decide ((v % 2 ^ 48 - 0x0300_0000_0000) / 0x20_0000 < 1152))

/-- A write of KLN_HTAB_W0, entry i counted over the contexts. -/
def htabW0Put (i v : Nat) (s : State) : State :=
  if natBit v 63 && !htabOk v (s.get F.klnHtabW1_length i) then klnRefuse s
  else s.setReg .klnHtabW0 i (BitVec.ofNat 64
    (natBits v 63 63 * 2 ^ 63 + natBits v 59 55 * 2 ^ 55 + v % 2 ^ 48))

/-- A write of KLN_HTAB_W1. -/
def htabW1Put (i v : Nat) (s : State) : State :=
  if s.flag F.klnHtabW0_valid i then klnRefuse s else s.set F.klnHtabW1_length (v % 2 ^ 48) i

/-! ## Writing a register -/

/-- A value written by the access codes of the fields (00 R12). -/
def plainPut (r : Reg) (i v : Nat) (s : State) : State :=
  let put (old : Nat) (f : FieldRow) : Nat :=
    match f.acc with
    | .rw => natSetBits old f.hi f.lo (natBits v f.hi f.lo)
    | .w1c => natSetBits old f.hi f.lo (natBits old f.hi f.lo &&& (2 ^ (f.hi + 1 - f.lo) - 1 - natBits v f.hi f.lo))
    | .w1s => natSetBits old f.hi f.lo (natBits old f.hi f.lo ||| natBits v f.hi f.lo)
    | _ => old
  s.setReg r i (BitVec.ofNat 64 ((regRow r).rows.foldl put (s.reg r i).toNat))

/-- A write of VCL_CTL, VCL_CTX_MAP or VCL_FSYNC_ADDR that R524 refuses. -/
def vclBad (r : Reg) (v : Nat) : Bool :=
  match r with
  | .vclCtl => natBits v 29 28 == 3 || decide (natBits v 15 0 < 10)
  | .vclCtxMap => (nats 16 0 1).any (fun c => natBits v (2 * c + 1) (2 * c) == 3)
  | _ => !isHostAddr (natBits v 47 4 * 16)

/-- Whether a mirror region of R556 is allowed. -/
def mirRegionOk (base len : Nat) : Bool :=
  decide (base + len ≤ 0x0168_0000_0000) || (decide (0x0200_0000_0000 ≤ base) && decide (base + len ≤ 0x0209_0000_0000))

/-- The states in which mode and regions are fixed (16 R555). -/
def mirFixed (s : State) : Bool := mirState s ∈ [1, 3, 4, 6, 7, 9]

/-- A write to a register of the mirror engine that is refused. -/
def mirBad (r : Reg) (i v : Nat) (s : State) : Bool :=
  match r with
  | .mirCtl => decide (2 ≤ natBits v 29 28) || (mirFixed s && natBits v 29 28 != s.get F.mirCtl_mode)
  | .mirWitnessAddr | .mirPeerWitnessAddr => !isHostAddr (natBits v 47 4 * 16)
  | .mirCadence => decide (12 < natBits v 15 12) || decide (12 < natBits v 11 8) || decide (12 < natBits v 7 4) ||
      decide (12 < natBits v 3 0)
  | .mirRegionBase => mirFixed s ||
      (natBit v 63 && !mirRegionOk (natBits v 47 12 * 4096) (s.get F.mirRegionLen_len i * 4096))
  | .mirRegionLen => mirFixed s ||
      (s.flag F.mirRegionBase_en i && !mirRegionOk (s.get F.mirRegionBase_base i * 4096) (natBits v 47 12 * 4096))
  | _ => false

/-- Whether a ring of n bytes lies wholly in the host region. -/
def hostRing (base n : Nat) : Bool := isHostAddr base && decide (base + n ≤ 2 ^ 48)

/-- Whether a control write of a host ring is refused: size out of range, a change of size while enabled, or an enable
of a ring that is not wholly in the host region. -/
def ringCtlBad (en : Bool) (size base slot v : Nat) : Bool :=
  let j := natBits v 4 0
  decide (j < 6) || decide (16 < j) || (en && j != size) || (natBit v 31 && !en && !hostRing base (slot * 2 ^ j))

/-- A write of RAS_HRING_CTL (18 R617, R622). -/
def hringCtlPut (v : Nat) (s : State) : State :=
  let was := s.flag F.rasHringCtl_en
  if ringCtlBad was (s.get F.rasHringCtl_size_log2) (s.get F.rasHringBase_base * 4096) 64 v then raise F.rasEvtStat_cfg_err s
  else
    let s := plainPut .rasHringCtl 0 v s
    if natBit v 31 && !was then
      { s.set F.rasHringHead_consumed 0 with ras := { s.ras with copied := 0, nextCopy := s.get F.rasSeq_last + 1 } }
    else s

/-- A write of MGT_TEL_CTL (20 R659, R664). -/
def telCtlPut (v : Nat) (s : State) : State :=
  let was := s.flag F.mgtTelCtl_en
  if ringCtlBad was (s.get F.mgtTelCtl_size_log2) (s.get F.mgtTelBase_base * 4096) 128 v then s
  else
    let s := plainPut .mgtTelCtl 0 v s
    if natBit v 31 && !was then { s.set F.mgtTelHead_consumed 0 with mgt := { s.mgt with snaps := 0, overruns := 0 } }
    else s

/-- The verdict of a recovered image when a register write alone starts its check: free (log entry 8). -/
def freeReport (w : Word64) : ImageReport :=
  let n := w.toNat
  { flashOk := true, ecdsaOk := natBit n 0, hssOk := natBit n 1, idOk := natBit n 2 }

/-- A register element written whole with v: the registers whose writes do more than their access codes say, then the
rest. -/
def regPut (r : Reg) (i v : Nat) (s : State) : State :=
  match r with
  | .klnFrameCtl => frameCtlWrite v s
  | .engDbTail => doorbell i v s
  | .klnQbase => qbaseWrite i v s
  | .klnQctl => qctlWrite i v s
  | .klnCrbase => crbaseWrite i v s
  | .klnCrctl => crctlWrite i v s
  | .klnCrcoal => crcoalWrite i v s
  | .klnXeAmax => s.set F.klnXeAmax_mag (magOf v) i
  | .klnHtabW0 => htabW0Put i v s
  | .klnHtabW1 => htabW1Put i v s
  | .nmcRepair => nmcRepairWrite i v s
  | .nmcScrubCtl => nearScrubCtlWrite i v s
  | .fmcMap => fmcMapWrite v s
  | .fmcCalCtl => calCtlWrite i v s
  | .fmcRepair => fmcRepairWrite i v s
  | .fmcScrubCtl => farScrubCtlWrite i v s
  | .mshCmbCtl => if natBits v 31 16 = 0 then s else plainPut r i v s
  | .mshMonSel => mshMonSelWrite i v s
  | .dbgSynSel => if synUnlocked s then plainPut r i v s else s
  | .dbgSynSet => dbgSynSet (BitVec.ofNat 32 v) [] s
  | .vclCtl | .vclCtxMap | .vclFsyncAddr =>
    if vclBad r v then raise F.vclEvtStat_cfg_err s else plainPut r i v s
  | .vclBctl => bctlWrite .vcl i v s
  | .mirBctl => bctlWrite .mir i v s
  | .mirCtl => if mirBad r i v s then raise F.mirEvtStat_cfg_err s else soloBundles (plainPut r i v s)
  | .mirWitnessAddr | .mirPeerWitnessAddr | .mirCadence | .mirRegionBase | .mirRegionLen =>
    if mirBad r i v s then raise F.mirEvtStat_cfg_err s else plainPut r i v s
  | .hrtEvtThr => evtThrWrite v s
  | .hrtWaveCtl => waveCtlWrite v s
  | .conThermCtl => thermCtlWrite v s
  | .conDroopCtl => droopCtlWrite v s
  | .rasReplayCtl => if 64 < natBits v 23 16 then raise F.rasEvtStat_cfg_err s else plainPut r i v s
  | .rasCoalCtl => if natBits v 15 0 = 0 then raise F.rasEvtStat_cfg_err s else plainPut r i v s
  | .rasHringBase =>
    if hostRing (natBits v 47 12 * 4096) (64 * 2 ^ s.get F.rasHringCtl_size_log2) then plainPut r i v s
    else raise F.rasEvtStat_cfg_err s
  | .rasHringCtl => hringCtlPut v s
  | .rasRetired => retiredWrite i v s
  | .dbgCtl => dbgCoreCtl i v s
  | .dbgSwi => swiWrite i v s
  | .dbgRegData => dbgRegData i v s
  | .secRcvCtl => rcvCtlWrite v (freeReport (Config.freeWord s.freeCount)) { s with freeCount := s.freeCount + 1 }
  | .secDbgCtl => dbgCtlWrite v s
  | .mshDistSvc => mshDistSvcWrite (BitVec.ofNat 32 v) s
  | .mgtCtl => if natBits v 7 6 = 0 then settleAlert (plainPut r i v s) else s
  | .mgtTelBase =>
    if hostRing (natBits v 47 12 * 4096) (128 * 2 ^ s.get F.mgtTelCtl_size_log2) then plainPut r i v s else s
  | .mgtTelCtl => telCtlPut v s
  | .glbEngRst => engineReset (v % 2048) s
  | .glbCtxRst => contextReset (v % 65536) s
  | _ => plainPut r i v s

/-- The rw fields of a register element as it reads, what a half write leaves of the other half (00 R11). -/
def heldRw (r : Reg) (i : Nat) (s : State) : Nat :=
  let v := if r = .dbgRegData then regValue s r i else (s.reg r i).toNat
  (regRow r).rows.foldl (fun a f => if f.acc = .rw then natSetBits a f.hi f.lo (natBits v f.hi f.lo) else a) 0

/-- A buffer byte written by software: a chunk, but while it is busy; a token, but while it is checked. -/
def bufferPut (s : State) (off : Nat) (v : Byte) : State :=
  if 0x211_0000 ≤ off ∧ off < 0x212_0000 then
    (if s.get F.secRcvStat_state = 1 then s
     else { s with sec := { s.sec with rcvBuf := mput s.sec.rcvBuf (off - 0x211_0000) v } })
  else if 0x212_0000 ≤ off ∧ off < 0x212_1000 then
    (if s.get F.secDbgStat_state = 1 then s
     else { s with sec := { s.sec with token := mput s.sec.token (off - 0x212_0000) v } })
  else s

/-- A 32-bit write. -/
def write32 (off v : Nat) (s : State) : State :=
  match resolve off with
  | some (r, i, b) =>
    if !(regRow r).wide then regPut r i v s
    else
      let h := heldRw r i s
      regPut r i (if b = 0 then h / 2 ^ 32 * 2 ^ 32 + v else h % 2 ^ 32 + v * 2 ^ 32) s
  | none => ((nats 4 0 1).zip (leBytes 4 v)).foldl (fun s p => bufferPut s (off + p.1) p.2) s

/-- A write of 4 or 8 aligned bytes. -/
def regWrite (host : Bool) (off n v : Nat) (s : State) : State :=
  let part (o v : Nat) (s : State) : State := if debugReach host s o then write32 o (v % 2 ^ 32) s else s
  if n = 4 then part off v s
  else match wholeReg off with
    | some (r, i) => if debugReach host s off then regPut r i (v % 2 ^ 64) s else s
    | none => part (off + 4) (v / 2 ^ 32) (part off v s)

/-! ## The host's accesses (15 R508-R510, R516, 19 R627, R632) -/

/-- A refused host access. -/
def hostRefuse (s : State) : State := raise F.vclEvtStat_proto_err s

/-- Whether the host may make an access of n bytes to registers at an offset now. -/
def hostRegOk (s : State) (off n : Nat) : Bool :=
  (n == 4 || n == 8) && off % n == 0 && decide (off + n ≤ 0x400_0000) &&
  (s.get F.secBootStat_state == 4 || decide (off < 0x10_0000) || (decide (0x210_0000 ≤ off) && decide (off < 0x220_0000)))

/-- A host register read on bundle b. One whose request the mesh poisons reads nothing; poison either way is answered as
an uncorrectable read (10 R385, 15 R516). -/
def hostRegRead (v : Via) (tag off n : Nat) (x : HomeReport) (s : State) : State :=
  let b := v.bundle
  if !usable s .vcl b then s
  else if hostRegOk s off n then
    let t := transit x.inbound (meterRegs (bundleXY .vcl b) off true s)
    if t.2 then answerHost v tag 2 [] 1332 (transit x.answer t.1).1
    else
      let r := regRead true off n t.1
      let u := transit x.answer r.2
      if u.2 then answerHost v tag 2 [] 1332 u.1 else answerHost v tag 0 (leBytes n r.1) 1332 u.1
  else hostRefuse (answerHost v tag 4 [] 1332 s)

/-- A host register write on bundle b. A poisoned one writes nothing: a register has no code that could hold the poison
(log entry 56). -/
def hostRegWrite (b off n v : Nat) (poison : Bool) (x : HomeReport) (s : State) : State :=
  if !usable s .vcl b then s
  else if hostRegOk s off n then
    let t := transit x.inbound (meterRegs (bundleXY .vcl b) off false s)
    if t.2 || poison then t.1 else regWrite true off n v t.1
  else hostRefuse s

/-- The device address of an offset of window 1 or 2, when n bytes from it lie in populated memory that the host may
reach. -/
def hostMem (s : State) (window off n : Nat) : Option Nat :=
  let a := if window = 1 then 0x0200_0000_0000 + off else off
  let r := if window = 1 then Region.near else .far
  if (window = 1 ∨ window = 2) ∧ 1 ≤ n ∧ n ≤ 256 ∧ a % 256 + n ≤ 256 ∧ off < (if window = 1 then 2 ^ 40 else 2 ^ 41) ∧
     regionOf a = r ∧ regionOf (a + n - 1) = r ∧ s.get F.secBootStat_state = 4 then some a else none

/-- HRD: a read is served by a register or at its home; it waits while the home is held. -/
def hrd (v : Via) (tag window off n : Nat) (x : HomeReport) (s : State) : State :=
  let b := v.bundle
  if window = 0 then hostRegRead v tag off n x s
  else if !usable s .vcl b then s
  else match hostMem s window off n with
    | none => hostRefuse (answerHost v tag 4 [] 1332 s)
    | some a =>
      if !rangeServes s a n then s else
      let t := transit x.inbound (meterEngine (bundleXY .vcl b) (homeXY (homeOf s a)) s)
      let r := if t.2 then (t.1, none) else homeLoad a n x.ecc (bundleUnit .vcl b 0) false t.1
      let u := transit x.answer r.1
      match r.2 with
      | some bytes => if u.2 then answerHost v tag 2 [] 1332 u.1 else answerHost v tag 0 bytes 1332 u.1
      | none => answerHost v tag 2 [] 1332 u.1

/-- HWR: a write is applied to a register or at its home; it waits while the home is held. -/
def hwr (b window off : Nat) (data : List Byte) (poison : Bool) (x : HomeReport) (s : State) : State :=
  if window = 0 then hostRegWrite b off data.length (ofLeBytes data) poison x s
  else if !usable s .vcl b then s
  else match hostMem s window off data.length with
    | none => hostRefuse s
    | some a =>
      if !rangeServes s a data.length then s else
      let t := transit x.inbound (meterEngine (bundleXY .vcl b) (homeXY (homeOf s a)) s)
      let s := if poison || t.2 then poisonStore a data (bundleUnit .vcl b 0) false t.1
        else (homeStore a data x.ecc (bundleUnit .vcl b 0) false t.1).1
      (transit x.answer s).1

/-- A value written to n bytes at an offset while hardware reaches the bits of `hit` in the same cycle, by an event whose
command follows: of those bits a w1c field is not cleared and an rw field keeps what hardware left (00 R15); but a write
of a running maximum comes before the capture (07 R285). -/
def underHit (off n hit v : Nat) (s : State) : Nat :=
  let half (o v hit : Nat) : Nat :=
    match resolve o with
    | none => v
    | some (r, i, b) =>
      let old := (s.reg r i).toNat / 2 ^ (8 * b)
      (regRow r).rows.foldl (fun v f =>
        if f.hi < 8 * b then v
        else
          let lo := f.lo - 8 * b
          let hi := f.hi - 8 * b
          let h := natBits hit hi lo
          match f.acc with
          | .w1c => natSetBits v hi lo (natBits v hi lo &&& (2 ^ (hi + 1 - lo) - 1 - h))
          | .rw => if r = .klnXeAmax then v else natSetBits v hi lo (natBits v hi lo &&& (2 ^ (hi + 1 - lo) - 1 - h) ||| natBits old hi lo &&& h)
          | _ => v) v
  if hit = 0 then v
  else if n = 4 ∨ (wholeReg off).isSome then half off v hit % 2 ^ (8 * n)
  else half off (v % 2 ^ 32) (hit % 2 ^ 32) % 2 ^ 32 + half (off + 4) (v / 2 ^ 32) (hit / 2 ^ 32) % 2 ^ 32 * 2 ^ 32

/-- The bits of w1s fields that a write sets and that hardware clears in the same cycle. -/
def clashOf (off n hit v : Nat) : List ((Reg × Nat) × Nat) :=
  let half (o v hit : Nat) : List ((Reg × Nat) × Nat) :=
    match resolve o with
    | none => []
    | some (r, i, b) =>
      let m := (regRow r).rows.foldl (fun m f => if f.acc = .w1s then natSetBits m f.hi f.lo (2 ^ (f.hi + 1 - f.lo) - 1) else m) 0
      let x := hit * 2 ^ (8 * b) &&& (v * 2 ^ (8 * b)) &&& m
      if x = 0 then [] else [((r, i), x)]
  if hit = 0 then []
  else if n = 4 ∨ (wholeReg off).isSome then half off v hit
  else half off (v % 2 ^ 32) (hit % 2 ^ 32) ++ half (off + 4) (v / 2 ^ 32) (hit / 2 ^ 32)

/-- A register write by an agent: the host over a bundle, a service core, or machine-level code. -/
def registerWrite (who : Accessor) (off : Nat) (wide : Bool) (v hit : Nat) (s : State) : State :=
  let n := if wide then 8 else 4
  let s := if hit = 0 ∧ s.clash = [] then s else { s with clash := clashOf off n hit v }
  let v := underHit off n hit v s
  match who with
  | .host b => hostRegWrite b off n v false {} s
  | _ => if off % n = 0 then regWrite false off n v s else s

/-- DB: as a 4-byte HWR to the doorbell of queue q (15 R509). -/
def db (b q t : Nat) (s : State) : State :=
  if q < 176 then hostRegWrite b (0x20_0000 + 4096 * q) 4 t false {} s else hostRefuse s

/-- A mesh link fails: the module halts with reason 4 (10 R366, 16 R548); the history marks the link for service (18 R610). -/
def meshLinkFail (router dir : Nat) (s : State) : State :=
  let x := router % 48
  let y := router / 48
  let there := match dir with | 0 => x != 0 | 1 => x != 47 | 2 => y != 0 | _ => y != 23
  if there then
    halt 4 { s with ras := { s.ras with hourRecs := s.ras.hourRecs ++ [{ unit := unitId 4 (x, y) (dir + 1), hour := 0, action := 3 }] } }
  else s

def execRegisterWrite (who : Accessor) (off : BitVec 26) (wide : Bool) (v : RegValue) (s : State) :
    Host.Outcome State Fault Refusal := .next (registerWrite who off.toNat wide v.value.toNat v.hit.toNat s)
def execRcRegisterRead (b : Via) (tag : BitVec 12) (off : BitVec 26) (wide : Bool) (s : State) :
    Host.Outcome State Fault Refusal := .next (if acceptedTwice s b.first then s else hostRegRead b tag.toNat off.toNat (if wide then 8 else 4) {} s)
def execHrd (b : Via) (tag : BitVec 12) (window : Fin 4) (off : BitVec 48) (len : Nat) (_ord : Bool) (e : HomeReport) (s : State) :
    Host.Outcome State Fault Refusal :=
  .next (if acceptedTwice s b.first then s else hrd b tag.toNat window off.toNat len e s)
def execHwr (b : Via) (window : Fin 4) (off : BitVec 48) (data : List Byte) (_ord poison : Bool) (e : HomeReport) (s : State) :
    Host.Outcome State Fault Refusal :=
  .next (if acceptedTwice s b.first then s else hwr b.bundle window off.toNat data poison e s)
def execDb (b : Via) (q : BitVec 16) (t : Word32) (s : State) : Host.Outcome State Fault Refusal :=
  .next (if acceptedTwice s b.first then s else db b.bundle q.toNat t.toNat s)
def execHtabW0Write (ctx : Fin 16) (h : Fin 64) (v : Word64) (s : State) : Host.Outcome State Fault Refusal :=
  .next (htabW0Put (64 * ctx.val + h.val) v.toNat s)
def execHtabW1Write (ctx : Fin 16) (h : Fin 64) (v : Word64) (s : State) : Host.Outcome State Fault Refusal :=
  .next (htabW1Put (64 * ctx.val + h.val) v.toNat s)
def execDbgHalt (c : CoreId) (s : State) : Host.Outcome State Fault Refusal := .next (dbgCoreCtl c (2 ^ 31) s)
def execDbgStep (c : CoreId) (s : State) : Host.Outcome State Fault Refusal :=
  .next (dbgCoreCtl c (s.get F.dbgCtl_halt c * 2 ^ 31 + 2 ^ 30) s)
def execDbgRegDataWrite (c : CoreId) (v : Word64) (s : State) : Host.Outcome State Fault Refusal :=
  .next (dbgRegData c v.toNat s)
def execMswi (c : CoreId) (s : State) : Host.Outcome State Fault Refusal := .next (swiWrite c 2 s)
def execSswi (c : CoreId) (s : State) : Host.Outcome State Fault Refusal := .next (swiWrite c 1 s)
def execMeshLinkFail (router : TileId) (dir : Fin 4) (s : State) : Host.Outcome State Fault Refusal :=
  .next (meshLinkFail router dir s)

end Sys2Proof.Machine
end

