-- ==== Sys2Proof/Machine/Access.lean ====
section
/-! DEFINITION. Loads and stores of a core through its segments, and the segment instructions (03 R129-R137, 08 R302,
19 R626, 21 R668). -/

namespace Sys2Proof.Machine

/-! ## Checks (03 R134, 19 R626, 21 R668) -/

/-- The checks of an access of n bytes at offset o through segment i. A register is accessed as 4 or 8 bytes. -/
def checkMem (c : Nat) (k : Scalar) (i o n align : Nat) (write : Bool) : Option Fail :=
  let info := i + (if write then 16 else 0)
  match checkSeg k i o n align write with
  | some f => some f
  | none =>
    let a := segAddr k i o
    if sramClosed c k a n then some ⟨4, info⟩
    else if regionOf a = .mmio ∧ ¬((n = 4 ∨ n = 8) ∧ a % n = 0) then some ⟨5, info⟩
    else none

/-! ## Access to memory or registers -/

/-- A read of n bytes: registers through a machine-level class-2 segment, memory otherwise. -/
def coreRead (c a n : Nat) (e : Ecc) (once : Bool) (s : State) : State × Got :=
  if regionOf a = .mmio then
    let r := regRead false (a - 0x03F0_0000_0000) n (meterRegs (coreXY c) (a - 0x03F0_0000_0000) true (pctrEvent c 0xE 1 s))
    (r.2, .ok (leBytes n r.1))
  else dataRead c a n e once s

/-- A write of bytes. -/
def coreWrite (c a : Nat) (bs : List Byte) (e : Ecc) (s : State) : State × Got :=
  if regionOf a = .mmio then (regWrite false (a - 0x03F0_0000_0000) bs.length
      (ofLeBytes bs) (meterRegs (coreXY c) (a - 0x03F0_0000_0000) false (pctrEvent c 0xE 1 s)), .ok [])
  else dataWrite c a bs e s

/-! ### Accesses of several parts (05 R213-R216, 08 R316)

The parts of a vector, tile or block access go to the cache or the mesh in order. One that finds room waits for its data
while the others are issued; one that finds none holds those after it. What has come is kept until the access is whole. -/

/-- An access of n bytes at a as its parts: each line of it in the regions that the cache serves. -/
def linesOf (s : State) (c a n : Nat) : List (Nat × Nat) :=
  match regionOf (xlatAddr s c a) with
  | .near | .far | .host => pieces (n / 64 + 2) a n
  | _ => [(a, n)]

/-- A part that has come is kept for the access under way. -/
def keepPart (c : Nat) (p : Nat × Nat) (b : List Byte) (s : State) : State :=
  s.updCore c (fun k => { k with parts := k.parts.filter (fun x => x.1 != p) ++ [(p, some b)] })

/-- The next access starts afresh. -/
def clearParts (c : Nat) (s : State) : State :=
  if (s.core c).parts = [] then s else s.updCore c (fun k => { k with parts := [] })

/-- How far the reads of an access have come: the state, the granules passed, what holds it, and its parts. -/
structure Reading where
  s : State
  g : Nat := 0
  got : Got := .ok []
  parts : List ((Nat × Nat) × Option (List Byte)) := []

/-- One part is read, unless it has come already or an earlier one holds the access. -/
def Reading.next (c : Nat) (old : List ((Nat × Nat) × Option (List Byte))) (e : Ecc) (r : Reading) (p : Nat × Nat) : Reading :=
  if r.got = .full ∨ r.got = .bad then r
  else
    match old.find? (fun x => x.1 == p) with
    | some (_, some b) => { r with parts := r.parts ++ [(p, some b)] }
    | o =>
      let q := coreRead c p.1 p.2 (e.from r.g) o.isNone r.s
      let r := { r with s := q.1, g := r.g + (granules p.1 p.2).length }
      match q.2 with
      | .ok b => { r with parts := r.parts ++ [(p, some b)] }
      | .wait => { r with got := .wait, parts := r.parts ++ [(p, none)] }
      | x => { r with got := x }

/-- Reads of several places, each read once: their bytes, or what the access still waits for. It waits before issue
(`full`) when nothing of it has been issued. -/
def readAll (c : Nat) (els : List (Nat × Nat)) (e : Ecc) (s : State) : State × Except Got (List (List Byte)) :=
  let ps := (els.flatMap (fun p => linesOf s c p.1 p.2)).dedup
  let old := (s.core c).parts
  let r := ps.foldl (Reading.next c old e) { s := s }
  match r.got with
  | .ok _ => (r.s, .ok (els.map (fun p => (linesOf s c p.1 p.2).flatMap (fun q => (mget r.parts q none).getD []))))
  | .bad => (r.s, .error .bad)
  | g =>
    let kept := r.parts ++ old.filter (fun x => r.parts.all (fun y => y.1 != x.1))
    if g = .full ∧ kept = [] then (r.s, .error .full)
    else (r.s.updCore c (fun k => { k with parts := kept }), .error .wait)

/-- The runs of bytes that a list of single bytes covers in the 8-byte word at a. -/
def wordRuns (m : List (Nat × Byte)) (a : Nat) : List (Nat × List Byte) :=
  ((nats 8 a 1).filterMap (fun x => (m.find? (fun p => p.1 == x)))).foldl (fun l p =>
    match l.getLast? with
    | some q => if q.1 + q.2.length = p.1 then l.dropLast ++ [(q.1, q.2 ++ [p.2])] else l ++ [(p.1, [p.2])]
    | none => [(p.1, [p.2])]) []

/-- Elements narrower than 8 bytes as the 8-byte words see them: a word that the elements cover together is written
whole (08 R296, R299), and a later element stands over an earlier one (05 R213). -/
def mergeWords (els : List (Nat × List Byte)) : List (Nat × List Byte) :=
  let m := els.foldl (fun m p => p.2.zipIdx.foldl (fun m q => mput m (p.1 + q.2) q.1) m) []
  ((els.map (fun p => p.1 / 8 * 8)).dedup).flatMap (wordRuns m)

/-- The parts of a store. Registers are written element by element. -/
def storeParts (s : State) (c : Nat) (els : List (Nat × List Byte)) : List (Nat × List Byte) :=
  let narrow := els.all (fun p => decide (p.2.length < 8) && regionOf p.1 != .mmio)
  (if narrow then mergeWords els else els).flatMap (fun p =>
    (linesOf s c p.1 p.2.length).map (fun q => (q.1, (p.2.drop (q.1 - p.1)).take q.2)))

/-- How far the writes of an access have come: the state, what holds it, and the turns written. -/
structure Writing where
  s : State
  got : Got := .ok []
  done : List (Nat × Nat) := []

/-- What the hidden read-modify-write of n bytes at a would meet (05 R215, 08 R299, R318): in the core's own scratchpad the
granules covered in part, in a held line the words; with it, whether that is uncorrectable and how many findings of `e`
it passed. -/
def checkPart (c a n : Nat) (e : Ecc) (s : State) : State × Bool × Nat :=
  let a := xlatAddr s c a
  match regionOf a with
  | .spad k =>
    if k ≠ c then (s, false, 0)
    else
      let gs := partGranules a n
      let s := eccFind e gs (coreUnit c 0) s
      let bad := gs.filter (· ∈ s.bad)
      (bad.foldl (fun s g => eccRecord 2 4 g (coreUnit c 0) s) s, !bad.isEmpty, gs.length)
  | .mmio => (s, false, 0)
  | _ =>
    let o := a % 64
    let r := lineCheck c (a / 64) ((wordsOf o n).filter (fun w => 8 * w < o || o + n < 8 * w + 8)) 4 e s
    (r.1, r.2, 1)

/-- The same over all parts of a store, before any of it is written. -/
def checkParts (c : Nat) : List (Nat × List Byte) → Ecc → State → State × Bool
  | [], _, s => (s, false)
  | p :: t, e, s =>
    let r := checkPart c p.1 p.2.length e s
    let q := checkParts c t (e.from r.2.2) r.1
    (q.1, r.2.1 || q.2)

/-- One part is written, unless it has been or an earlier one holds the access. What cannot be written any more, after
the parts were found good, is raised at the next fence (log entry 6). -/
def Writing.next (c : Nat) (old : List ((Nat × Nat) × Option (List Byte))) (r : Writing)
    (p : (Nat × List Byte) × Nat) : Writing :=
  let key := (p.2, p.1.2.length)
  match r.got with
  | .ok _ =>
    if old.any (fun x => x.1 == key) then r
    else
      let q := coreWrite c p.1.1 p.1.2 .clean r.s
      match q.2 with
      | .ok _ => { r with s := q.1, done := r.done ++ [key] }
      | .bad => { r with s := q.1.updCore c (fun k => { k with deferredUe := true }), done := r.done ++ [key] }
      | g => { r with s := q.1, got := g }
  | _ => r

/-- Writes of several places in order. Before the first, every part is looked at: one that meets an uncorrectable location
ends the access with nothing written. One that waits for room holds those after it, and before any of them has been made
the access waits before issue (`full`). -/
def writeAll (c : Nat) (els : List (Nat × List Byte)) (e : Ecc) (s : State) : State × Got :=
  let old := (s.core c).parts
  let ps := storeParts s c els
  let q := if old = [] then checkParts c ps e s else (s, false)
  if q.2 then (q.1, .bad)
  else
    let r := ps.zipIdx.foldl (Writing.next c old) { s := q.1 }
    match r.got with
    | .ok _ => (r.s, .ok [])
    | g =>
      if r.done = [] ∧ old = [] then (r.s, g)
      else (r.s.updCore c (fun k => { k with parts := old ++ r.done.map (fun p => (p, some [])) }), .wait)

/-- The fills that a vector store has asked for hold events until they come (05 R220). -/
def holdFills (c : Nat) (els : List (Nat × List Byte)) (s : State) : State :=
  let ls := (storeParts s c els).map (fun p => xlatAddr s c p.1 / 64)
  if (s.core c).dcache.miss = [] then s
  else s.updDc c (fun k => { k with miss := k.miss.map (fun m => if m.addr ∈ ls ∧ m.stores ≠ [] then { m with vec := true } else m) })

/-! ## Scalar loads and stores (03 R129-R131) -/

/-- The size of a scalar access. -/
def sizeOf (w : Word32) : Nat := 2 ^ fld w 13 12

/-- The segment of the M form. -/
def segOf (w : Word32) : Nat := fld w 16 14

/-- The offset of the M form. -/
def offOf (k : Scalar) (w : Word32) : Nat := (k.gr (raOf w) + imm11 w).toNat

/-- A load's data as the register holds it. -/
def extend (sx : Bool) (bs : List Byte) : Word64 :=
  if sx then sext (8 * bs.length) (ofLeBytes bs) else BitVec.ofNat 64 (ofLeBytes bs)

/-- g[r] as the instructions before this one leave it, a quotient still in the divider among them (03 R130). -/
def Scalar.valueOf (k : Scalar) (r : Nat) : Word64 :=
  match k.divide with
  | some d => if d.rd.toNat = r then d.value else mget k.g r 0
  | none => mget k.g r 0

/-- A load retires: its delay slot comes next (03 R130). -/
def loadDone (c rd : Nat) (sx : Bool) (bs : List Byte) (s : State) : Eff :=
  let old := (s.core c).sc.valueOf rd
  .done (s.updSc c (fun k => k.setG rd (extend sx bs))) (if rd = 0 then none else some ⟨BitVec.ofNat 5 rd, old, false⟩)

/-- What a load does with what its access finds. -/
def loadEff (c rd a n : Nat) (sx : Bool) (r : State × Got) : Eff :=
  match r with
  | (s, .ok bs) => loadDone c rd sx bs s
  | (s, .bad) => .trap ⟨0xE, 0⟩ s
  | (s, .wait) => .stay (.load a n sx (BitVec.ofNat 5 rd)) s
  | (s, .full) => .stay .retry s

/-- LD. -/
def ld (c : CoreId) (w : Word32) (e : Ecc) (s : State) : State :=
  let n := sizeOf w
  let sx := fld w 11 11 == 1
  issue c w .plain [raOf w] (legal (!(sx && n == 8))) (fun k s =>
    let o := offOf k.sc w
    match checkMem c k.sc (segOf w) o n n false with
    | some f => .trap f s
    | none =>
      let a := segAddr k.sc (segOf w) o
      loadEff c (rdOf w) a n sx (coreRead c a n e true s)) s

/-- LOAD_DATA_RETURN: a waiting load looks again at what has arrived. -/
def loadDataReturn (c : CoreId) (e : Ecc) (s : State) : State :=
  match (s.core c).wait with
  | .load a n sx rd =>
    match coreRead c a n e false s with
    | (t, .ok bs) => finish c s (loadDone c rd.toNat sx bs t)
    | (t, .bad) => finish c s (.trap ⟨0xE, 0⟩ t)
    | _ => s
  | _ => s

/-- ST. -/
def st (c : CoreId) (w : Word32) (e : Ecc) (s : State) : State :=
  let n := sizeOf w
  issue c w .plain [raOf w, rdOf w] (legal (fld w 11 11 == 0)) (fun k s =>
    let o := offOf k.sc w
    match checkMem c k.sc (segOf w) o n n true with
    | some f => .trap f s
    | none =>
      match coreWrite c (segAddr k.sc (segOf w) o) (leBytes n (k.sc.gr (rdOf w)).toNat) e s with
      | (s, .ok _) => .done s
      | (s, .bad) => .trap ⟨0xE, 0⟩ s
      | (s, _) => .stay .retry s) s

def execLd (c : CoreId) (w : Word32) (e : Ecc) (s : State) : Host.Outcome State Fault Refusal := .next (ld c w e s)
def execSt (c : CoreId) (w : Word32) (e : Ecc) (s : State) : Host.Outcome State Fault Refusal := .next (st c w e s)
def execLoadDataReturn (c : CoreId) (e : Ecc) (s : State) : Host.Outcome State Fault Refusal :=
  .next (loadDataReturn c e s)

/-! ## Segment instructions (03 R135-R137) -/

/-- Segment register d written. -/
def setSeg (c d : Nat) (g : Seg) (s : State) : State := s.updSc c (fun k => { k with seg := mput k.seg d g })

/-- A segment instruction: its function, the fields that must be 0, and its body. -/
def segInstr (c : CoreId) (w : Word32) (fn : Nat) (toSeg useRa useRb useSs : Bool) (body : Core → State → Eff) (s : State) :
    State :=
  let ok := fld w 3 0 == fn && (!toSeg || fld w 26 25 == 0) && (useRa || raOf w == 0) && (useRb || rbOf w == 0) &&
    (useSs || fld w 6 4 == 0)
  issue c w .plain ((if useRa then [raOf w] else []) ++ (if useRb then [rbOf w] else []))
    (fun k => if !(ok && (if fn = 6 then fld w 11 11 == 0 else fld w 11 7 == 0)) then some ⟨1, 0⟩
      else if fn = 6 ∧ k.sc.pl = 0 then some ⟨2, 0⟩ else none) body s

/-- The destination segment sd. -/
def sdOf (w : Word32) : Nat := fld w 24 22

/-- The segment an entry of the handle table gives (08 R305). -/
def entrySeg (e : Word64 × Word64) : Seg :=
  ⟨BitVec.ofNat 48 e.1.toNat, BitVec.ofNat 48 e.2.toNat, BitVec.ofNat 2 (natBits e.1.toNat 59 58), natBit e.1.toNat 55,
   natBit e.1.toNat 56⟩

/-- `sld`. `parity` is a parity error in the entry of the core's copy. -/
def sld (c : CoreId) (w : Word32) (parity : Bool) (s : State) : State :=
  segInstr c w 0 true true false false (fun k s =>
    let h := (k.sc.gr (raOf w)).toNat
    let s := readHandle c h parity s
    match (if h < 64 then handleEntry (s.core c) h else none) with
    | some e => .done (setSeg c (sdOf w) (entrySeg e) s)
    | none => .trap ⟨4, sdOf w⟩ s) s

/-- `snarrow`. -/
def snarrow (c : CoreId) (w : Word32) (s : State) : State :=
  segInstr c w 1 true true true true (fun k s =>
    let g := k.sc.sgm (fld w 6 4)
    let a := (k.sc.gr (raOf w)).toNat
    let b := (k.sc.gr (rbOf w)).toNat
    if g.limit.toNat < a + b then .trap ⟨3, fld w 6 4⟩ s
    else .done (setSeg c (sdOf w) { g with base := BitVec.ofNat 48 (g.base.toNat + a), limit := BitVec.ofNat 48 b } s)) s

/-- `sdrop`. -/
def sdrop (c : CoreId) (w : Word32) (s : State) : State :=
  segInstr c w 2 true true false false (fun k s =>
    let g := k.sc.sgm (sdOf w)
    let a := (k.sc.gr (raOf w)).toNat
    .done (setSeg c (sdOf w) { g with r := g.r && !natBit a 0, w := g.w && !natBit a 1 } s)) s

/-- A read of a segment register's field. -/
def segRead (c : CoreId) (w : Word32) (fn : Nat) (f : Seg → Nat) (s : State) : State :=
  segInstr c w fn false false false true (fun k s => writeG c (rdOf w) (BitVec.ofNat 64 (f (k.sc.sgm (fld w 6 4)))) s) s

/-- The permissions and class that `srda` reads. -/
def segBits (g : Seg) : Nat := (if g.r then 1 else 0) + (if g.w then 2 else 0) + g.cls.toNat * 16

/-- `swr`. At machine level class 2 may also name registers (21 R668). -/
def swr (c : CoreId) (w : Word32) (s : State) : State :=
  segInstr c w 6 true true true false (fun k s =>
    let a := natBits (k.sc.gr (raOf w)).toNat 47 0
    let n := natBits (k.sc.gr (rbOf w)).toNat 47 0
    let cls := fld w 10 9
    let regs := k.sc.pl == 3 && cls == 2 && regionOf a == .mmio && regionOf (a + n - 1) == .mmio
    if inClass cls a n || regs then
      .done (setSeg c (sdOf w) ⟨BitVec.ofNat 48 a, BitVec.ofNat 48 n, BitVec.ofNat 2 cls, fld w 7 7 == 1, fld w 8 8 == 1⟩ s)
    else .trap ⟨4, sdOf w⟩ s) s

def execSld (c : CoreId) (w : HandleWord) (s : State) : Host.Outcome State Fault Refusal :=
  .next (sld c w.word w.parity s)
def execSnarrow (c : CoreId) (w : Word32) (s : State) : Host.Outcome State Fault Refusal := .next (snarrow c w s)
def execSdrop (c : CoreId) (w : Word32) (s : State) : Host.Outcome State Fault Refusal := .next (sdrop c w s)
def execSrdb (c : CoreId) (w : Word32) (s : State) : Host.Outcome State Fault Refusal :=
  .next (segRead c w 3 (fun g => g.base.toNat) s)
def execSrdl (c : CoreId) (w : Word32) (s : State) : Host.Outcome State Fault Refusal :=
  .next (segRead c w 4 (fun g => g.limit.toNat) s)
def execSrda (c : CoreId) (w : Word32) (s : State) : Host.Outcome State Fault Refusal := .next (segRead c w 5 segBits s)
def execSwr (c : CoreId) (w : Word32) (s : State) : Host.Outcome State Fault Refusal := .next (swr c w s)

end Sys2Proof.Machine
end

