-- ==== Sys2Proof/Machine/Block.lean ====
section
/-! DEFINITION. The block-repeat instructions (03 R142-R147). The command gives how many elements are in flight before the
next element boundary, at which an event may be taken. -/

namespace Sys2Proof.Machine

/-- What one element comes to: the next one follows, the loop is left, the element waits, or it faults. -/
inductive Elem where
  | next (s : State)
  | leave (s : State)
  | wait (s : State)
  | fault (f : Fail) (s : State)

/-- A register of the loop written. Under a load shadow or an armed substitution the loop's progress is what the
instruction reads from then on, and what a return to it reads (03 R130, R132, R145; log entry 54). -/
def blkSet (c r : Nat) (v : Word64) (s : State) : State :=
  s.updSc c (fun k => { k.setG r v with shadow := k.shadow.map (fun h => if h.reg.toNat = r then { h with old := v } else h) })

/-- A register of the loop. -/
def blkGet (c r : Nat) (s : State) : Word64 := (s.core c).sc.gr r

/-- A pointer advanced by an element. -/
def blkStep (c r n : Nat) (s : State) : State := blkSet c r (blkGet c r s + BitVec.ofNat 64 n) s

/-- The loop: up to `n` elements, then an element boundary. `grp` answers when the next k elements go together, as a
whole line (08 R315): the k - 1 turns after a group do nothing. -/
def blkRun (c rd k : Nat) (grp : Nat → Ecc → State → Option Elem) (el : Ecc → State → Elem) :
    Nat → Nat → Ecc → State → Eff
  | 0, _, _, s => if blkGet c rd s = 0 then .done s else .stay .elem s
  | n + 1, skip + 1, e, s => blkRun c rd k grp el n skip e s
  | n + 1, 0, e, s =>
    if blkGet c rd s = 0 then .done s
    else
      let g := if k ≤ (blkGet c rd s).toNat then grp (n + 1) e s else none
      match g.getD (el e s) with
      | .next s =>
        let m := if g.isSome then k else 1
        blkRun c rd k grp el n (m - 1) .clean (clearParts c (blkSet c rd (blkGet c rd s - BitVec.ofNat 64 m) s))
      | .leave s => .done s
      | .wait s => .stay .elem s
      | .fault f s => .trap f s

/-- The element size. -/
def esizeOf (w : Word32) : Nat := 2 ^ fld w 2 1

/-- The elements of a 64-byte line. -/
def lineElems (w : Word32) : Nat := 64 / esizeOf w

/-- The address to which the next elements through g[r] write a whole line that the data cache neither holds nor
awaits (08 R315), of at most `n` elements. -/
def wholeLine (c : Nat) (w : Word32) (seg r n : Nat) (s : State) : Option Nat :=
  let k := s.core c
  let o := (k.sc.gr r).toNat
  let a := segAddr k.sc seg o
  let cached := match regionOf (xlatAddr s c a) with | .spad _ | .mmio => false | _ => true
  if cached && !isService c && decide (a % 64 = 0) && decide (lineElems w ≤ n) &&
     (checkMem c k.sc seg o 64 (esizeOf w) true).isNone && (k.dcache.find (a / 64)).isNone &&
     !k.dcache.miss.any (fun m => m.addr == a / 64) then some a
  else none

/-- The element at the pointer in g[r] through a segment is read; it is kept while what follows waits. -/
def elemLoad (c : Nat) (w : Word32) (seg r : Nat) (e : Ecc) (s : State) (next : Nat → State → Elem) : Elem :=
  let k := (s.core c).sc
  let n := esizeOf w
  let o := (k.gr r).toNat
  match checkMem c k seg o n n false with
  | some f => .fault f s
  | none =>
    match readAll c [(segAddr k seg o, n)] e s with
    | (s, .ok bs) =>
      match next (ofLeBytes bs.flatten) s with
      | .wait u => .wait (keepPart c (segAddr k seg o, n) bs.flatten u)
      | r => r
    | (s, .error .bad) => .fault ⟨0xE, 0⟩ s
    | (s, .error _) => .wait s

/-- The element at the pointer in g[r] is written. -/
def elemStore (c : Nat) (w : Word32) (seg r v : Nat) (e : Ecc) (s : State) (next : State → Elem) : Elem :=
  let k := (s.core c).sc
  let n := esizeOf w
  let o := (k.gr r).toNat
  match checkMem c k seg o n n true with
  | some f => .fault f s
  | none =>
    match coreWrite c (segAddr k seg o) (leBytes n v) e s with
    | (s, .ok _) => next s
    | (s, .bad) => .fault ⟨0xE, 0⟩ s
    | (s, _) => .wait s

/-- The segments of the ra and rb pointers. -/
def segA (w : Word32) : Nat := fld w 5 3
/-- The segment of the rb pointer. -/
def segB (w : Word32) : Nat := fld w 8 6

/-- The registers of an instruction are all different. -/
def distinct (l : List Nat) : Bool := l.dedup.length == l.length

/-- Issues a `blk`: its operand rules (03 R143), then its loop. -/
def blk (c : CoreId) (w : Word32) (n : Nat) (e : Ecc) (ok : Bool) (srcs : List Nat) (el : Ecc → State → Elem) (s : State) :
    State :=
  issue c w .control (rdOf w :: srcs) (legal (rdOf w != 0 && ok))
    (fun _ s => blkRun c (rdOf w) (lineElems w) (fun _ _ _ => none) el n 0 e s) s

/-- Issues a `blk` that stores: whole lines go together. -/
def blkLines (c : CoreId) (w : Word32) (n : Nat) (e : Ecc) (ok : Bool) (srcs : List Nat)
    (grp : Nat → Ecc → State → Option Elem) (el : Ecc → State → Elem) (s : State) : State :=
  issue c w .control (rdOf w :: srcs) (legal (rdOf w != 0 && ok))
    (fun _ s => blkRun c (rdOf w) (lineElems w) grp el n 0 e s) s

/-- Count and two pointers. -/
def pointersOk (w : Word32) : Bool := distinct [rdOf w, raOf w, rbOf w] && fld w 0 0 == 0

/-- Both pointers advanced. -/
def stepBoth (c : Nat) (w : Word32) (s : State) : State := blkStep c (rbOf w) (esizeOf w) (blkStep c (raOf w) (esizeOf w) s)

/-- A pointer advanced by a line. -/
def stepLine (c r : Nat) (s : State) : State := blkStep c r 64 s

/-- The elements of `blk.mov` that write a whole line, read where they are no part of that line. A read that would fault
leaves the elements to go one by one (03 R145). -/
def movLine (c : Nat) (w : Word32) (n : Nat) (e : Ecc) (s : State) : Option Elem :=
  match wholeLine c w (segB w) (rbOf w) n s with
  | none => none
  | some a =>
    let k := (s.core c).sc
    let o := (k.gr (raOf w)).toNat
    let b := segAddr k (segA w) o
    if (checkMem c k (segA w) o 64 (esizeOf w) false).isSome || regionOf b == .mmio || decide (a < b + 64 ∧ b < a + 64) then none
    else match readAll c [(b, 64)] e s with
      | (t, .ok bs) =>
        match coreWrite c a bs.flatten .clean t with
        | (t, .ok _) => some (.next (stepLine c (rbOf w) (stepLine c (raOf w) t)))
        | (_, .bad) => none
        | (_, _) => some (.wait ((linesOf t c b 64).foldl (fun (t : State) q =>
            keepPart c q ((bs.flatten.drop (q.1 - b)).take q.2) t) t))
      | (_, .error .bad) => none
      | (t, .error _) => some (.wait t)

/-- The elements of `blk.fill` that write a whole line. -/
def fillWholeLine (c : Nat) (w : Word32) (n : Nat) (s : State) : Option Elem :=
  match wholeLine c w (segB w) (rbOf w) n s with
  | none => none
  | some a =>
    let v := leBytes (esizeOf w) ((blkGet c (raOf w) s).toNat % 2 ^ (8 * esizeOf w))
    match coreWrite c a (List.replicate (lineElems w) v).flatten .clean s with
    | (t, .ok _) => some (.next (stepLine c (rbOf w) t))
    | (_, .bad) => none
    | (_, _) => some (.wait s)

/-- `blk.mov`. -/
def blkMov (c : CoreId) (w : Word32) (n : Nat) (e : Ecc) (s : State) : State :=
  blkLines c w n e (pointersOk w) [raOf w, rbOf w] (movLine c w) (fun e s =>
    elemLoad c w (segA w) (raOf w) e s (fun v s =>
      elemStore c w (segB w) (rbOf w) v .clean s (fun s => .next (stepBoth c w s)))) s

/-- `blk.fill`. -/
def blkFill (c : CoreId) (w : Word32) (n : Nat) (e : Ecc) (s : State) : State :=
  let ok := fld w 0 0 == 0 && segA w == 0 && rdOf w != rbOf w && (raOf w == 0 || (raOf w != rdOf w && raOf w != rbOf w))
  blkLines c w n e ok [raOf w, rbOf w] (fun n _ s => fillWholeLine c w n s) (fun e s =>
    let v := (blkGet c (raOf w) s).toNat % 2 ^ (8 * esizeOf w)
    elemStore c w (segB w) (rbOf w) v e s (fun s => .next (blkStep c (rbOf w) (esizeOf w) s))) s

/-- Two elements read, A first. -/
def elemPair (c : Nat) (w : Word32) (e : Ecc) (s : State) (next : Nat → Nat → State → Elem) : Elem :=
  elemLoad c w (segA w) (raOf w) e s (fun a s => elemLoad c w (segB w) (rbOf w) .clean s (next a))

/-- `blk.cmp`. -/
def blkCmp (c : CoreId) (w : Word32) (n : Nat) (e : Ecc) (s : State) : State :=
  blk c w n e (pointersOk w) [raOf w, rbOf w] (fun e s =>
    elemPair c w e s (fun a b s => if a = b then .next (stepBoth c w s) else .leave s)) s

/-- `blk.scan`. -/
def blkScan (c : CoreId) (w : Word32) (n : Nat) (e : Ecc) (s : State) : State :=
  let ok := fld w 0 0 == 0 && segB w == 0 && rdOf w != raOf w && (rbOf w == 0 || (rbOf w != rdOf w && rbOf w != raOf w))
  blk c w n e ok [raOf w, rbOf w] (fun e s =>
    elemLoad c w (segA w) (raOf w) e s (fun v s =>
      if v = (blkGet c (rbOf w) s).toNat % 2 ^ (8 * esizeOf w) then .leave s
      else .next (blkStep c (raOf w) (esizeOf w) s))) s

/-- The product of two elements, signed or not, modulo 2^64. -/
def macProduct (w : Word32) (a b : Nat) : Word64 :=
  let x := fun v : Nat => if fld w 0 0 = 1 then BitVec.ofNat 64 v else sext (8 * esizeOf w) v
  x a * x b

/-- `blk.mac`: the accumulator is g(rd + 1). -/
def blkMac (c : CoreId) (w : Word32) (n : Nat) (e : Ecc) (s : State) : State :=
  blk c w n e (decide (rdOf w ≤ 30) && distinct [rdOf w, rdOf w + 1, raOf w, rbOf w]) [raOf w, rbOf w, rdOf w + 1] (fun e s =>
    elemPair c w e s (fun a b s =>
      .next (stepBoth c w (blkSet c (rdOf w + 1) (blkGet c (rdOf w + 1) s + macProduct w a b) s)))) s

def execBlkMov (c : CoreId) (w : Word32) (n : Nat) (e : Ecc) (s : State) : Host.Outcome State Fault Refusal :=
  .next (blkMov c w n e s)
def execBlkFill (c : CoreId) (w : Word32) (n : Nat) (e : Ecc) (s : State) : Host.Outcome State Fault Refusal :=
  .next (blkFill c w n e s)
def execBlkCmp (c : CoreId) (w : Word32) (n : Nat) (e : Ecc) (s : State) : Host.Outcome State Fault Refusal :=
  .next (blkCmp c w n e s)
def execBlkScan (c : CoreId) (w : Word32) (n : Nat) (e : Ecc) (s : State) : Host.Outcome State Fault Refusal :=
  .next (blkScan c w n e s)
def execBlkMac (c : CoreId) (w : Word32) (n : Nat) (e : Ecc) (s : State) : Host.Outcome State Fault Refusal :=
  .next (blkMac c w n e s)

end Sys2Proof.Machine
end

