-- ==== Sys2Proof/Machine/Classify.lean ====
section
/-! DEFINITION. Firmware's classification of events by the history, its actions, and the writing of the history
(18 R608-R611; log entry 40). -/

namespace Sys2Proof.Machine

/-- How many distinct hours, of those after `since`, the entries that `f` selects stand for. -/
def hoursOf (all : List Hist) (since : Nat) (f : Hist → Bool) : Nat :=
  (((all.filter (fun h => decide (since < h.hour) && f h)).map (·.hour)).dedup).length

/-- Whether the evidence at an entry's unit and location key calls for a row repair: corrected events in 3 distinct hours
within 72, or uncorrectable ones in 2. -/
def rowWorn (all : List Hist) (now : Nat) (h : Hist) : Bool :=
  let same := fun x : Hist => x.unit == h.unit && x.key == h.key
  decide (0 < h.ce ∧ 3 ≤ hoursOf all (now - 72) (fun x => same x && decide (0 < x.ce))) ||
  decide (0 < h.ue ∧ 2 ≤ hoursOf all 0 (fun x => same x && decide (0 < x.ue)))

/-- Whether the evidence of an entry's core is permanent: a confirmed fallow failure, or residue and parity failures in 2
distinct hours. -/
def coreWorn (all : List Hist) (h : Hist) : Bool :=
  (coreOfUnit h.unit).isSome &&
  (decide (0 < h.fallow) ||
   decide (0 < h.residue ∧ 2 ≤ hoursOf all 0 (fun x => x.unit / 65536 == h.unit / 65536 && decide (0 < x.residue))))

/-- The row of a memory's location key is repaired for good, where its controller is not busy (09 R336, R351); the answer
says whether it was asked. -/
def repairKey (key : Nat) (s : State) : State × Bool :=
  match regionOf key with
  | .near =>
    let o := (sliced key - 0x0200_0000_0000) % 0x200_0000
    let n := sliceOf key
    if s.flag F.nmcRepair_go n then (s, false)
    else (nmcRepairWrite n (2 ^ 63 + 2 ^ 25 + o / 2048 % 16 * 2 ^ 20 + o / 32768) s, true)
  | .far =>
    let pl := farPlace s key
    let r := farRow pl.2
    if s.flag F.fmcRepair_go pl.1 || portState s pl.1 == 4 then (s, false)
    else (fmcRepairWrite pl.1 (2 ^ 63 + 2 ^ 25 + r.1 * 2 ^ 24 + r.2.1 * 2 ^ 20 + r.2.2.1) s, true)
  | _ => (s, false)

/-- A core is retired (18 R611), and no longer withheld. -/
def retireCore (c : Nat) (s : State) : State :=
  let s := retiredWrite (c / 32) (2 ^ (c % 32)) s
  { s with ras := { s.ras with withheld := s.ras.withheld.filter (· != c) } }

/-- Firmware judges one entry of the hour by the history, acts, and notes the action (R608, R610). -/
def classify (all : List Hist) (now : Nat) (s : State) (h : Hist) : State × Hist :=
  match coreOfUnit h.unit with
  | some c =>
    if c < 1152 ∧ coreWorn all h = true then (retireCore c s, { h with action := 2 }) else (s, h)
  | none =>
    if (h.unit / 2 ^ 28 = 2 ∨ h.unit / 2 ^ 28 = 3) ∧ h.action = 0 ∧ rowWorn all now h = true then
      let r := repairKey h.key s
      (r.1, if r.2 then { h with action := 1 } else h)
    else (s, h)

/-- Every entry of the hour, in order. -/
def classifyAll (all : List Hist) (now : Nat) : List Hist → State → State × List Hist
  | [], s => (s, [])
  | h :: t, s =>
    let r := classify all now s h
    let q := classifyAll all now t r.1
    (q.1, r.2 :: q.2)

/-- HISTORY_WRITE: the hour's entries are classified and acted on, and go to flash; a full region merges what is older
than 2,160 hours. -/
def historyWrite (s : State) : State :=
  if !s.sec.firmware then s
  else
    let now := s.ras.hours + 1
    let hour := s.ras.hourRecs.map (fun h => { h with hour := now })
    let (s, hour) := classifyAll (s.ras.history ++ hour) now hour s
    let all := s.ras.history ++ hour
    let old := all.filter (fun h => decide (h.hour + 2160 < now))
    let all := if histMax < all.length then
        old.foldl (fun m h => histMerge h m) [] ++ all.filter (fun h => !decide (h.hour + 2160 < now)) else all
    { s with ras := { s.ras with history := all, hourRecs := [], hours := now } }

def execHistoryWrite (s : State) : Host.Outcome State Fault Refusal := .next (historyWrite s)

end Sys2Proof.Machine
end

