-- ==== Sys2Proof/Machine/Control.lean ====
section
/-! DEFINITION. Control transfer, hardware loops, the system instructions but `exit`, and asynchronous events
(03 R125-R128, R140, R148-R151, 04 R179-R191). -/

namespace Sys2Proof.Machine

/-! ## Branches and jumps (03 R125-R127) -/

/-- A conditional branch. -/
def branchIf (c : CoreId) (w : Word32) (p : Word64 → Word64 → Bool) (s : State) : State :=
  issue c w .control [raOf w, rdOf w] (legal true)
    (fun k s => .branch (if p (k.sc.gr (raOf w)) (k.sc.gr (rdOf w)) then some (k.sc.pc + off14 w) else none) s) s

/-- The link value (03 R126). -/
def linkOf (k : Scalar) : Word64 := (k.pc + 8).setWidth 64

/-- `j`, and `jal` with its link in g31. -/
def jump (c : CoreId) (w : Word32) (link : Bool) (s : State) : State :=
  issue c w .control [] (legal true)
    (fun k s => .branch (some (k.sc.pc + off27 w)) (if link then s.updSc c (fun x => x.setG 31 (linkOf x)) else s)) s

/-- `jr` and `jalr` (03 R126, 04 R188): the target register must hold a multiple of 4. -/
def jumpReg (c : CoreId) (w : Word32) (link : Bool) (s : State) : State :=
  issue c w .control [raOf w]
    (legal (minorOf w == (if link then 1 else 0) && rbOf w == 0 && (if link then rdOf w != raOf w else rdOf w == 0)))
    (fun k s =>
      let t := k.sc.gr (raOf w)
      if t.toNat % 4 ≠ 0 then .trap ⟨5, 0⟩ s
      else .branch (some (t.setWidth 48)) (if link then s.updSc c (fun x => x.setG (rdOf w) (linkOf x)) else s)) s

def execBeq (c : CoreId) (w : Word32) (s : State) : Host.Outcome State Fault Refusal :=
  .next (branchIf c w (fun a b => a == b) s)
def execBne (c : CoreId) (w : Word32) (s : State) : Host.Outcome State Fault Refusal :=
  .next (branchIf c w (fun a b => a != b) s)
def execBlt (c : CoreId) (w : Word32) (s : State) : Host.Outcome State Fault Refusal :=
  .next (branchIf c w (fun a b => a.slt b) s)
def execBge (c : CoreId) (w : Word32) (s : State) : Host.Outcome State Fault Refusal :=
  .next (branchIf c w (fun a b => !a.slt b) s)
def execBltu (c : CoreId) (w : Word32) (s : State) : Host.Outcome State Fault Refusal :=
  .next (branchIf c w (fun a b => a.ult b) s)
def execBgeu (c : CoreId) (w : Word32) (s : State) : Host.Outcome State Fault Refusal :=
  .next (branchIf c w (fun a b => !a.ult b) s)
def execJ (c : CoreId) (w : Word32) (s : State) : Host.Outcome State Fault Refusal := .next (jump c w false s)
def execJal (c : CoreId) (w : Word32) (s : State) : Host.Outcome State Fault Refusal := .next (jump c w true s)
def execJr (c : CoreId) (w : Word32) (s : State) : Host.Outcome State Fault Refusal := .next (jumpReg c w false s)
def execJalr (c : CoreId) (w : Word32) (s : State) : Host.Outcome State Fault Refusal := .next (jumpReg c w true s)

/-! ## Hardware loops (03 R148, R149) -/

/-- Loop registers lsL, leL, lcL written. -/
def Scalar.setLoop (k : Scalar) (i : Nat) (ls le : BitVec 48) (lc : Word32) : Scalar :=
  { k with ls := mput k.ls i ls, le := mput k.le i le, lc := mput k.lc i lc }

/-- Whether two active loops are not nested (03 R149). -/
def Scalar.badNest (k : Scalar) : Bool :=
  decide (mget k.lc 0 0 ≠ 0 ∧ mget k.lc 1 0 ≠ 0 ∧
    ((mget k.ls 1 0).toNat < (mget k.ls 0 0).toNat ∨ (mget k.le 0 0).toNat < (mget k.le 1 0).toNat))

/-- `lpset`: a count of 0 skips the body. -/
def lpset (c : CoreId) (w : Word32) (s : State) : State :=
  issue c w .control [raOf w] (legal (fld w 26 23 == 0 && fld w 16 0 != 0))
    (fun k s =>
      let n := (k.sc.gr (raOf w)).setWidth 32
      let le := k.sc.pc + BitVec.ofNat 48 (4 * fld w 16 0)
      let x := k.sc.setLoop (fld w 22 22) (k.sc.pc + 4) le n
      if x.badNest then .trap ⟨0xC, 0⟩ s
      else if n = 0 then .goto (le + 4) (s.updSc c (fun _ => x))
      else .done (s.updSc c (fun _ => x))) s

def execLpset (c : CoreId) (w : Word32) (s : State) : Host.Outcome State Fault Refusal := .next (lpset c w s)

/-! ## System instructions (03 R140, 04 R184, R191) -/

/-- The decode checks of a system instruction: its fields, then its privilege (04 R164, R176). -/
def sysDec (w : Word32) (minor : Nat) (sup : Bool) : Core → Option Fail := fun k =>
  if fld w 26 0 ≠ minor then some ⟨1, 0⟩ else if sup && k.sc.pl == 0 then some ⟨2, 0⟩ else none

/-- `sys` and `mark` raise their own fault. -/
def ownTrap (c : CoreId) (w : Word32) (minor code : Nat) (s : State) : State :=
  issue c w .control [] (sysDec w minor false) (fun _ s => .trap ⟨code, 0⟩ s) s

/-- The bank `resume` uses. -/
def Scalar.bank (k : Scalar) : Bank := if k.pl = 3 then k.mach else k.sup

/-- `status`[31:16] of the bank `resume` uses (04 R167, R169). -/
def Scalar.resumeInfo (k : Scalar) : Nat :=
  natBits (statusWord { k with xb := false } (k.pl == 3)) 31 16 + (if k.pl = 3 ∧ k.xb then 16 else 0)

/-- The details of a record of op 0x0044 or 0x0045 (18 R613): `epc`, queue, tag, code, original code or source. -/
def handlerDetails (s : State) (c code orig : Nat) : List Byte :=
  let k := s.core c
  let q := k.kernel.getD (0, 0)
  stepDetails s k.sc.mach.epc.toNat q.1 q.2 ++ [BitVec.ofNat 8 code, BitVec.ofNat 8 orig]

/-- The machine handler returns: an interrupt or overrun notice it took as an escalated fault is discarded with a
notice (04 R193, 18 R613). -/
def noticeDiscarded (c : Nat) (k : Scalar) (s : State) : State :=
  let ca := k.mach.cause.toNat
  let orig := natBits ca 15 8
  if k.pl = 3 ∧ natBits ca 7 0 = 0x10 ∧ natBit ca 30 ∧ (orig = 0 ∨ orig = 0x11) then
    record 0 (coreUnit c 0) 0x45 (handlerDetails s c 0x10 (natBits ca 23 19)) s
  else s

/-- `resume` (04 R191). -/
def resume (c : CoreId) (w : Word32) (parity : Bool) (s : State) : State :=
  issue c w .control [] (sysDec w 3 true)
    (fun k s =>
      let x := k.sc
      let b := x.bank
      let h := natBits b.epc.toNat 63 57
      let off := BitVec.ofNat 48 (natBits b.epc.toNat 47 2 * 4)
      if b.spl = 2 ∨ x.pl.toNat < b.spl.toNat ∨ (h = 0x7F ∧ b.spl ≠ 3) ∨ (64 ≤ h ∧ h ≤ 126) then
        .trap ⟨0xD, x.resumeInfo⟩ s
      else
        let s := readHandle c h parity s
        match (if h = 0x7F then some (machineCode s c) else handleCode (s.core c) h) with
        | none => .trap ⟨4, 8⟩ s
        | some seg =>
          let lds := x.ldsReg.toNat
          .goto off ((noticeDiscarded c x s).updSc c (fun x => { x with code := seg, pl := b.spl, ml := b.sml }))
            (if natBit lds 31 then some ⟨BitVec.ofNat 5 lds, x.ldsOld, true⟩ else none)) s

/-- `idle`: retires at once when a source is pending and enabled. -/
def idle (c : CoreId) (w : Word32) (s : State) : State :=
  issue c w .control [] (sysDec w 4 true)
    (fun k s => if sources.any (pendEnabled k.sc) then .done s else .stay .idle s) s

/-- A waiting `idle` retires once a source is pending and enabled. -/
def idleWake (c : CoreId) (s : State) : State :=
  let k := s.core c
  if unheld k && k.wait == .idle && sources.any (pendEnabled k.sc) then
    finish c s (.done s) else s

def execSys (c : CoreId) (w : Word32) (s : State) : Host.Outcome State Fault Refusal := .next (ownTrap c w 0 0x14 s)
def execMark (c : CoreId) (w : Word32) (s : State) : Host.Outcome State Fault Refusal := .next (ownTrap c w 1 0x13 s)
def execResume (c : CoreId) (w : HandleWord) (s : State) : Host.Outcome State Fault Refusal :=
  .next (resume c w.word w.parity s)
def execIdle (c : CoreId) (w : Word32) (s : State) : Host.Outcome State Fault Refusal := .next (idle c w s)
def execIdleWake (c : CoreId) (s : State) : Host.Outcome State Fault Refusal := .next (idleWake c s)

/-! ## Taking an asynchronous event (04 R180-R182, R187) -/

/-- The pending bits of a core after it takes the event of bit i: an interrupt that software sends in the same cycle stays
pending (00 R15). -/
def ipTaken (c i : Nat) (s : State) : State :=
  let w := mget s.clash (.dbgSwi, c) 0
  let again := (i = 7 ∧ natBit w 1 = true) ∨ (i = 3 ∧ natBit w 0 = true)
  if again then { s with clash := [] }
  else s.updSc c (fun k => { k with ip := BitVec.ofNat 8 (natSetBits k.ip.toNat i i 0) })

/-- The entry for a source: its bank, or machine level when the supervisor has no handler (04 R181). -/
def takeSource (c : Nat) (b : Nat × Nat × Nat × Bool × Option Nat) (s : State) : State :=
  let src := if b.1 = 4 then 0 else b.1
  let s := ipTaken c b.1 s
  if b.2.2.2.1 then checkHandler c (enterBank c true ⟨b.2.1, b.2.2.1, src, true, src⟩ s)
  else if natBit (s.core c).sc.evec.toNat 0 then checkHandler c (enterBank c false ⟨b.2.1, b.2.2.1, src, true, src⟩ s)
  else checkHandler c (enterBank c true ⟨0x10, 7, b.2.1 + b.2.2.1 * 2 ^ 8 + src * 2 ^ 11, true, 0⟩ s)

/-- The core takes the deliverable event of the highest level at a boundary (04 R182); a deferred NaN trap is of
level 3 (07 R291). -/
def interruptTaken (c : CoreId) (s : State) : State :=
  let k := s.core c
  if unheld k && atBoundary k then
    match deliverable k.sc with
    | some b =>
      if k.nanTrap.isSome ∧ k.wait.midway = false ∧ b.2.2.1 < 3 then s
      else takeSource c b (match k.wait with | .grant _ _ => withdraw c .kept s | _ => leaveRows c s)
    | none => s
  else s

def execInterruptTaken (c : CoreId) (s : State) : Host.Outcome State Fault Refusal := .next (interruptTaken c s)

end Sys2Proof.Machine
end

