-- ==== Sys2Proof/Machine/Exit.lean ====
section
/-! DEFINITION. `exit` (03 R141, 06 R257, 08 R324, 12 R433), and the end the machine handler gives a part (04 R193). -/

namespace Sys2Proof.Machine

/-- The machine handler ends the core's part: cause 0x0F goes to replay, any other writes a record and reports a
fault. -/
def machineEnd (c : Nat) (s : State) : State :=
  let ca := (s.core c).sc.mach.cause.toNat
  let code := natBits ca 7 0
  if code = 0x0F ∧ (s.core c).kernel.isSome then suspectStep c 0x10 s
  else
    partEnd c (faultStatus code)
      (record (if code = 0x0E then 2 else 0) (coreUnit c 0) 0x44
        (handlerDetails s c code (if code = 0x10 then natBits ca 15 8 else 0)) s)

/-- The poison of an accumulator as the cause that reading it raises (06 R257). -/
def poisonCause (p : BitVec 2) : Option Nat := if p = 1 then some 0xE else if p = 2 then some 0xF else none

/-- The cause that poisoned accumulators raise, 0x0E before 0x0F (04 R176). -/
def accPoison (k : Core) : Option Nat :=
  let ps := [poisonCause (mget k.accs 0 {}).poison, poisonCause (mget k.accs 1 {}).poison]
  if ps.any (· == some 0xE) then some 0xE else if ps.any (· == some 0xF) then some 0xF else none

/-- The release at chip scope, and the end of the part: the release's own fault goes before what poisoned accumulators
raise, which the machine handler's `exit` does not look at (04 R176, R193, 06 R257). -/
def exitEnd (c : Nat) (e : Ecc) (s : State) : Eff :=
  match releaseStep c 2 allLines s e with
  | (s, .wait) => .stay .retry s
  | (s, .bad) => .trap ⟨0xE, 0⟩ s
  | (s, .done) =>
    if (s.core c).sc.pl = 3 then .done (machineEnd c s)
    else match accPoison (s.core c) with
      | some code => .trap ⟨code, 0⟩ s
      | none => .done (partEnd c 0 s)

/-- `exit`. -/
def exit (c : CoreId) (w : Word32) (e : Ecc) (s : State) : State :=
  issue c w .control [] (sysDec w 2 false) (fun k s =>
    if k.sc.divide.isSome ∨ k.matq ≠ [] ∨ k.landings ≠ [] ∨ k.nanTrap.isSome then .stay .retry s
    else beforeSync c false s (exitEnd c e)) s

def execExit (c : CoreId) (w : CleanWord) (s : State) : Host.Outcome State Fault Refusal := .next (exit c w.word w.ecc s)

end Sys2Proof.Machine
end

