-- ==== Sys2Proof/Machine/VectorMem.lean ====
section
/-! DEFINITION. Vector loads and stores, and the vector variant of `mac2m` (03 R153-R157, 05 R210-R216). -/

namespace Sys2Proof.Machine

/-! ## Loads and stores of elements (05 R212-R215) -/

/-- A vector load: elements of n bytes at the offsets, in ascending order, fill the register from its low end. -/
def vecLoad (c : CoreId) (w : Word32) (dec : Bool) (srcs : List Nat) (seg n : Nat) (els : Scalar → List Nat) (e : Ecc)
    (s : State) : State :=
  issue c w .plain srcs (computeOnly c dec) (fun k s =>
    let os := els k.sc
    match os.findSome? (fun o => checkMem c k.sc seg o n n false) with
    | some f => .trap f s
    | none =>
      match readAll c (os.map (fun o => (segAddr k.sc seg o, n))) e s with
      | (s, .ok bs) => .done ((pctrEvent c 0xB 1 s).setV c (rdOf w) (BitVec.ofNat 1024 (ofLeBytes bs.flatten)))
      | (s, .error .bad) => .trap ⟨0xE, 0⟩ s
      | (s, .error .full) => .stay .retry s
      | (s, .error _) => .stay .data s) s

/-- A vector store: element i of n bytes goes to the i-th offset. -/
def vecStore (c : CoreId) (w : Word32) (dec : Bool) (srcs : List Nat) (seg n : Nat) (els : Scalar → List Nat) (e : Ecc)
    (s : State) : State :=
  issue c w .plain srcs (computeOnly c dec) (fun k s =>
    let os := els k.sc
    match os.findSome? (fun o => checkMem c k.sc seg o n n true) with
    | some f => .trap f s
    | none =>
      let bs := leBytes 128 (k.vr (rdOf w)).toNat
      let els := os.zipIdx.map (fun p => (segAddr k.sc seg p.1, (bs.drop (n * p.2)).take n))
      match writeAll c els e s with
      | (s, .ok _) => .done (pctrEvent c 0xB 1 (holdFills c els s))
      | (s, .bad) => .trap ⟨0xE, 0⟩ s
      | (s, .full) => .stay .retry s
      | (s, .wait) => .stay .data s) s

/-- The offset of the contiguous forms: ga + 128 × sext(imm11). -/
def lineOff (w : Word32) (k : Scalar) : List Nat := [(k.gr (raOf w) + 128 * imm11 w).toNat]

/-- Whether a word is the M form of major 0x16 with this op. -/
def contiguous (w : Word32) (op : Nat) : Bool := fld w 13 12 == op && fld w 11 11 == 0

/-- The element size of the R form of major 0x16. -/
def vesize (w : Word32) : Nat := 2 ^ fld w 4 3

/-- The offset of row or element j at byte o of it. -/
def strideOff (w : Word32) (k : Scalar) (j o : Nat) : Nat :=
  (k.gr (raOf w) + BitVec.ofNat 64 j * k.gr (rbOf w) + BitVec.ofNat 64 o).toNat

/-- The offsets of a strided access (05 R213). -/
def stridedOffs (w : Word32) (k : Scalar) : List Nat := (nats (128 / vesize w) 0 1).map (fun i => strideOff w k i 0)

/-- The offsets of a transposed access: register element c × R + j is element c of row j (05 R214). -/
def transposedOffs (w : Word32) (k : Scalar) : List Nat :=
  let R := 2 ^ fld w 2 0
  (nats (128 / vesize w) 0 1).map (fun i => strideOff w k (i % R) (i / R * vesize w))

/-- The encoding of a strided or transposed form. -/
def rowsForm (w : Word32) (op : Nat) (transposed : Bool) : Bool :=
  fld w 11 11 == 1 && fld w 7 5 == op &&
  (if transposed then decide (2 ^ fld w 2 0 * vesize w ≤ 128) else fld w 2 0 == 0)

def execVld (c : CoreId) (w : Word32) (e : Ecc) (s : State) : Host.Outcome State Fault Refusal :=
  .next (vecLoad c w (contiguous w 0) [raOf w] (segOf w) 128 (lineOff w) e s)
def execVst (c : CoreId) (w : Word32) (e : Ecc) (s : State) : Host.Outcome State Fault Refusal :=
  .next (vecStore c w (contiguous w 1) [raOf w] (segOf w) 128 (lineOff w) e s)
def execVlds (c : CoreId) (w : Word32) (e : Ecc) (s : State) : Host.Outcome State Fault Refusal :=
  .next (vecLoad c w (rowsForm w 0 false) [raOf w, rbOf w] (fld w 10 8) (vesize w) (stridedOffs w) e s)
def execVsts (c : CoreId) (w : Word32) (e : Ecc) (s : State) : Host.Outcome State Fault Refusal :=
  .next (vecStore c w (rowsForm w 1 false) [raOf w, rbOf w] (fld w 10 8) (vesize w) (stridedOffs w) e s)
def execVldt (c : CoreId) (w : Word32) (e : Ecc) (s : State) : Host.Outcome State Fault Refusal :=
  .next (vecLoad c w (rowsForm w 2 true) [raOf w, rbOf w] (fld w 10 8) (vesize w) (transposedOffs w) e s)
def execVstt (c : CoreId) (w : Word32) (e : Ecc) (s : State) : Host.Outcome State Fault Refusal :=
  .next (vecStore c w (rowsForm w 3 true) [raOf w, rbOf w] (fld w 10 8) (vesize w) (transposedOffs w) e s)

/-! ## The operands of `mac2m` (03 R153-R156) -/

/-- Both operands of n bytes, from the core's own scratchpad, A first: a fault, or their bytes. -/
def macFetch (c n : Nat) (w : Word32) (k : Scalar) (e : Ecc × Ecc) (s : State) : State × Except Fail (List Byte × List Byte) :=
  let me := xlatCore s c c
  let oa := (k.gr (raOf w)).toNat
  let ob := (k.gr (rbOf w)).toNat
  match checkOwn me k (fld w 10 8) oa n n false with
  | some f => (s, .error f)
  | none =>
    match checkOwn me k (fld w 7 5) ob n n false with
    | some f => (s, .error f)
    | none =>
      match memRead (xlatAddr s c (segAddr k (fld w 10 8) oa)) n e.1 (coreUnit c 0) s with
      | (s, none) => (s, .error ⟨0xE, 0⟩)
      | (s, some a) =>
        match memRead (xlatAddr s c (segAddr k (fld w 7 5) ob)) n e.2 (coreUnit c 0) s with
        | (s, none) => (s, .error ⟨0xE, 0⟩)
        | (s, some b) => (s, .ok (a, b))

/-- The pointers after a completed `mac2m` (03 R155). -/
def macStep (c n : Nat) (w : Word32) (k : Scalar) (s : State) : State :=
  if fld w 1 1 = 1 then s
  else s.updSc c (fun x => (x.setG (raOf w) (k.gr (raOf w) + BitVec.ofNat 64 n)).setG (rbOf w)
    (k.gr (rbOf w) + BitVec.ofNat 64 n))

/-! ## The vector variant (05 R210) -/

/-- The width of an element and the products of a lane. -/
def macGroup (fmt : Nat) : Nat × Nat := if fmt = 0 then (32, 1) else if fmt ≤ 2 then (16, 2) else (8, 4)

/-- The format of an FP operand. -/
def macFmt (fmt : Nat) : Fmt :=
  match fmt with | 0 => fp32 | 1 => bf16 | 2 => fp16 | 3 => e4m3 | _ => e5m2

/-- One lane: its old value and the elements of A and B that belong to it. -/
def macLane (fmt old : Nat) (a b : List Nat) : Nat :=
  if fmt = 5 then wrapTo 32 (((a.zip b).map (fun p => toSigned 8 p.1 * toSigned 8 p.2)).sum + toSigned 32 old)
  else
    let f := macFmt fmt
    enc32 ((a.zip b).foldl (fun v p => Val.add v (Val.mul (f.dec p.1) (f.dec p.2))) (dec32 old))

/-- The lanes of vd after the accumulation. -/
def macLanes (fmt : Nat) (old : VReg) (a b : List Byte) : List Nat :=
  let g := macGroup fmt
  let la := lanesOf g.1 (BitVec.ofNat 1024 (ofLeBytes a))
  let lb := lanesOf g.1 (BitVec.ofNat 1024 (ofLeBytes b))
  (lanesOf 32 old).zipIdx.map (fun p => macLane fmt p.1 ((la.drop (g.2 * p.2)).take g.2) ((lb.drop (g.2 * p.2)).take g.2))

/-- MAC2M_VECTOR. -/
def mac2mVector (c : CoreId) (w : Word32) (e : Ecc × Ecc) (mismatch : Bool) (s : State) : State :=
  let fmt := fld w 4 2
  issue c w .plain [raOf w, rbOf w] (computeOnly c (fld w 11 11 == 0 && decide (fmt ≤ 5) && fld w 0 0 == 0)) (fun k s =>
    match macFetch c 128 w k.sc e s with
    | (s, .error f) => .trap f s
    | (s, .ok (a, b)) =>
      let out := macLanes fmt (k.vr (rdOf w)) a b
      match vecDone c w 3 (if fmt = 5 then none else nanLane fp32 out) s (fun s => s.setV c (rdOf w) (ofLanes 32 out)) with
      | .done t _ =>
        if mismatch then
          .trap ⟨0xF, 0⟩ ({ t with freeCount := t.freeCount + 1 }.setV c (rdOf w) (Config.freeVec t.freeCount))
        else .done (macStep c 128 w k.sc t)
      | r => r) s

def execMac2mVector (c : CoreId) (w : Word32) (e : Ecc × Ecc) (mismatch : Bool) (s : State) :
    Host.Outcome State Fault Refusal :=
  .next (mac2mVector c w e mismatch s)

end Sys2Proof.Machine
end

