-- ==== Sys2Proof/Machine/Tile.lean ====
section
/-! DEFINITION. Tiles: loads and stores that go row by row and can stop between rows, and landings (06 R221-R240,
R250). -/

namespace Sys2Proof.Machine

/-! ## Tiles and the queue -/

/-- Accumulator d. -/
def Core.acc (k : Core) (d : Nat) : Acc := mget k.accs d {}

/-- An accumulator changed. -/
def setAcc (c d : Nat) (f : Acc → Acc) (s : State) : State :=
  s.updCore c (fun k => { k with accs := mput k.accs d (f (k.acc d)) })

/-- Bytes [o, o + n) of row r. -/
def Tile.bytes (t : Tile) (r o n : Nat) : List Byte := (t.data.drop (r * t.bpr + o)).take n

/-- Row j of an accumulator. -/
def Acc.row (a : Acc) (j : Nat) : List Nat := (nats 32 0 1).map (fun i => (mget a.words (32 * j + i) 0).toNat)

/-- Row j of an accumulator written. -/
def Acc.setRow (a : Acc) (j : Nat) (l : List Nat) : Acc :=
  { a with words := l.zipIdx.foldl (fun m p => mput m (32 * j + p.2) (BitVec.ofNat 32 p.1)) a.words }

/-- The tiles a `tmma` names: A, B, and its scale and metadata tiles (06 R241, R246). -/
def tmmaTiles (w : Word32) : List Nat :=
  [fld w 19 17, fld w 14 12] ++ (if fld w 1 1 = 1 then [fld w 19 17 + 1, fld w 14 12 + 1] else []) ++
  (if fld w 0 0 = 1 then [fld w 26 24] else [])

/-- The tiles an entry of the matrix queue names. -/
def MatOp.tiles (m : MatOp) : List Nat :=
  match m.work with
  | .tmma w => tmmaTiles w
  | .trel x => (nats 8 0 1).filter (natBit x)
  | _ => []

/-- The accumulator an entry writes. -/
def MatOp.acc (m : MatOp) : Option Nat :=
  match m.work with
  | .tmma w => some (fld w 22 22)
  | .aclr d => some d
  | .tv2acc d _ _ => some d
  | .mac2m w _ _ => some (fld w 22 22)
  | .trel _ => none

/-- Whether a queued `trel` names tile i. -/
def relQueued (k : Core) (i : Nat) : Bool :=
  k.matq.any (fun m => match m.work with | .trel x => natBit x i | _ => false)

/-- The state of tile i as all earlier instructions leave it (06 R242). -/
def tileState (k : Core) (i : Nat) : TileState := if relQueued k i then .empty else (k.tile i).st

/-- The poison mark of tile i as all earlier instructions leave it. -/
def tilePoison (k : Core) (i : Nat) : Bool := !relQueued k i && (k.tile i).poison

/-! ## Decode (06 R228) -/

/-- The element size of `tldt` and `tldz`. -/
def tSize (w : Word32) : Nat := 2 ^ fld w 5 4

/-- The decode check of a tile load or store. -/
def tileDec (c : Nat) (w : Word32) (op : Nat) : Core → Option Fail :=
  computeOnly c (fld w 26 26 == 0 && tOp w == op && fld w 3 0 == 0 && decide (tUnit w < (if op ≤ 1 then 10 else 8)) &&
    (if op = 2 ∨ op = 3 then fld w 5 4 != 3 else fld w 5 4 == 0))

/-- Whether a tile load or store waits before it issues (06 R233, R239). -/
def tileWaits (k : Core) (w : Word32) : Bool :=
  let u := tUnit w
  if 8 ≤ u then k.matq.any (fun m => m.acc == some (u - 8))
  else (k.tile u).st == .landing || (tOp w != 1 && k.matq.any (fun m => decide (u ∈ m.tiles)))

/-! ## One row -/

/-- What the work on one row comes to. -/
inductive RowGot where
  | ok (s : State)
  | wait (s : State)
  | full
  | fault (f : Fail) (s : State)

/-- The bytes of a row at an offset, after its checks. -/
def rowRead (c : Nat) (w : Word32) (k : Scalar) (o n align : Nat) (e : Ecc) (s : State)
    (put : List Byte → State → State) : RowGot :=
  match checkMem c k (fld w 8 6) o n align false with
  | some f => .fault f s
  | none =>
    match readAll c [(segAddr k (fld w 8 6) o, n)] e s with
    | (s, .ok bs) => .ok (put bs.flatten s)
    | (s, .error .bad) => .fault ⟨0xE, 0⟩ s
    | (_, .error .full) => .full
    | (s, .error _) => .wait s

/-- Row j of an operand tile written. -/
def Tile.setRow (t : Tile) (j : Nat) (bs : List Byte) : Tile := { t with data := patch t.data (j * t.bpr) bs }

/-- Row j of a `tld` (06 R229). -/
def tldRow (c : Nat) (w : Word32) (k : Core) (j : Nat) (e : Ecc) (s : State) : RowGot :=
  let o := strideOff w k.sc j 0
  if 8 ≤ tUnit w then
    rowRead c w k.sc o 128 4 e s (fun bs => setAcc c (tUnit w - 8)
      (fun a => a.setRow j ((nats 32 0 1).map (fun i => leAt bs (4 * i) 4))))
  else rowRead c w k.sc o (k.tile (tUnit w)).bpr 4 e s (fun bs => setTile c (tUnit w) (fun t => t.setRow j bs))

/-- Memory row j of a `tldt`: its element i goes to row i, element position j. -/
def tldtRow (c : Nat) (w : Word32) (k : Core) (j : Nat) (e : Ecc) (s : State) : RowGot :=
  let z := tSize w
  let rows := (k.tile (tUnit w)).rows
  rowRead c w k.sc (strideOff w k.sc j 0) (rows * z) z e s (fun bs => setTile c (tUnit w) (fun t =>
    { t with data := (nats rows 0 1).foldl (fun d i => patch d (i * t.bpr + j * z) ((bs.drop (i * z)).take z)) t.data }))

/-- The bytes of a compressed row's bitmap (06 R230). -/
def bitmapBytes (n : Nat) : Nat := (n + 31) / 32 * 4

/-- A row decompressed: stored elements of z bytes at the set bits, zeros elsewhere. -/
def inflate (z : Nat) : List Bool → List Byte → List Byte
  | [], _ => []
  | true :: t, bs => bs.take z ++ inflate z t (bs.drop z)
  | false :: t, bs => List.replicate z 0 ++ inflate z t bs

/-- Row j of a `tldz` (06 R230): its bitmap says how many bytes follow. -/
def tldzRow (c : Nat) (w : Word32) (k : Core) (j : Nat) (e : Ecc) (s : State) : RowGot :=
  let z := tSize w
  let n := (k.tile (tUnit w)).bpr / z
  let b := bitmapBytes n
  let sg := fld w 8 6
  let o := strideOff w k.sc j 0
  let a := segAddr k.sc sg o
  match checkMem c k.sc sg o b 4 false with
  | some f => .fault f s
  | none =>
    match readAll c [(a, b)] e s with
    | (s, .error .bad) => .fault ⟨0xE, 0⟩ s
    | (_, .error .full) => .full
    | (s, .error _) => .wait s
    | (s, .ok bm) =>
      let bits := (nats n 0 1).map (natBit (ofLeBytes bm.flatten))
      let m := (bits.filter id).length * z
      let keep := (linesOf s c a b).foldl (fun (s : State) q => keepPart c q ((bm.flatten.drop (q.1 - a)).take q.2) s)
      match checkMem c k.sc sg o (b + m) 4 false with
      | some f => .fault f s
      | none =>
        match readAll c [(a + b, m)] .clean s with
        | (s, .ok bs) => .ok (setTile c (tUnit w) (fun t => t.setRow j (inflate z bits bs.flatten)) s)
        | (s, .error .bad) => .fault ⟨0xE, 0⟩ s
        | (s, .error _) => .wait (keep s)

/-- Row j of a `tst`. -/
def tstRow (c : Nat) (w : Word32) (k : Core) (j : Nat) (e : Ecc) (s : State) : RowGot :=
  let o := strideOff w k.sc j 0
  let bs := if 8 ≤ tUnit w then ((k.acc (tUnit w - 8)).row j).flatMap (leBytes 4)
            else let t := k.tile (tUnit w); t.bytes j 0 t.bpr
  match checkMem c k.sc (fld w 8 6) o bs.length 4 true with
  | some f => .fault f s
  | none =>
    match writeAll c [(segAddr k.sc (fld w 8 6) o, bs)] e s with
    | (s, .ok _) => .ok s
    | (s, .bad) => .fault ⟨0xE, 0⟩ s
    | (_, .full) => .full
    | (s, .wait) => .wait s

/-! ## All rows (06 R231-R236) -/

/-- A tile load or store completes: a loaded tile is full, without poison (06 R229, R236, R258). -/
def tileEnd (c : Nat) (w : Word32) (s : State) : State :=
  let s := s.updCore c (fun k => { k with tprog := k.tprog &&& 0x7FFFFFFF })
  if tOp w = 1 then s
  else if 8 ≤ tUnit w then setAcc c (tUnit w - 8) (fun a => { a with poison := 0 }) s
  else setTile c (tUnit w) (fun t => { t with st := .full, poison := false }) s

/-- The row at which an instruction goes on, or starts (06 R236). -/
def tileStart (k : Core) (w : Word32) : Nat :=
  let p := k.tprog.toNat
  match k.wait with
  | .rows v j _ => if v = w then j else 0
  | _ =>
    if natBit p 31 ∧ natBits p 27 24 = tUnit w ∧ natBits p 18 16 = tOp w ∧
     (8 ≤ tUnit w ∨ (k.tile (tUnit w)).st = .partialLoad) then natBits p 5 0 else 0

/-- At most `fuel` rows from row j: then the instruction stops for an event, or goes on (06 R235). `first` is the row
it started at, and `at0` what the core waited for there. -/
def tileRows (c : Nat) (w : Word32) (total first : Nat) (at0 : Wait) (row : Nat → Ecc → State → RowGot) :
    Nat → Nat → Ecc → State → Eff
  | 0, j, _, s => if total ≤ j then .done (tileEnd c w s) else .stay (.rows w j false) s
  | f + 1, j, e, s =>
    if total ≤ j then .done (tileEnd c w s)
    else
      match row j e s with
      | .ok s => tileRows c w total first at0 row f (j + 1) .clean (clearParts c s)
      | .wait s => .stay (.rows w j true) s
      | .full => .stay (if j = first then at0 else .rows w j false) s
      | .fault x s => .trap x (tileStop c w j s)

/-- The rows of an instruction, and the bytes and alignment of row 0's access. -/
def tileShape (k : Core) (w : Word32) : Nat × Nat × Nat :=
  let t := k.tile (tUnit w)
  if 8 ≤ tUnit w then (32, 128, 4)
  else match tOp w with
    | 2 => (t.bpr / tSize w, t.rows * tSize w, tSize w)
    | 3 => (t.rows, bitmapBytes (t.bpr / tSize w), 4)
    | _ => (t.rows, t.bpr, 4)

/-- The cause of a tile or accumulator that the instruction may not use (06 R227, R231, R257). -/
def tileFault (k : Core) (w : Word32) : Option Nat :=
  let u := tUnit w
  if u < 8 ∧ (k.tile u).rows = 0 then some 6
  else if tOp w ≠ 1 then none
  else if 8 ≤ u then poisonCause (k.acc (u - 8)).poison
  else if tileState k u = .empty then some 7
  else if tilePoison k u then some 0xE
  else none

/-- A tile load or store of operation `op`. `n` is how many rows it may complete before an event is taken. -/
def tileMem (c : CoreId) (w : Word32) (op n : Nat) (e : Ecc)
    (row : Core → Nat → Ecc → State → RowGot) (s : State) : State :=
  issue c w .plain [raOf w, rbOf w] (tileDec c w op) (fun k s =>
    if tileWaits k w then .stay .retry s
    else
      let sh := tileShape k w
      match checkMem c k.sc (fld w 8 6) (strideOff w k.sc 0 0) sh.2.1 sh.2.2 (op == 1) with
      | some f => .trap f (if 8 ≤ tUnit w ∨ (k.tile (tUnit w)).rows ≠ 0 then tileStop c w (tileStart k w) s else s)
      | none =>
        match tileFault k w with
        | some x => .trap ⟨x, 0⟩ s
        | none => tileRows c w sh.1 (tileStart k w) (if k.wait = .none then .retry else k.wait) (row k) (max 1 n) (tileStart k w) e s) s

def execTld (c : CoreId) (w : Word32) (n : Nat) (e : Ecc) (s : State) : Host.Outcome State Fault Refusal :=
  .next (tileMem c w 0 n e (tldRow c w) s)
def execTst (c : CoreId) (w : Word32) (n : Nat) (e : Ecc) (s : State) : Host.Outcome State Fault Refusal :=
  .next (tileMem c w 1 n e (tstRow c w) s)
def execTldt (c : CoreId) (w : Word32) (n : Nat) (e : Ecc) (s : State) : Host.Outcome State Fault Refusal :=
  .next (tileMem c w 2 n e (tldtRow c w) s)
def execTldz (c : CoreId) (w : Word32) (n : Nat) (e : Ecc) (s : State) : Host.Outcome State Fault Refusal :=
  .next (tileMem c w 3 n e (tldzRow c w) s)

/-! ## Landings (06 R237-R240) -/

/-- The pieces of a landing of rows of `bpr` bytes: 128 bytes at a time of another scratchpad, a line at a time of near
and far memory (06 R237, 08 R302). -/
def landPieces (s : State) (c bpr : Nat) (rows : List Nat) : List LandPiece :=
  rows.zipIdx.flatMap (fun r =>
    let a := xlatAddr s c r.1
    let ps := match regionOf a with
      | .near | .far => pieces (bpr / 64 + 2) a bpr
      | .spad k => if k = c then [(a, bpr)] else piecesOf 128 (bpr / 128 + 2) a bpr
      | _ => [(a, bpr)]
    ps.map (fun p => ⟨p.1, p.2, r.2 * bpr + (p.1 - a)⟩))

/-- Requests a landing may have outstanding (06 R237). -/
def landMax : Nat := 16

/-- A piece that has come: its bytes, or that it cannot be had. -/
def Landing.take (l : Landing) (p : LandPiece) (b : Option (List Byte)) : Landing :=
  match b with
  | some b => { l with got := l.got ++ [(p.place, b)] }
  | none => { l with lost := l.lost ++ [p] }

/-- A landing goes on with one piece: what the core's own scratchpad or a register holds is read when the landing is
looked at (`now`); a line the data cache holds comes from it, one being filled waits; the rest is asked for. -/
def landAsk (c : Nat) (now : Option Ecc) (r : State × Landing) (p : LandPiece) : State × Landing :=
  let s := r.1
  let l := r.2
  let hold := { l with todo := l.todo ++ [p] }
  let ask := fun h : Home =>
    if landMax ≤ l.asked.length then (s, hold)
    else (sendReq { src := c, home := h, kind := .land l.tile, addr := p.addr, n := p.n, data := [], trusted := trustedCore s c } s,
          { l with asked := l.asked ++ [p] })
  match regionOf p.addr, now with
  | .near, _ | .far, _ =>
    let d := (s.core c).dcache
    match d.find (p.addr / 64) with
    | some x =>
      (s, l.take p (if (wordsOf (p.addr % 64) p.n).any (· ∈ x.bad) then none else some ((x.data.drop (p.addr % 64)).take p.n)))
    | none => if d.miss.any (fun m => m.addr == p.addr / 64 && m.stores != []) then (s, hold) else ask (homeOf s p.addr)
  | .spad k, now =>
    if k ≠ c then ask (.spad k)
    else match now with
      | none => (s, hold)
      | some e =>
        let q := memRead p.addr p.n e (coreUnit c 0) s
        (q.1, l.take p q.2)
  | _, none => (s, hold)
  | _, some _ =>
    let q := regRead false (p.addr - 0x03F0_0000_0000) p.n s
    (q.2, l.take p (some (leBytes p.n q.1)))

/-- A landing goes on with every piece it may. An error `now` is the first piece's. -/
def landGo (c : Nat) (now : Option Ecc) (s : State) (l : Landing) : State × Landing :=
  l.todo.zipIdx.foldl (fun r p => landAsk c (now.map (fun e => if p.2 = 0 then e else .clean)) r p.1) (s, { l with todo := [] })

/-- `tland`: every row's access is checked in order, then the landing starts. -/
def tland (c : CoreId) (w : Word32) (s : State) : State :=
  issue c w .plain [raOf w, rbOf w] (tileDec c w 4) (fun k s =>
    let sg := fld w 8 6
    let u := tUnit w
    let t := k.tile u
    let chk : Nat → Option Fail := fun j =>
      if (k.sc.sgm sg).cls = 3 then some ⟨4, sg⟩ else checkMem c k.sc sg (strideOff w k.sc j 0) t.bpr 4 false
    if tileWaits k w || decide (2 ≤ k.landings.length) then .stay .retry s
    else
      match chk 0 with
      | some f => .trap f s
      | none =>
        if t.rows = 0 then .trap ⟨6, 0⟩ s
        else
          match (nats t.rows 0 1).findSome? chk with
          | some f => .trap f s
          | none =>
            let ps := landPieces s c t.bpr ((nats t.rows 0 1).map (fun j => segAddr k.sc sg (strideOff w k.sc j 0)))
            let r := landGo c none (setTile c u (fun t => { t with st := .landing }) s) { tile := u, todo := ps }
            .done (r.1.updCore c (fun k => { k with landings := k.landings ++ [r.2] }))) s

/-- The answers that have come for a landing. -/
def landTake (c : Nat) (s : State) (l : Landing) : State × Landing :=
  let mine := fun r : Resp => respHere s c r && r.kind == .land l.tile
  ({ s with resps := s.resps.filter (fun r => !mine r) },
   (s.resps.filter mine).foldl (fun l r =>
     match takeFirst (fun p : LandPiece => p.addr == r.addr) l.asked with
     | some (p, rest) => { l with asked := rest }.take p (if r.bad then none else some r.data)
     | none => l) l)

/-- The bytes of a tile once its landing has ended; what was uncorrectable is open. -/
def landBytes (free : Nat) (l : Landing) (d : List Byte) : List Byte :=
  l.lost.foldl (fun d p => patch d p.place ((nats p.n p.place 1).map (Config.undefByte free)))
    (l.got.foldl (fun d p => patch d p.1 p.2) d)

/-- LANDING_COMPLETE: the landing of tile t takes what has come and goes on; it ends when it has everything. The severity and
the unit of its record are the model's (DESIGN CHOICE, log entry 22). -/
def landingComplete (c : CoreId) (t : Fin 8) (e : Ecc) (s : State) : State :=
  match takeFirst (fun l => l.tile == t.val) (s.core c).landings with
  | none => s
  | some (l, rest) =>
    let r := landTake c s l
    let q := landGo c (some e) r.1 r.2
    let s := q.1
    let l := q.2
    if l.todo ≠ [] ∨ l.asked ≠ [] then
      s.updCore c (fun k => { k with landings := k.landings.map (fun x => if x.tile = t.val then l else x) })
    else
      let free := s.freeCount
      let s := if l.lost = [] then s else record 2 (coreUnit c 2) 0x12 [] { s with freeCount := free + 1 }
      let s := pctrEvent c 0xF 1 (s.updCore c (fun k => { k with landings := rest }))
      settleAcquire c (setTile c t.val (fun x => { x with data := landBytes free l x.data, st := .full, poison := l.lost != [] }) s)

def execTland (c : CoreId) (w : Word32) (s : State) : Host.Outcome State Fault Refusal := .next (tland c w s)
def execLandingComplete (c : CoreId) (t : Fin 8) (e : Ecc) (s : State) : Host.Outcome State Fault Refusal :=
  .next (landingComplete c t e s)

end Sys2Proof.Machine
end

