-- ==== Sys2Proof/Machine/Matrix.lean ====
section
/-! DEFINITION. The matrix unit: the queue, the array's work, and what reads its state (06 R241-R258). -/

namespace Sys2Proof.Machine

/-! ## Formats and elements (06 R245, 07 R261) -/

/-- Element j of a row in format f, as its encoding. -/
def elemAt (f : Nat) (bs : List Byte) (j : Nat) : Nat :=
  match f with
  | 3 | 4 => leAt bs (j / 2) 1 / 2 ^ (4 * (j % 2)) % 16
  | 5 => leAt bs (2 * j) 2
  | 6 | 7 => leAt bs j 1 % 64
  | _ => leAt bs j 1

/-- Stored elements in n bytes. -/
def elemsIn (f n : Nat) : Nat := if f = 3 ∨ f = 4 then 2 * n else if f = 5 then n / 2 else n

/-- Products per step. -/
def perStep (f : Nat) : Nat := if f = 3 ∨ f = 4 then 2 else 1

/-- The value of an element: an integer where the format is one, MXINT8 as a multiple of 2^-6. -/
def elemVal (f : Nat) (mx : Bool) (x : Nat) : Val :=
  match f with
  | 0 => e4m3.dec x
  | 1 => e5m2.dec x
  | 2 =>
    let v := toSigned 8 x
    .fin (decide (v < 0)) v.natAbs (if mx then -6 else 0)
  | 3 => e2m1.dec x
  | 4 => .ofInt (toSigned 4 x)
  | 5 => bf16.dec x
  | 6 => e3m2.dec x
  | _ => e2m3.dec x

/-- An E8M0 scale (07 R267). -/
def scaleVal (x : Nat) : Val := if x = 0xFF then .nan else .fin false 1 ((x : Int) - 127)

/-- A product of a step: the encodings and its scale. -/
structure Prod where
  a : Nat
  b : Nat
  scale : Val := .fin false 1 0
deriving DecidableEq, Repr

/-- A step into one word: dropped products leave it (06 R247). -/
def stepWord (fa fb : Nat) (mx : Bool) (old : Nat) (ps : List Prod) : Option Nat :=
  let ps := ps.filter (fun p => p.a != 0 && p.b != 0)
  if ps = [] then none
  else if (fa = 2 ∨ fa = 4) ∧ !mx then
    let n := if fa = 2 then 8 else 4
    some (wrapTo 32 ((ps.map (fun p => toSigned n p.a * toSigned n p.b)).sum + toSigned 32 old))
  else
    some (enc32 (ps.foldl (fun v p =>
      Val.add v (Val.mul p.scale (Val.mul (elemVal fa mx p.a) (elemVal fb mx p.b)))) (dec32 old)))

/-- All steps into one word: its new value, and the first step that wrote a NaN. -/
def runWord (fa fb : Nat) (mx : Bool) (old : Nat) (steps : List (List Prod)) : Nat × Option Nat :=
  steps.zipIdx.foldl (fun r p =>
    match stepWord fa fb mx r.1 p.1 with
    | none => r
    | some v =>
      (v, if r.2.isNone && (dec32 v).isNan && !((fa == 2 || fa == 4) && !mx) then some p.2 else r.2)) (old, none)

/-! ## The products of a `tmma` (06 R246-R249) -/

/-- The operands a `tmma` works on. -/
structure Operands where
  fa : Nat
  fb : Nat
  mx : Bool
  sp : Bool
  kst : Nat
  ta : Tile
  tb : Tile
  sa : Tile
  sb : Tile
  tm : Tile

/-- The operands a word names. -/
def operands (k : Core) (w : Word32) : Operands :=
  let a := k.tile (fld w 19 17)
  { fa := fld w 7 5, fb := fld w 4 2, mx := fld w 1 1 == 1, sp := fld w 0 0 == 1,
    kst := elemsIn (fld w 7 5) a.bpr, ta := a, tb := k.tile (fld w 14 12), sa := k.tile (fld w 19 17 + 1),
    sb := k.tile (fld w 14 12 + 1), tm := k.tile (fld w 26 24) }

/-- The logical position of stored element e of row i (06 R249). -/
def logical (o : Operands) (i e : Nat) : Nat :=
  if o.sp then
    let g := e / 2
    let nib := leAt (o.tm.bytes i 0 o.tm.bpr) (g / 2) 1 / 2 ^ (4 * (g % 2)) % 16
    4 * g + nib / 2 ^ (2 * (e % 2)) % 4
  else e

/-- The product of stored element e for word (i, j). -/
def productAt (o : Operands) (i j e : Nat) : Prod :=
  let k := logical o i e
  { a := elemAt o.fa (o.ta.bytes i 0 o.ta.bpr) e
    b := elemAt o.fb (o.tb.bytes j 0 o.tb.bpr) k
    scale := if o.mx then
        Val.mul (scaleVal (leAt (o.sa.bytes i 0 o.sa.bpr) (k / 32) 1)) (scaleVal (leAt (o.sb.bytes j 0 o.sb.bpr) (k / 32) 1))
      else .fin false 1 0 }

/-- The steps into word (i, j). -/
def stepsAt (o : Operands) (i j : Nat) : List (List Prod) :=
  let p := perStep o.fa
  (nats (o.kst / p) 0 1).map (fun t => (nats p (t * p) 1).map (productAt o i j))

/-- The accumulator after the work on rows m and columns n, and where the first NaN is written: its step, then the
lowest row and column (06 R254). -/
def arrayWork (d m n fa fb : Nat) (mx : Bool) (steps : Nat → Nat → List (List Prod)) (a : Acc) : Acc × Option Nat :=
  let out := (nats m 0 1).flatMap (fun i => (nats n 0 1).map (fun j =>
    (32 * i + j, runWord fa fb mx (mget a.words (32 * i + j) 0).toNat (steps i j))))
  let first := out.foldl (fun (r : Option (Nat × Nat)) p =>
    match p.2.2, r with
    | some t, none => some (t, p.1)
    | some t, some q => if t < q.1 then some (t, p.1) else r
    | none, _ => r) none
  ({ a with words := out.foldl (fun ws p => if p.2.1 = (mget ws p.1 0).toNat then ws else mput ws p.1 (BitVec.ofNat 32 p.2.1)) a.words },
   first.map (fun p => d * 1024 + p.2))

/-! ## Occupancy (06 R250, R251) -/

/-- Whether any byte of columns [lo, hi) of a tile is not zero. -/
def columnsUsed (t : Tile) (lo hi : Nat) : Bool :=
  (nats t.rows 0 1).any (fun r => (t.bytes r lo (min hi t.bpr - lo)).any (· != 0))

/-- The occupancy mask of a tile. -/
def occupancy (t : Tile) : Nat :=
  ((nats 4 0 1).map (fun r => ((nats 16 0 1).map (fun c =>
    if (nats 8 (8 * r) 1).any (fun i => decide (i < t.rows) &&
      (t.bytes i (4 * c) (min (4 * c + 4) t.bpr - 4 * c)).any (· != 0)) then 2 ^ (16 * r + c) else 0)).sum)).sum

/-- The k-groups of a dense `tmma`: each as its stored elements, and whether the array skips it. -/
def kGroups (o : Operands) : List (Nat × Bool) :=
  let n := if o.fa = 3 ∨ o.fa = 4 then 4 else if o.fa = 5 then 16 else 8
  (nats ((o.kst + 7) / 8) 0 1).map (fun h =>
    (min 8 (o.kst - 8 * h),
     !o.sp && (!columnsUsed o.ta (n * h) (n * h + n) || !columnsUsed o.tb (n * h) (n * h + n))))

/-- Array cycles a `tmma` takes, and the k-groups it skips (06 R245, R251, R252). -/
def arrayCycles (o : Operands) : Nat × Nat :=
  let g := kGroups o
  let per := if o.fa = 5 then 4 else 1
  (((g.filter (fun p => !p.2)).map (fun p => p.1 / perStep o.fa * per)).sum, (g.filter Prod.snd).length)

/-! ## Issue (06 R241, R242, R245, R246, R257) -/

/-- The accumulator poison that all earlier instructions leave (06 R242, R258). -/
def accPoisonAt (k : Core) (d : Nat) : BitVec 2 :=
  k.matq.foldl (fun p m =>
    match m.work with
    | .aclr x => if x = d then 0 else p
    | .tmma w => if fld w 22 22 = d ∧ fld w 23 23 = 1 then 0 else p
    | _ => p) (k.acc d).poison

/-- Whether the formats and flags of a `tmma` go together (06 R245). -/
def tmmaFormats (w : Word32) : Bool :=
  let fa := fld w 7 5
  let fb := fld w 4 2
  let mx := fld w 1 1 == 1
  let fp := fun f : Nat => f == 0 || f == 1 || f == 6 || f == 7
  ((fp fa && fp fb) || fa == fb) && !(fld w 0 0 == 1 && (decide (4 < fa) || decide (4 < fb))) &&
  !(mx && (fa == 4 || fa == 5 || fb == 4 || fb == 5 || fld w 17 17 == 1 || fld w 12 12 == 1))

/-- The decode check of a matrix instruction. -/
def matDec (c : Nat) (w : Word32) (fn : Nat) (ok : Bool) : Core → Option Fail :=
  computeOnly c (fld w 11 8 == fn && ok)

/-- Whether the shapes of a `tmma` fit (06 R246); a gated tile fits nowhere. -/
def tmmaShapes (k : Core) (w : Word32) : Bool :=
  let o := operands k w
  let len := if o.sp then 2 * o.kst else o.kst
  let x := fld w 26 24
  let a := fld w 19 17
  let b := fld w 14 12
  (tmmaTiles w).all (fun i => (k.tile i).rows != 0) &&
  (if o.sp then
     o.tb.bpr == 2 * o.ta.bpr && o.tm.rows == o.ta.rows && decide (max 4 (len / 8) ≤ o.tm.bpr) && x != a && x != b &&
       (!o.mx || (x != a + 1 && x != b + 1))
   else o.tb.bpr == o.ta.bpr) &&
  (!o.mx || (len % 32 == 0 && o.sa.rows == o.ta.rows && o.sb.rows == o.tb.rows && o.sa.bpr == 4 && o.sb.bpr == 4))

/-- An instruction enters the matrix queue. -/
def enqueue (c : Nat) (k : Core) (m : MatWork) (s : State) : State :=
  s.updCore c (fun x => { x with matq := x.matq ++ [⟨m, k.sc.pc, k.sc.code.handle⟩] })

/-- A matrix instruction that enters the queue once its checks pass. -/
def queued (c : CoreId) (w : Word32) (srcs : List Nat) (dec : Core → Option Fail) (check : Core → Option Nat) (work : Core → MatWork)
    (s : State) : State :=
  issue c w .plain srcs dec (fun k s =>
    if 4 ≤ k.matq.length then .stay .retry s
    else match check k with
      | some x => .trap ⟨x, 0⟩ s
      | none => .done (enqueue c k (work k) s)) s

/-- The checks of a `tmma` at issue: shapes, states, poison. -/
def tmmaCheck (w : Word32) (k : Core) : Option Nat :=
  if !tmmaShapes k w then some 6
  else if (tmmaTiles w).any (fun i => tileState k i == .empty || tileState k i == .partialLoad) then some 7
  else if (tmmaTiles w).any (tilePoison k) then some 0xE
  else if fld w 23 23 = 1 then none else poisonCause (accPoisonAt k (fld w 22 22))

/-- `tmma`. -/
def tmma (c : CoreId) (w : Word32) (s : State) : State :=
  queued c w [] (matDec c w 0 (fld w 21 20 == 0 && fld w 16 15 == 0 && (fld w 0 0 == 1 || fld w 26 24 == 0) && tmmaFormats w))
    (tmmaCheck w) (fun _ => .tmma w) s

/-- `aclr`. -/
def aclr (c : CoreId) (w : Word32) (s : State) : State :=
  queued c w [] (matDec c w 1 (fld w 26 23 == 0 && fld w 21 12 == 0 && fld w 7 0 == 0)) (fun _ => none)
    (fun _ => .aclr (fld w 22 22)) s

/-- `trel`. -/
def trel (c : CoreId) (w : Word32) (s : State) : State :=
  queued c w [] (matDec c w 2 (fld w 26 12 == 0)) (fun _ => none) (fun _ => .trel (fld w 7 0)) s

/-- `tv2acc`: va is read at issue. -/
def tv2acc (c : CoreId) (w : Word32) (s : State) : State :=
  queued c w [rbOf w] (matDec c w 4 (fld w 26 23 == 0 && fld w 7 0 == 0)) (fun _ => none)
    (fun k => .tv2acc (fld w 22 22) (natBits (k.sc.gr (rbOf w)).toNat 4 0) (k.vr (raOf w))) s

/-- `tacc2v`. -/
def tacc2v (c : CoreId) (w : Word32) (s : State) : State :=
  issue c w .plain [rbOf w] (matDec c w 3 (fld w 21 18 == 0 && fld w 7 0 == 0)) (fun k s =>
    let a := fld w 17 17
    if k.matq.any (fun m => m.acc == some a) then .stay .retry s
    else match poisonCause (k.acc a).poison with
      | some x => .trap ⟨x, 0⟩ s
      | none => .done (s.setV c (rdOf w) (ofLanes 32 ((k.acc a).row (natBits (k.sc.gr (rbOf w)).toNat 4 0))))) s

/-- `tocc`. -/
def tocc (c : CoreId) (w : Word32) (s : State) : State :=
  issue c w .plain [] (matDec c w 5 (fld w 21 20 == 0 && fld w 16 12 == 0 && fld w 7 0 == 0)) (fun k s =>
    let x := fld w 19 17
    if (k.tile x).st = .landing then .stay .retry s
    else writeG c (rdOf w) (if tileState k x = .empty then 0 else BitVec.ofNat 64 (occupancy (k.tile x))) s) s

/-- The snapshot of `tstat` (06 R244). -/
def tstatWord (k : Core) : Nat :=
  ((nats 8 0 1).map (fun i =>
    let t := k.tile i
    (match t.st with | .empty => 0 | .full => 1 | .partialLoad => 2 | .landing => 3) * 2 ^ (2 * i) +
      (if t.poison then 2 ^ (16 + i) else 0))).sum +
  (k.acc 0).poison.toNat * 2 ^ 24 + (k.acc 1).poison.toNat * 2 ^ 26 + k.matq.length * 2 ^ 28

/-- `tstat`. -/
def tstat (c : CoreId) (w : Word32) (s : State) : State :=
  issue c w .plain [] (matDec c w 6 (fld w 21 12 == 0 && fld w 7 0 == 0))
    (fun k s => writeG c (rdOf w) (BitVec.ofNat 64 (tstatWord k)) s) s

def execTmma (c : CoreId) (w : Word32) (s : State) : Host.Outcome State Fault Refusal := .next (tmma c w s)
def execAclr (c : CoreId) (w : Word32) (s : State) : Host.Outcome State Fault Refusal := .next (aclr c w s)
def execTrel (c : CoreId) (w : Word32) (s : State) : Host.Outcome State Fault Refusal := .next (trel c w s)
def execTacc2v (c : CoreId) (w : Word32) (s : State) : Host.Outcome State Fault Refusal := .next (tacc2v c w s)
def execTv2acc (c : CoreId) (w : Word32) (s : State) : Host.Outcome State Fault Refusal := .next (tv2acc c w s)
def execTocc (c : CoreId) (w : Word32) (s : State) : Host.Outcome State Fault Refusal := .next (tocc c w s)
def execTstat (c : CoreId) (w : Word32) (s : State) : Host.Outcome State Fault Refusal := .next (tstat c w s)

/-! ## Execution (06 R242, R247, R254, R256) -/

/-- A residue mismatch of a queued entry (06 R256); the record's severity is the model's (DESIGN CHOICE, log entry 22). -/
def matMismatch (c d : Nat) (m : MatOp) (s : State) : State :=
  let kn := (s.core c).kernel
  let epc := (epcWord m.handle m.pc).toNat
  let det := match kn with | some q => stepDetails s epc q.1 q.2 | none => leBytes 8 epc ++ leBytes 10 0
  residueRisk (record 2 (coreUnit c 2) 0x10 det (setAcc c d (fun a => { a with poison := 2 }) s))

/-- The work of a `tmma`. -/
def tmmaWork (c : Nat) (w : Word32) (m : MatOp) (s : State) : State :=
  let k := s.core c
  let d := fld w 22 22
  if (tmmaTiles w).any (fun i => (k.tile i).poison) then setAcc c d (fun a => { a with poison := 1 }) s
  else
    let o := operands k w
    let a : Acc := if fld w 23 23 = 1 then {} else k.acc d
    let r := arrayWork d o.ta.rows o.tb.rows o.fa o.fb o.mx (stepsAt o) a
    let n := arrayCycles o
    let s := pctrEvent c 0xA n.2 (pctrEvent c 9 n.1 (setAcc c d (fun _ => r.1) s))
    match r.2 with
    | none => s
    | some pos =>
      let q := nanEvent c 4 0 pos w m.pc m.handle s
      if q.2 then q.1.updCore c (fun k => { k with nanTrap := some 1 }) else q.1

/-- The effect of an entry. -/
def matWork (c : Nat) (m : MatOp) (s : State) : State :=
  match m.work with
  | .tmma w => tmmaWork c w m s
  | .aclr d => pctrEvent c 9 1 (setAcc c d (fun _ => {}) s)
  | .trel x => pctrEvent c 9 1 (((nats 8 0 1).filter (natBit x)).foldl (fun s i =>
      setTile c i (fun t => { t with st := .empty, poison := false }) s) s)
  | .tv2acc d row v => setAcc c d (fun a => a.setRow row (lanesOf 32 v)) s
  | .mac2m _ _ _ => s

/-- The products of the step of a tile `mac2m` for word (i, j) (06 R253). -/
def macProducts (f : Nat) (a b : List Byte) (i j : Nat) : List Prod :=
  if f = 3 ∨ f = 4 then [⟨elemAt f a i, elemAt f b j, .fin false 1 0⟩, ⟨elemAt f a (32 + i), elemAt f b (32 + j), .fin false 1 0⟩]
  else [⟨elemAt f a i, elemAt f b j, .fin false 1 0⟩]

/-- Every word of an accumulator open. -/
def freeAcc (n : Nat) (a : Acc) : Acc :=
  { a with words := (nats 1024 0 1).map (fun i => (i, (Config.freeWord (n + i)).setWidth 32)) }

/-- The array work of a tile `mac2m`, with which the instruction retires or faults (06 R253, 03 R157). -/
def mac2mWork (c : Nat) (w : Word32) (a b : List Byte) (m : MatOp) (mismatch : Bool) (s : State) : State :=
  let k := s.core c
  let f := fld w 4 2
  let d := fld w 22 22
  let r := arrayWork d 32 32 f f false (fun i j => [macProducts f a b i j]) (k.acc d)
  let s1 := pctrEvent c 9 (if f = 5 then 4 else 1) s
  let q := match r.2 with
    | some pos => nanEvent c 5 0 pos w m.pc m.handle s1
    | none => (s1, false)
  finish c s (
    if q.2 then .trap ⟨8, 0⟩ q.1
    else if mismatch then
      .trap ⟨0xF, 0⟩ (setAcc c d (freeAcc q.1.freeCount) { q.1 with freeCount := q.1.freeCount + 1024 })
    else .done (macStep c (if f = 5 then 64 else 32) w k.sc (setAcc c d (fun _ => r.1) q.1)))

/-- TMMA_EXECUTE: the oldest entry of the matrix queue executes, unless a tile it names is landing. `mismatch` is what
the residue check of its work finds. -/
def tmmaExecute (c : CoreId) (mismatch : Bool) (s : State) : State :=
  let k := s.core c
  match k.matq with
  | [] => s
  | m :: rest =>
    if m.tiles.any (fun i => (k.tile i).st == .landing) then s
    else match m.work with
    | .mac2m w a b =>
      if k.wait ≠ .mac then s.updCore c (fun k => { k with matq := rest })
      else if k.sc.divide.isSome then s
      else mac2mWork c w a b m mismatch (s.updCore c (fun k => { k with matq := rest }))
    | _ =>
      let ran := match m.work with | .tmma w => !(tmmaTiles w).any (fun i => (k.tile i).poison) | _ => true
      let s := matWork c m (s.updCore c (fun k => { k with matq := rest }))
      match m.acc with
      | some d => if mismatch && ran then matMismatch c d m s else s
      | none => s

def execTmmaExecute (c : CoreId) (mismatch : Bool) (s : State) : Host.Outcome State Fault Refusal :=
  .next (tmmaExecute c mismatch s)

/-- NAN_TRAP_DEFERRED: the NaN trap of a `tmma`, of level 3, is taken at a boundary (06 R254, 07 R291). -/
def nanTrapDeferred (c : CoreId) (s : State) : State :=
  let k := s.core c
  if k.nanTrap.isSome && unheld k && atBoundary k && !k.wait.midway && (deliverable k.sc).all (fun b => decide (b.2.2.1 < 3)) then
    takeFault c ⟨8, 0⟩ ((match k.wait with | .grant _ _ => withdraw c .kept s | _ => s).updCore c
      (fun k => { k with nanTrap := none }))
  else s

def execNanTrapDeferred (c : CoreId) (s : State) : Host.Outcome State Fault Refusal := .next (nanTrapDeferred c s)

/-! ## The tile variant of `mac2m` (03 R153-R157, 06 R253) -/

/-- MAC2M_TILE: the operands are fetched and checked, and the array work enters the matrix queue; the core waits with the
instruction until it executes. -/
def mac2mTile (c : CoreId) (w : Word32) (e : Ecc × Ecc) (s : State) : State :=
  let f := fld w 4 2
  issue c w .plain [raOf w, rbOf w]
    (computeOnly c (fld w 11 11 == 1 && fld w 26 23 == 0 && decide (f ≤ 5) && fld w 0 0 == 0)) (fun k s =>
    if k.matq ≠ [] then .stay .retry s
    else
      match macFetch c (if f = 5 then 64 else 32) w k.sc e s with
      | (s, .error x) => .trap x s
      | (s, .ok (a, b)) =>
        match poisonCause (k.acc (fld w 22 22)).poison with
        | some x => .trap ⟨x, 0⟩ s
        | none => .stay .mac (enqueue c k (.mac2m w a b) s)) s

def execMac2mTile (c : CoreId) (w : Word32) (ea eb : Ecc) (s : State) : Host.Outcome State Fault Refusal :=
  .next (mac2mTile c w (ea, eb) s)

end Sys2Proof.Machine
end

