-- ==== Sys2Proof/Machine/Dispatch.lean ====
section
/-! DEFINITION. One arm for each command. -/

namespace Sys2Proof.Machine

def exec (i : Instr) (s : State) : Host.Outcome State Fault Refusal :=
  match i with
  | .coldSequencing => Sys2Proof.Machine.execColdSequencing s
  | .railRegulated => Sys2Proof.Machine.execRailRegulated s
  | .railTimeout => Sys2Proof.Machine.execRailTimeout s
  | .railSequenceRetry => Sys2Proof.Machine.execRailSequenceRetry s
  | .onDieFillDone => Sys2Proof.Machine.execOnDieFillDone s
  | .nearFillDone => Sys2Proof.Machine.execNearFillDone s
  | .modResetAssert => Sys2Proof.Machine.execModResetAssert s
  | .modResetRelease => Sys2Proof.Machine.execModResetRelease s
  | .rst b tag value => Sys2Proof.Machine.execRst b tag value s
  | .rstDelayExpiry => Sys2Proof.Machine.execRstDelayExpiry s
  | .rstResetEnd => Sys2Proof.Machine.execRstResetEnd s
  | .engineReset ask => Sys2Proof.Machine.execEngineReset ask s
  | .contextReset ask => Sys2Proof.Machine.execContextReset ask s
  | .engineResetDone ctx idx => Sys2Proof.Machine.execEngineResetDone ctx idx s
  | .registerWrite who off wide v => Sys2Proof.Machine.execRegisterWrite who off wide v s
  | .rcRegisterRead b tag off wide => Sys2Proof.Machine.execRcRegisterRead b tag off wide s
  | .mshDistSvcWrite v => Sys2Proof.Machine.execMshDistSvcWrite v s
  | .kilnTick r => Sys2Proof.Machine.execKilnTick r s
  | .frameSyncEdge r => Sys2Proof.Machine.execFrameSyncEdge r s
  | .syncWindowExpiry r => Sys2Proof.Machine.execSyncWindowExpiry r s
  | .acquisitionTimeout r => Sys2Proof.Machine.execAcquisitionTimeout r s
  | .frameCtlWrite v => Sys2Proof.Machine.execFrameCtlWrite v s
  | .abortGraceExpiry q => Sys2Proof.Machine.execAbortGraceExpiry q s
  | .queueEnable q v => Sys2Proof.Machine.execQueueEnable q v s
  | .queueDisable q => Sys2Proof.Machine.execQueueDisable q s
  | .doorbellWrite q t => Sys2Proof.Machine.execDoorbellWrite q t s
  | .db b q t => Sys2Proof.Machine.execDb b q t s
  | .headerFetch q hv => Sys2Proof.Machine.execHeaderFetch q hv s
  | .nop q hv => Sys2Proof.Machine.execNop q hv s
  | .sigCommand q hv => Sys2Proof.Machine.execSigCommand q hv s
  | .waitCommand q hv => Sys2Proof.Machine.execWaitCommand q hv s
  | .decCommand q hv => Sys2Proof.Machine.execDecCommand q hv s
  | .launch q hv => Sys2Proof.Machine.execLaunch q hv s
  | .kernelLaunch q => Sys2Proof.Machine.execKernelLaunch q s
  | .copy q hv => Sys2Proof.Machine.execCopy q hv s
  | .completionRecordWrite q => Sys2Proof.Machine.execCompletionRecordWrite q s
  | .coalesceTimerExpiry m => Sys2Proof.Machine.execCoalesceTimerExpiry m s
  | .ringEnable m v => Sys2Proof.Machine.execRingEnable m v s
  | .ringDisable m => Sys2Proof.Machine.execRingDisable m s
  | .crheadWrite m v => Sys2Proof.Machine.execCrheadWrite m v s
  | .repairGrant => Sys2Proof.Machine.execRepairGrant s
  | .add c w => Sys2Proof.Machine.execAdd c w s
  | .sub c w => Sys2Proof.Machine.execSub c w s
  | .and c w => Sys2Proof.Machine.execAnd c w s
  | .or c w => Sys2Proof.Machine.execOr c w s
  | .xor c w => Sys2Proof.Machine.execXor c w s
  | .andn c w => Sys2Proof.Machine.execAndn c w s
  | .slt c w => Sys2Proof.Machine.execSlt c w s
  | .sltu c w => Sys2Proof.Machine.execSltu c w s
  | .sll c w => Sys2Proof.Machine.execSll c w s
  | .srl c w => Sys2Proof.Machine.execSrl c w s
  | .sra c w => Sys2Proof.Machine.execSra c w s
  | .slli c w => Sys2Proof.Machine.execSlli c w s
  | .srli c w => Sys2Proof.Machine.execSrli c w s
  | .srai c w => Sys2Proof.Machine.execSrai c w s
  | .min c w => Sys2Proof.Machine.execMin c w s
  | .max c w => Sys2Proof.Machine.execMax c w s
  | .minu c w => Sys2Proof.Machine.execMinu c w s
  | .maxu c w => Sys2Proof.Machine.execMaxu c w s
  | .clz c w => Sys2Proof.Machine.execClz c w s
  | .ctz c w => Sys2Proof.Machine.execCtz c w s
  | .popc c w => Sys2Proof.Machine.execPopc c w s
  | .sextw c w => Sys2Proof.Machine.execSextw c w s
  | .zextw c w => Sys2Proof.Machine.execZextw c w s
  | .addi c w => Sys2Proof.Machine.execAddi c w s
  | .andi c w => Sys2Proof.Machine.execAndi c w s
  | .ori c w => Sys2Proof.Machine.execOri c w s
  | .xori c w => Sys2Proof.Machine.execXori c w s
  | .lui c w => Sys2Proof.Machine.execLui c w s
  | .lsi c w => Sys2Proof.Machine.execLsi c w s
  | .slti c w => Sys2Proof.Machine.execSlti c w s
  | .mul c w => Sys2Proof.Machine.execMul c w s
  | .mulh c w => Sys2Proof.Machine.execMulh c w s
  | .mulhu c w => Sys2Proof.Machine.execMulhu c w s
  | .div c w => Sys2Proof.Machine.execDiv c w s
  | .divu c w => Sys2Proof.Machine.execDivu c w s
  | .rem c w => Sys2Proof.Machine.execRem c w s
  | .remu c w => Sys2Proof.Machine.execRemu c w s
  | .divideComplete c => Sys2Proof.Machine.execDivideComplete c s
  | .beq c w => Sys2Proof.Machine.execBeq c w s
  | .bne c w => Sys2Proof.Machine.execBne c w s
  | .blt c w => Sys2Proof.Machine.execBlt c w s
  | .bge c w => Sys2Proof.Machine.execBge c w s
  | .bltu c w => Sys2Proof.Machine.execBltu c w s
  | .bgeu c w => Sys2Proof.Machine.execBgeu c w s
  | .j c w => Sys2Proof.Machine.execJ c w s
  | .jal c w => Sys2Proof.Machine.execJal c w s
  | .jr c w => Sys2Proof.Machine.execJr c w s
  | .jalr c w => Sys2Proof.Machine.execJalr c w s
  | .ld c w e => Sys2Proof.Machine.execLd c w e s
  | .st c w e => Sys2Proof.Machine.execSt c w e s
  | .loadDataReturn c e => Sys2Proof.Machine.execLoadDataReturn c e s
  | .interruptTaken c => Sys2Proof.Machine.execInterruptTaken c s
  | .nanTrapDeferred c => Sys2Proof.Machine.execNanTrapDeferred c s
  | .cget c w => Sys2Proof.Machine.execCget c w s
  | .cput c w => Sys2Proof.Machine.execCput c w s
  | .cupd c w => Sys2Proof.Machine.execCupd c w s
  | .sys c w => Sys2Proof.Machine.execSys c w s
  | .mark c w => Sys2Proof.Machine.execMark c w s
  | .exit c w => Sys2Proof.Machine.execExit c w s
  | .resume c w => Sys2Proof.Machine.execResume c w s
  | .idle c w => Sys2Proof.Machine.execIdle c w s
  | .idleWake c => Sys2Proof.Machine.execIdleWake c s
  | .sld c w => Sys2Proof.Machine.execSld c w s
  | .snarrow c w => Sys2Proof.Machine.execSnarrow c w s
  | .sdrop c w => Sys2Proof.Machine.execSdrop c w s
  | .srdb c w => Sys2Proof.Machine.execSrdb c w s
  | .srdl c w => Sys2Proof.Machine.execSrdl c w s
  | .srda c w => Sys2Proof.Machine.execSrda c w s
  | .swr c w => Sys2Proof.Machine.execSwr c w s
  | .lpset c w => Sys2Proof.Machine.execLpset c w s
  | .blkMov c w n e => Sys2Proof.Machine.execBlkMov c w n e s
  | .blkFill c w n e => Sys2Proof.Machine.execBlkFill c w n e s
  | .blkCmp c w n e => Sys2Proof.Machine.execBlkCmp c w n e s
  | .blkScan c w n e => Sys2Proof.Machine.execBlkScan c w n e s
  | .blkMac c w n e => Sys2Proof.Machine.execBlkMac c w n e s
  | .mac2mVector c w e mismatch => Sys2Proof.Machine.execMac2mVector c w e mismatch s
  | .mac2mTile c w ea eb => Sys2Proof.Machine.execMac2mTile c w ea eb s
  | .tkInit c w => Sys2Proof.Machine.execTkInit c w s
  | .tkPush c w => Sys2Proof.Machine.execTkPush c w s
  | .tkPushv c w => Sys2Proof.Machine.execTkPushv c w s
  | .tkRd c w => Sys2Proof.Machine.execTkRd c w s
  | .tkCnt c w => Sys2Proof.Machine.execTkCnt c w s
  | .tkThr c w => Sys2Proof.Machine.execTkThr c w s
  | .skHam c w => Sys2Proof.Machine.execSkHam c w s
  | .skHam2 c w => Sys2Proof.Machine.execSkHam2 c w s
  | .skHam4 c w => Sys2Proof.Machine.execSkHam4 c w s
  | .skSign c w => Sys2Proof.Machine.execSkSign c w s
  | .hsCrc c w => Sys2Proof.Machine.execHsCrc c w s
  | .hsCrcw c w => Sys2Proof.Machine.execHsCrcw c w s
  | .hsMix c w => Sys2Proof.Machine.execHsMix c w s
  | .vadd c w => Sys2Proof.Machine.execVadd c w s
  | .vsub c w => Sys2Proof.Machine.execVsub c w s
  | .vmul c w mismatch => Sys2Proof.Machine.execVmul c w mismatch s
  | .vfma c w mismatch => Sys2Proof.Machine.execVfma c w mismatch s
  | .vfms c w mismatch => Sys2Proof.Machine.execVfms c w mismatch s
  | .vmax c w => Sys2Proof.Machine.execVmax c w s
  | .vmin c w => Sys2Proof.Machine.execVmin c w s
  | .vabs c w => Sys2Proof.Machine.execVabs c w s
  | .vneg c w => Sys2Proof.Machine.execVneg c w s
  | .vand c w => Sys2Proof.Machine.execVand c w s
  | .vor c w => Sys2Proof.Machine.execVor c w s
  | .vxor c w => Sys2Proof.Machine.execVxor c w s
  | .vsll c w => Sys2Proof.Machine.execVsll c w s
  | .vsrl c w => Sys2Proof.Machine.execVsrl c w s
  | .vsra c w => Sys2Proof.Machine.execVsra c w s
  | .vcmp c w => Sys2Proof.Machine.execVcmp c w s
  | .vbsel c w => Sys2Proof.Machine.execVbsel c w s
  | .vperm c w => Sys2Proof.Machine.execVperm c w s
  | .vslide c w => Sys2Proof.Machine.execVslide c w s
  | .vzip c w => Sys2Proof.Machine.execVzip c w s
  | .vuzp c w => Sys2Proof.Machine.execVuzp c w s
  | .vsplat c w => Sys2Proof.Machine.execVsplat c w s
  | .vext c w => Sys2Proof.Machine.execVext c w s
  | .vins c w => Sys2Proof.Machine.execVins c w s
  | .vmov c w => Sys2Proof.Machine.execVmov c w s
  | .vrsum c w => Sys2Proof.Machine.execVrsum c w s
  | .vrmax c w => Sys2Proof.Machine.execVrmax c w s
  | .vrmin c w => Sys2Proof.Machine.execVrmin c w s
  | .vrmaxa c w => Sys2Proof.Machine.execVrmaxa c w s
  | .vrarg c w => Sys2Proof.Machine.execVrarg c w s
  | .vexp2 c w => Sys2Proof.Machine.execVexp2 c w s
  | .vlog2 c w => Sys2Proof.Machine.execVlog2 c w s
  | .vrcp c w => Sys2Proof.Machine.execVrcp c w s
  | .vrsqrt c w => Sys2Proof.Machine.execVrsqrt c w s
  | .vscl c w => Sys2Proof.Machine.execVscl c w s
  | .vitof c w => Sys2Proof.Machine.execVitof c w s
  | .vftoi c w => Sys2Proof.Machine.execVftoi c w s
  | .vectorConversion c w => Sys2Proof.Machine.execVectorConversion c w s
  | .vld c w e => Sys2Proof.Machine.execVld c w e s
  | .vst c w e => Sys2Proof.Machine.execVst c w e s
  | .vlds c w e => Sys2Proof.Machine.execVlds c w e s
  | .vsts c w e => Sys2Proof.Machine.execVsts c w e s
  | .vldt c w e => Sys2Proof.Machine.execVldt c w e s
  | .vstt c w e => Sys2Proof.Machine.execVstt c w e s
  | .tld c w n e => Sys2Proof.Machine.execTld c w n e s
  | .tst c w n e => Sys2Proof.Machine.execTst c w n e s
  | .tldt c w n e => Sys2Proof.Machine.execTldt c w n e s
  | .tldz c w n e => Sys2Proof.Machine.execTldz c w n e s
  | .tland c w => Sys2Proof.Machine.execTland c w s
  | .landingComplete c t e => Sys2Proof.Machine.execLandingComplete c t e s
  | .tmma c w => Sys2Proof.Machine.execTmma c w s
  | .tmmaExecute c mismatch => Sys2Proof.Machine.execTmmaExecute c mismatch s
  | .aclr c w => Sys2Proof.Machine.execAclr c w s
  | .trel c w => Sys2Proof.Machine.execTrel c w s
  | .tacc2v c w => Sys2Proof.Machine.execTacc2v c w s
  | .tv2acc c w => Sys2Proof.Machine.execTv2acc c w s
  | .tocc c w => Sys2Proof.Machine.execTocc c w s
  | .tstat c w => Sys2Proof.Machine.execTstat c w s
  | .tcfg c w => Sys2Proof.Machine.execTcfg c w s
  | .rxopen c w => Sys2Proof.Machine.execRxopen c w s
  | .rxclose c w => Sys2Proof.Machine.execRxclose c w s
  | .chopen c w => Sys2Proof.Machine.execChopen c w s
  | .chclose c w => Sys2Proof.Machine.execChclose c w s
  | .chsend c w e => Sys2Proof.Machine.execChsend c w e s
  | .chrecv c w => Sys2Proof.Machine.execChrecv c w s
  | .chdone c w => Sys2Proof.Machine.execChdone c w s
  | .chsel c w => Sys2Proof.Machine.execChsel c w s
  | .dgring c w => Sys2Proof.Machine.execDgring c w s
  | .dgsend c w e => Sys2Proof.Machine.execDgsend c w e s
  | .dgsendm c w e => Sys2Proof.Machine.execDgsendm c w e s
  | .mcwr c w e => Sys2Proof.Machine.execMcwr c w e s
  | .cbsend c w e => Sys2Proof.Machine.execCbsend c w e s
  | .openRequestArrival src dst => Sys2Proof.Machine.execOpenRequestArrival src dst s
  | .openReplyArrival src dst => Sys2Proof.Machine.execOpenReplyArrival src dst s
  | .messageArrival src dst t => Sys2Proof.Machine.execMessageArrival src dst t s
  | .spaceUpdateArrival src dst => Sys2Proof.Machine.execSpaceUpdateArrival src dst s
  | .endMarkerArrival src dst => Sys2Proof.Machine.execEndMarkerArrival src dst s
  | .closeNoticeArrival src dst => Sys2Proof.Machine.execCloseNoticeArrival src dst s
  | .datagramArrival src dst t => Sys2Proof.Machine.execDatagramArrival src dst t s
  | .datagramAnswerArrival src dst => Sys2Proof.Machine.execDatagramAnswerArrival src dst s
  | .combineDelivery dst => Sys2Proof.Machine.execCombineDelivery dst s
  | .amoAdd c w e => Sys2Proof.Machine.execAmoAdd c w e s
  | .amoSwap c w e => Sys2Proof.Machine.execAmoSwap c w e s
  | .amoCas c w e => Sys2Proof.Machine.execAmoCas c w e s
  | .amoAnd c w e => Sys2Proof.Machine.execAmoAnd c w e s
  | .amoOr c w e => Sys2Proof.Machine.execAmoOr c w e s
  | .amoXor c w e => Sys2Proof.Machine.execAmoXor c w e s
  | .amoMax c w e => Sys2Proof.Machine.execAmoMax c w e s
  | .amoMin c w e => Sys2Proof.Machine.execAmoMin c w e s
  | .sig c w => Sys2Proof.Machine.execSig c w s
  | .wait c w => Sys2Proof.Machine.execWait c w s
  | .dec c w => Sys2Proof.Machine.execDec c w s
  | .sread c w => Sys2Proof.Machine.execSread c w s
  | .syncOpArrival p issuers => Sys2Proof.Machine.execSyncOpArrival p issuers s
  | .syncAnswerArrival c => Sys2Proof.Machine.execSyncAnswerArrival c s
  | .syncGrantArrival a => Sys2Proof.Machine.execSyncGrantArrival a s
  | .fenceRel c w => Sys2Proof.Machine.execFenceRel c w s
  | .fenceAcq c w => Sys2Proof.Machine.execFenceAcq c w s
  | .fenceAr c w => Sys2Proof.Machine.execFenceAr c w s
  | .dcInv c w => Sys2Proof.Machine.execDcInv c w s
  | .dcClean c w => Sys2Proof.Machine.execDcClean c w s
  | .dcFlush c w => Sys2Proof.Machine.execDcFlush c w s
  | .dcAll c w => Sys2Proof.Machine.execDcAll c w s
  | .icAll c w => Sys2Proof.Machine.execIcAll c w s
  | .pf c w => Sys2Proof.Machine.execPf c w s
  | .cacheFillArrival c line r => Sys2Proof.Machine.execCacheFillArrival c line r s
  | .writeAckArrival c => Sys2Proof.Machine.execWriteAckArrival c s
  | .sweeperRead c finds => Sys2Proof.Machine.execSweeperRead c finds s
  | .scratchpadRemoteAccess c src r => Sys2Proof.Machine.execScratchpadRemoteAccess c src r s
  | .nearMemoryRequest n src r => Sys2Proof.Machine.execNearMemoryRequest n src r s
  | .farMemoryRequest p src r => Sys2Proof.Machine.execFarMemoryRequest p src r s
  | .nearRefresh n bank => Sys2Proof.Machine.execNearRefresh n bank s
  | .farRefresh p rfm => Sys2Proof.Machine.execFarRefresh p rfm s
  | .calibrationDue p retrain => Sys2Proof.Machine.execCalibrationDue p retrain s
  | .oscTracking p drift => Sys2Proof.Machine.execOscTracking p drift s
  | .retrainSlice p => Sys2Proof.Machine.execRetrainSlice p s
  | .calDeadlineExpiry p retrain => Sys2Proof.Machine.execCalDeadlineExpiry p retrain s
  | .nmcRepairGo n v => Sys2Proof.Machine.execNmcRepairGo n v s
  | .nearRowRepair n => Sys2Proof.Machine.execNearRowRepair n s
  | .fmcRepairGo p v => Sys2Proof.Machine.execFmcRepairGo p v s
  | .farRepairDone p resource => Sys2Proof.Machine.execFarRepairDone p resource s
  | .fmcMapStart v => Sys2Proof.Machine.execFmcMapStart v s
  | .farTrainingDone p ok => Sys2Proof.Machine.execFarTrainingDone p ok s
  | .farFillDone p => Sys2Proof.Machine.execFarFillDone p s
  | .farChannelFail p => Sys2Proof.Machine.execFarChannelFail p s
  | .farScrubGroup p finds => Sys2Proof.Machine.execFarScrubGroup p finds s
  | .nearScrubRow n finds => Sys2Proof.Machine.execNearScrubRow n finds s
  | .swath q hv => Sys2Proof.Machine.execSwath q hv s
  | .mowerScanDone p finds => Sys2Proof.Machine.execMowerScanDone p finds s
  | .sieveResultArrival p t => Sys2Proof.Machine.execSieveResultArrival p t s
  | .readyWordWrite => Sys2Proof.Machine.execReadyWordWrite s
  | .snapshot q hv => Sys2Proof.Machine.execSnapshot q hv s
  | .resync q hv => Sys2Proof.Machine.execResync q hv s
  | .resyncStreamEnd => Sys2Proof.Machine.execResyncStreamEnd s
  | .multicastWriteArrival src dst e t => Sys2Proof.Machine.execMulticastWriteArrival src dst e t s
  | .combineArrival router src r => Sys2Proof.Machine.execCombineArrival router src r s
  | .combineHoldExpiry router entry => Sys2Proof.Machine.execCombineHoldExpiry router entry s
  | .detWaitExpiry router entry => Sys2Proof.Machine.execDetWaitExpiry router entry s
  | .mshMonSelWrite k v => Sys2Proof.Machine.execMshMonSelWrite k v s
  | .linkDetect l b lanes => Sys2Proof.Machine.execLinkDetect l b lanes s
  | .equalisationDone l b => Sys2Proof.Machine.execEqualisationDone l b s
  | .alignmentDone l b usable partner inverted => Sys2Proof.Machine.execAlignmentDone l b usable partner inverted s
  | .fecLock l b ok => Sys2Proof.Machine.execFecLock l b ok s
  | .flitInit l b posted nonPosted peerLast => Sys2Proof.Machine.execFlitInit l b posted nonPosted peerLast s
  | .trainingTimeout l b => Sys2Proof.Machine.execTrainingTimeout l b s
  | .codewordReceive l b r => Sys2Proof.Machine.execCodewordReceive l b r s
  | .flitReceive l b f => Sys2Proof.Machine.execFlitReceive l b f s
  | .ackTimeout l b => Sys2Proof.Machine.execAckTimeout l b s
  | .bctlRetrain l b => Sys2Proof.Machine.execBctlRetrain l b s
  | .bctlDisable l b => Sys2Proof.Machine.execBctlDisable l b s
  | .hrd b tag window off len ord e => Sys2Proof.Machine.execHrd b tag window off len ord e s
  | .hwr b window off data ord poison e => Sys2Proof.Machine.execHwr b window off data ord poison e s
  | .placed b src0 count refused => Sys2Proof.Machine.execPlaced b src0 count refused s
  | .cpl tag data => Sys2Proof.Machine.execCpl tag data s
  | .cple tag status => Sys2Proof.Machine.execCple tag status s
  | .cplTimeout tag => Sys2Proof.Machine.execCplTimeout tag s
  | .placedTimeout b n => Sys2Proof.Machine.execPlacedTimeout b n s
  | .pairingStart => Sys2Proof.Machine.execPairingStart s
  | .mpair slot map state => Sys2Proof.Machine.execMpair slot map state s
  | .pairingTimeout => Sys2Proof.Machine.execPairingTimeout s
  | .fsync frame timeNs r => Sys2Proof.Machine.execFsync frame timeNs r s
  | .closeMarkArrival b src => Sys2Proof.Machine.execCloseMarkArrival b src s
  | .mfwd b addr kind data poison => Sys2Proof.Machine.execMfwd b addr kind data poison s
  | .mepoch b frame kind sent openFrame inUse => Sys2Proof.Machine.execMepoch b frame kind sent openFrame inUse s
  | .mack frame kind => Sys2Proof.Machine.execMack frame kind s
  | .mhb frame state risk ack => Sys2Proof.Machine.execMhb frame state risk ack s
  | .heartbeatTimeout r => Sys2Proof.Machine.execHeartbeatTimeout r s
  | .witnessRead hv r => Sys2Proof.Machine.execWitnessRead hv r s
  | .mgasp reason r => Sys2Proof.Machine.execMgasp reason r s
  | .hearthSample vMv iMa amps0 amps1 => Sys2Proof.Machine.execHearthSample vMv iMa amps0 amps1 s
  | .req38End => Sys2Proof.Machine.execReq38End s
  | .phaseShed die amps => Sys2Proof.Machine.execPhaseShed die amps s
  | .vcoreTrim die => Sys2Proof.Machine.execVcoreTrim die s
  | .rippleWindow h1 h2 h3 h4 => Sys2Proof.Machine.execRippleWindow h1 h2 h3 h4 s
  | .waveArm v => Sys2Proof.Machine.execWaveArm v s
  | .waveSwTrig => Sys2Proof.Machine.execWaveSwTrig s
  | .waveCaptureDone => Sys2Proof.Machine.execWaveCaptureDone s
  | .thermalConversion temps => Sys2Proof.Machine.execThermalConversion temps s
  | .dramReading temps => Sys2Proof.Machine.execDramReading temps s
  | .idleLatchTimer counts => Sys2Proof.Machine.execIdleLatchTimer counts s
  | .throttleRequestFall dram => Sys2Proof.Machine.execThrottleRequestFall dram s
  | .droopTrip k => Sys2Proof.Machine.execDroopTrip k s
  | .droopRequestEnd => Sys2Proof.Machine.execDroopRequestEnd s
  | .riskHoldExpiry input => Sys2Proof.Machine.execRiskHoldExpiry input s
  | .parityHalt c => Sys2Proof.Machine.execParityHalt c s
  | .commandParityError q => Sys2Proof.Machine.execCommandParityError q s
  | .copyParityError q => Sys2Proof.Machine.execCopyParityError q s
  | .replayStart q => Sys2Proof.Machine.execReplayStart q s
  | .fallowSegment c judged passed retestsFailed => Sys2Proof.Machine.execFallowSegment c judged passed retestsFailed s
  | .errorRecord => Sys2Proof.Machine.execErrorRecord s
  | .coalesceWindowExpiry unit op => Sys2Proof.Machine.execCoalesceWindowExpiry unit op s
  | .hostRingCopy => Sys2Proof.Machine.execHostRingCopy s
  | .historyWrite => Sys2Proof.Machine.execHistoryWrite s
  | .rasRetiredWrite w v => Sys2Proof.Machine.execRasRetiredWrite w v s
  | .romStart => Sys2Proof.Machine.execRomStart s
  | .imageCheckDone r => Sys2Proof.Machine.execImageCheckDone r s
  | .ready => Sys2Proof.Machine.execReady s
  | .rcvGo v r => Sys2Proof.Machine.execRcvGo v r s
  | .rcvAbort => Sys2Proof.Machine.execRcvAbort s
  | .reflashDone => Sys2Proof.Machine.execReflashDone s
  | .fuseBurn => Sys2Proof.Machine.execFuseBurn s
  | .lmsReservation => Sys2Proof.Machine.execLmsReservation s
  | .newNonce => Sys2Proof.Machine.execNewNonce s
  | .submit => Sys2Proof.Machine.execSubmit s
  | .tokenCheckDone ecdsaOk hssOk => Sys2Proof.Machine.execTokenCheckDone ecdsaOk hssOk s
  | .relock => Sys2Proof.Machine.execRelock s
  | .getVersion => Sys2Proof.Machine.execGetVersion s
  | .getCapabilities => Sys2Proof.Machine.execGetCapabilities s
  | .negotiateAlgorithms p384 sha384 => Sys2Proof.Machine.execNegotiateAlgorithms p384 sha384 s
  | .getDigests => Sys2Proof.Machine.execGetDigests s
  | .getCertificate slot off len => Sys2Proof.Machine.execGetCertificate slot off len s
  | .challenge slot => Sys2Proof.Machine.execChallenge slot s
  | .getMeasurements index => Sys2Proof.Machine.execGetMeasurements index s
  | .vendorDefinedRequest ask => Sys2Proof.Machine.execVendorDefinedRequest ask s
  | .spdmUnsupportedRequest code => Sys2Proof.Machine.execSpdmUnsupportedRequest code s
  | .entdaa addr => Sys2Proof.Machine.execEntdaa addr s
  | .setdasa addr => Sys2Proof.Machine.execSetdasa addr s
  | .setaasa => Sys2Proof.Machine.execSetaasa s
  | .rstdaa => Sys2Proof.Machine.execRstdaa s
  | .setEndpointId eid => Sys2Proof.Machine.execSetEndpointId eid s
  | .getEndpointId => Sys2Proof.Machine.execGetEndpointId s
  | .getMctpVersionSupport msgType => Sys2Proof.Machine.execGetMctpVersionSupport msgType s
  | .getMessageTypeSupport => Sys2Proof.Machine.execGetMessageTypeSupport s
  | .getEndpointUuid => Sys2Proof.Machine.execGetEndpointUuid s
  | .gettid => Sys2Proof.Machine.execGettid s
  | .getpldmversion pldmType => Sys2Proof.Machine.execGetpldmversion pldmType s
  | .getpldmtypes => Sys2Proof.Machine.execGetpldmtypes s
  | .getpldmcommands pldmType => Sys2Proof.Machine.execGetpldmcommands pldmType s
  | .seteventreceiver eid => Sys2Proof.Machine.execSeteventreceiver eid s
  | .pollforplatformeventmessage => Sys2Proof.Machine.execPollforplatformeventmessage s
  | .platformeventmessageAck a => Sys2Proof.Machine.execPlatformeventmessageAck a s
  | .getpdr handle => Sys2Proof.Machine.execGetpdr handle s
  | .sensorReading sensor => Sys2Proof.Machine.execSensorReading sensor s
  | .firmwareDataReceive data last r => Sys2Proof.Machine.execFirmwareDataReceive data last r s
  | .activatefirmware => Sys2Proof.Machine.execActivatefirmware s
  | .pctrWrap c k => Sys2Proof.Machine.execPctrWrap c k s
  | .htabW0Write ctx h v => Sys2Proof.Machine.execHtabW0Write ctx h v s
  | .htabW1Write ctx h v => Sys2Proof.Machine.execHtabW1Write ctx h v s
  | .dbgHalt c => Sys2Proof.Machine.execDbgHalt c s
  | .dbgStep c => Sys2Proof.Machine.execDbgStep c s
  | .dbgRegDataWrite c v => Sys2Proof.Machine.execDbgRegDataWrite c v s
  | .mswi c => Sys2Proof.Machine.execMswi c s
  | .sswi c => Sys2Proof.Machine.execSswi c s
  | .dbgSynSet v => Sys2Proof.Machine.execDbgSynSet v s
  | .meshLinkFail router dir => Sys2Proof.Machine.execMeshLinkFail router dir s
  | .refclkPresent => Sys2Proof.Machine.execRefclkPresent s
  | .nearRepairDone n => Sys2Proof.Machine.execNearRepairDone n s
  | .retrainSliceEnd p cut => Sys2Proof.Machine.execRetrainSliceEnd p cut s
  | .ackIntervalExpiry l b => Sys2Proof.Machine.execAckIntervalExpiry l b s
  | .updateCancel => Sys2Proof.Machine.execUpdateCancel s
  | .atomicReturn c => Sys2Proof.Machine.execAtomicReturn c s

end Sys2Proof.Machine
end

