-- ==== Sys2Proof/Machine/Step.lean ====
section
/-! DEFINITION. One step: the command at the front of the queue, or one core-clock cycle passing (log entry 2). -/

namespace Sys2Proof.Machine

/-- A core-clock cycle passes with no command waiting (03 R139, 00 R6). -/
def idleCycle (s : State) : State := { s with clk := s.clk + 1 }

/-- Runs the command at the front of the queue with the rest of the queue; on an empty queue a cycle passes. -/
def step (s : State) : Host.Outcome State Fault Refusal :=
  match s.pending with
  | [] => .next (idleCycle s)
  | c :: rest => exec c { s with pending := rest }

/-- `s` with the command that a table word spells at the front of its queue; the table spells none (Decode.lean). -/
def State.withFetchWord (s : State) (nbits w : Nat) : State :=
  match Sys2Proof.decodeTableWord nbits w with
  | some c => { s with pending := c :: s.pending }
  | none => s

end Sys2Proof.Machine
end

