-- ==== Sys2Proof/Safety.lean ====
section
/-! DEFINITION. The words the statements are written in: the invariants of a run, when a core issues an instruction, and
the states that an instruction's end leaves. -/

namespace Sys2Proof.Safety

open Sys2Proof.Machine

/-- The memory list keeps its canonical form. -/
def MemOk (s : State) : Prop := memWf s.mem = true

/-- Core c fetches and issues the word w now: it runs, no event goes first, no divide is in flight, the word lies in its
code segment, its line in the instruction cache's main array with no prefetch due, and is an instruction's, and no active
loop ends here inside a delay slot (03 R127, R128, R151, 04 R182, 08 R319). -/
def issues (c : Nat) (w : Word32) (s : State) : Bool :=
  canIssue (s.core c) && (s.core c).sc.divide.isNone && (fetchFault (s.core c).sc).isNone && !reservedWord w &&
  !loopHazard .plain (s.core c).sc && fetchSettled s c

/-- As `issues`, for an instruction that may stand neither in a delay slot nor at an active loop's end (03 R127, R151). -/
def issuesControl (c : Nat) (w : Word32) (s : State) : Bool :=
  issues c w s && (s.core c).sc.slot.isNone && !loopHazard .control (s.core c).sc

/-- The scalar part of core c. -/
def scalar (s : State) (c : Nat) : Scalar := (s.core c).sc

/-- g[r] as the instruction at core c reads it. -/
def reads (s : State) (c r : Nat) : Word64 := (s.core c).sc.gr r

/-- Core c has retired the instruction whose effect left `s` (03 R127, R132, R150). -/
def retired (c : Nat) (s : State) : State :=
  s.updCore c (fun k => { k with sc := retireSc none k.sc, wait := .none, step := false, parts := [], entered := none })

/-- Core c has written g[rd] and retired. -/
def wroteG (c rd : Nat) (v : Word64) (s : State) : State := retired c (s.updSc c (fun k => k.setG rd v))

/-- Core c has taken the branch or jump decision `t`: the delay slot comes next (03 R127). -/
def branched (c : Nat) (t : Option (BitVec 48)) (s : State) : State :=
  s.updCore c (fun k => { k with sc := branchSc t k.sc, wait := .none, step := false, parts := [], entered := none })

/-- Core c waits. -/
def waits (c : Nat) (w : Wait) (s : State) : State := s.updCore c (fun k => { k with wait := w })

/-- A signed field of n bits. -/
def signed (n v : Nat) : Int := if v < 2 ^ (n - 1) then (v : Int) else (v : Int) - 2 ^ n

/-- The n bytes at device address a lie in core c's own scratchpad, and no word of theirs is uncorrectable. -/
def ownClean (c a n : Nat) (s : State) : Bool :=
  regionOf a == .spad c && xlatAddr s c a == a && (granules a n).all (fun g => decide (g ∉ s.bad))

/-- An access of n bytes at offset o of segment i passes its checks and lies in core c's own scratchpad, good. -/
def ownAccess (c i o n : Nat) (write : Bool) (s : State) : Bool :=
  (checkMem c (scalar s c) i o n n write).isNone && ownClean c (segAddr (scalar s c) i o) n s

/-- Core c has nothing outstanding: no fill, dirty line, landing, queued tile operation, unacknowledged write, deferred
error or trap, and no kept grant, nor one on its way. -/
def quiet (c : Nat) (s : State) : Bool :=
  let k := s.core c
  k.dcache.miss.isEmpty && k.dcache.lines.all (fun l => !l.dirty) && k.landings.isEmpty && k.matq.isEmpty &&
  k.unacked == 0 && !k.deferredUe && !k.deferredOvf && k.kept.isNone && k.nanTrap.isNone && !k.hostRefused &&
  s.syncAns.all (fun r => !(r.agent == c && r.isGrant && r.fate == .kept))

/-- Memory, the MMIO registers and every core but c are as they were. -/
def onlyCore (c : Nat) (s t : State) : Prop :=
  t.mem = s.mem ∧ t.bad = s.bad ∧ t.regs = s.regs ∧ (∀ k, k ≠ c → t.core k = s.core k)

/-- The bytes outside [a, a + n) of memory read as they did. -/
def bytesKept (a n : Nat) (s t : State) : Prop := ∀ x, (sliced x < a ∨ a + n ≤ sliced x) → t.byte x = s.byte x

/-! ## The vector unit -/

/-- v[i] of core c. -/
def vreg (s : State) (c i : Nat) : VReg := mget (s.core c).v i 0

/-- Lane i of width n. -/
def lane (n : Nat) (v : VReg) (i : Nat) : Nat := v.toNat / 2 ^ (n * i) % 2 ^ n

/-- Core c has executed a vector instruction: it is counted, v[rd] written, and the instruction retired. -/
def wroteV (c rd : Nat) (v : VReg) (s : State) : State := retired c ((pctrEvent c 0xB 1 s).setV c rd v)

/-- The same with g[rd] as its destination. -/
def wroteX (c rd : Nat) (v : Word64) (s : State) : State :=
  retired c ((pctrEvent c 0xB 1 s).updSc c (fun k => k.setG rd v))

/-- The outcome `o` is v[rd] with these lanes of n bits, and nothing else of `wroteV`. -/
def lanesOut (c : Nat) (w : Word32) (n : Nat) (f : Nat → Nat) (s : State) (o : Host.Outcome State Fault Refusal) : Prop :=
  ∃ v : VReg, o = .next (wroteV c (rdOf w) v s) ∧ ∀ i : Nat, i < 1024 / n → lane n v i = f i % 2 ^ n

/-- Core c's first-NaN record is taken already, so no further NaN writes it or traps (07 R289). -/
def nanSpent (c : Nat) (s : State) : Bool := natBit (mget (s.core c).nanrec 0 0).toNat 63

/-- A compute core issues the vector word w, whose type is one of the six. -/
def issuesVec (c : Nat) (w : Word32) (s : State) : Bool :=
  issues c w s && !isService c && decide (tyOf w ≤ 5)

/-! ## Frames and ranges -/

/-- Every MMIO register reads as it did, but those named. -/
def regsBut (l : List Reg) (s t : State) : Prop := ∀ (r : Reg) (i : Nat), r ∉ l → t.reg r i = s.reg r i

/-- Every core is as it was, but those named. -/
def coresBut (l : List Nat) (s t : State) : Prop := ∀ k : Nat, k ∉ l → t.core k = s.core k

/-- Memory, with its uncorrectable and its undefined places, is as it was. -/
def memKept (s t : State) : Prop := t.mem = s.mem ∧ t.bad = s.bad ∧ t.undef = s.undef ∧ t.zeroed = s.zeroed

/-- An access of n bytes with an alignment of its own passes its checks and lies in core c's own scratchpad, good. -/
def ownRange (c i o n align : Nat) (write : Bool) (s : State) : Bool :=
  (checkMem c (scalar s c) i o n align write).isNone && ownClean c (segAddr (scalar s c) i o) n s

/-- The general registers but those named are as they were. -/
def gBut (c : Nat) (l : List Nat) (s t : State) : Prop :=
  ∀ r : Nat, r ∉ l → mget (scalar t c).g r 0 = mget (scalar s c).g r 0

/-- The elements (address A i, n bytes, i < k) hold the bytes of v from its low end, a later element over an earlier one,
and no other byte of memory has changed. -/
def storedElements (k n : Nat) (A : Nat → Nat) (v : Nat) (s t : State) : Prop :=
  (∀ x : Nat, (∀ i : Nat, i < k → ¬(A i ≤ sliced x ∧ sliced x < A i + n)) → t.byte x = s.byte x) ∧
  (∀ i j : Nat, i < k → j < n → (∀ m : Nat, i < m → m < k → ¬(A m ≤ A i + j ∧ A i + j < A m + n)) →
    t.byte (A i + j) = BitVec.ofNat 8 (v / 2 ^ (8 * (n * i + j))))

/-- Core c's operand of n bytes through segment i at offset o passes the checks of its own scratchpad, good. -/
def ownOperand (c i o n align : Nat) (write : Bool) (s : State) : Bool :=
  xlatCore s c c == c && (checkOwn c (scalar s c) i o n align write).isNone &&
  ownClean c (segAddr (scalar s c) i o) n s

/-! ## Messages on the mesh -/

/-- The oldest message on its way from src to dst is `kind`, and `rest` are the others (10 R367). -/
def arrives (src dst : Nat) (kind : MsgKind) (rest : List Msg) (s : State) : Prop :=
  takeFirst (fun m => m.src == src && m.dst == dst) s.msgs = some (⟨src, dst, kind⟩, rest)

/-- Receive ring r of core c. -/
def ringAt (s : State) (c r : Nat) : Option RxRing := (s.core c).chan.ring r

/-- Send channel i of core c. -/
def chanAt (s : State) (c i : Nat) : Option SendChan := (s.core c).chan.send i

/-- What a packet's way through the mesh may change beside what it carries: the link monitors. Memory stays. -/
def meshFrame (cs : List Nat) (s t : State) : Prop := regsBut [.mshMonFlits] s t ∧ coresBut cs s t ∧ memKept s t

/-! ## Registers and units -/

/-- Only these MMIO registers have changed, and nothing else of the state. -/
def onlyRegs (l : List Reg) (s t : State) : Prop := regsBut l s t ∧ t = { s with regs := t.regs }

/-- As `onlyRegs`, with the upkeep of the memories. -/
def onlyUpkeep (l : List Reg) (s t : State) : Prop := regsBut l s t ∧ t = { s with regs := t.regs, upkeep := t.upkeep }

/-- As `onlyRegs`, with what raising an event bit may send: an alert, an event and a message to the host (02 R110). -/
def onlyAlert (l : List Reg) (s t : State) : Prop :=
  regsBut (.vclEvtStat :: l) s t ∧ t = { s with regs := t.regs, mgt := t.mgt, pins := t.pins, bundles := t.bundles }

/-- The register keeps every element but i. -/
def regElse (r : Reg) (i : Nat) (s t : State) : Prop := ∀ j : Nat, j ≠ i → t.reg r j = s.reg r j

/-- One record with this severity, unit, op and details has been written, and no other. -/
def oneRecord (sev unit op : Nat) (details : List Byte) (s t : State) : Prop :=
  ∃ r : Rec, t.recs = s.recs ++ [r] ∧ r.sev = sev ∧ r.unit = unit ∧ r.op = op ∧ r.details = details ∧ r.frame = s.frame

/-- Registers whose writes do what the access codes of their fields say and nothing more. -/
def plainRegs : List Reg :=
  [.klnThrottle, .klnStolenCap, .klnAbortCtl, .klnEvtStat, .klnEvtEn, .klnEvtMsgData, .synEvtStat, .vclEvtStat, .vclEvtEn,
   .vclFsyncCtl, .mirEvtStat, .mirEvtEn, .mirRiskCtl, .hrtCtl, .hrtEvtStat, .hrtEvtEn, .conEvtStat, .conEvtEn, .rasEvtStat,
   .rasEvtEn, .rasFallowCtl, .rasHringHead, .secEvtStat, .secEvtEn, .mgtTelHead, .dbgRegSel]

/-- A field of a register element. -/
def fieldAt (s : State) (r : Reg) (i : Nat) (f : FieldRow) : Nat := natBits (s.reg r i).toNat f.hi f.lo

/-- What a write of v leaves in a field of n values that held `old`, by its access code (00 R12). -/
def fieldPut (a : Access) (n old v : Nat) : Nat :=
  match a with
  | .rw => v
  | .w1c => old &&& (n - 1 - v)
  | .w1s => old ||| v
  | _ => old

/-! ## Command lists -/

/-- The next command of queue q's running list `l` has started: its turn is taken and its index counted. -/
def begun (q : Nat) (l : CmdList) (s : State) : State :=
  { s with turn := mput s.turn (engineOf q) (ctxOf q) }.updList q l.start (fun l => { l with
    idx := l.idx + 1, busy := true, cmd := [] })

/-- Queue q's running list `l` may start its next command, whose slot reads as `b` without an error, which leaves the
state s1; it does not wait for a launch, and no abort has reached the list. -/
def starts (q : Nat) (hv : HostView) (l : CmdList) (b : List Byte) (s s1 : State) : Prop :=
  canStart s q = some l ∧ s.list q l.start = some l ∧ l.aborting = false ∧ waitsLaunch s q l b = false ∧
  engineServed s (slotAddr s q (l.start + 1 + l.idx)) 64 = true ∧
  engineRead ⟨engineUnit (engineOf q), ctxOf q⟩ (slotAddr s q (l.start + 1 + l.idx)) 64 hv s = (s1, some b) ∧
  s1.queues = s.queues ∧ s1.launches = s.launches

/-- List `l` of queue q is now `l'`, and every other list of every queue is as it was. -/
def listIs (q : Nat) (l l' : CmdList) (s t : State) : Prop :=
  t.list q l.start = some l' ∧ (∀ a, a ≠ l.start → t.list q a = s.list q a) ∧ (∀ k, k ≠ q → t.queue k = s.queue k)

/-- The command of list `l` that has just started is done: it is counted, and the list ends with its last one unless a
launch of it runs (02 R83, R89). -/
def commandDone (q : Nat) (l : CmdList) (s t : State) : Prop :=
  ∃ l', listIs q l l' s t ∧ l'.idx = l.idx + 1 ∧ l'.done = l.done + 1 ∧ l'.busy = false ∧ l'.status = l.status ∧
    l'.stop = l.stop ∧ l'.ended = (if l.idx + 1 = l.count ∧ s.launchesOf q l.start = [] then some s.frame else none)

/-- The command of list `l` that has just started has ended the list with a status (02 R82, R89). -/
def commandFails (q : Nat) (l : CmdList) (st : Nat) (s t : State) : Prop :=
  ∃ l', listIs q l l' s t ∧ l'.idx = l.idx + 1 ∧ l'.done = l.done ∧ l'.busy = false ∧ l'.stop = true ∧
    l'.status = (if l.status = 0 then st else l.status) ∧
    l'.ended = (if s.launchesOf q l.start = [] then some s.frame else none)

/-- The n bytes at device address a lie behind one home that serves them to any agent, contiguous and good. -/
def goodRange (a n : Nat) (s : State) : Prop :=
  (∀ x, a ≤ x → x < a + n → isHostAddr x = false ∧ inReserve x = false ∧ homeDead s x = false ∧
    sliced x = sliced a + (x - a) ∧ regionOf (sliced x) = regionOf (sliced a)) ∧
  rangeServes s a n = true ∧
  ∀ g, g ∈ granules a n → g ∉ s.bad

/-! ## Exceptions -/

/-- A fault of level l at user or supervisor level, not masked, with a supervisor handler whose first instruction can be
fetched: the supervisor bank saves the level, the mask level, the cause and the pc; the level becomes supervisor, the
mask level l, and the pc the handler's slot (04 R174, R177). -/
def supervisorEntry (c code info : Nat) (s t : State) : Prop :=
  let k := scalar s c
  (scalar t c).pl = 1 ∧ (scalar t c).ml = BitVec.ofNat 3 (causeLevel code) ∧
  (scalar t c).sup = ⟨k.pl, k.ml, causeWord code (causeLevel code) info false false, epcWord k.code.handle k.pc⟩ ∧
  (scalar t c).mach = k.mach ∧ (scalar t c).g = k.g ∧ (scalar t c).slot = none ∧
  (scalar t c).pc = BitVec.ofNat 48 (natBits k.evec.toNat 47 12 * 4096 + (if k.evec.toNat.testBit 1 then 64 * code else 0)) ∧
  t.mem = s.mem ∧ t.regs = s.regs ∧ (∀ j, j ≠ c → t.core j = s.core j)

/-- Core c has a supervisor handler for a fault of `code`: `evec` is valid and names an executable handle within whose
limit the entry lies, and the mask level is below the fault's. -/
def handles (c code : Nat) (s : State) : Bool :=
  let k := scalar s c
  decide (k.pl.toNat ≤ 1) && decide (k.ml.toNat < causeLevel code) && natBit k.evec.toNat 0 &&
  (match handleCode (s.core c) (k.evec.toNat / 2 ^ 58) with
   | some h => decide (natBits k.evec.toNat 47 12 * 4096 + (if natBit k.evec.toNat 1 then 64 * code else 0) < h.limit.toNat)
   | none => false)


/-! ## Records and the management port -/

/-- The RAS block has numbered and written the record `r`: the next number, its slot of the device ring with the 64 bytes
of 18 R612, and a place in the management FIFO where that has room (18 R612, R615, R616, 20 R657). -/
def recordWritten (r : Rec) (coalesced : Bool) (count : Nat) (s t : State) : Prop :=
  let u := s.ras
  let seq := (s.get F.rasSeq_last + 1) % 2 ^ 64
  let flags := (if coalesced then 1 else 0) + (if u.cold && decide (u.since < 16) then 2 else 0)
  let slot := if u.cold && decide (4096 ≤ u.since) then 16 + (u.since - 16) % 4080 else u.since % 4096
  ∃ b : List Byte, mget t.ras.ring slot [] = b ∧ b.length = 64 ∧ leAt b 0 8 = seq ∧ leAt b 8 8 = r.time % 2 ^ 64 ∧
    leAt b 16 6 = r.frame % 2 ^ 48 ∧ leAt b 22 1 = r.sev % 256 ∧ leAt b 23 1 = flags ∧ leAt b 24 4 = r.unit % 2 ^ 32 ∧
    leAt b 28 2 = r.op % 2 ^ 16 ∧ leAt b 30 2 = r.temp % 2 ^ 16 ∧ leAt b 32 2 = r.mv % 2 ^ 16 ∧
    leAt b 34 2 = min count 65535 ∧ (b.drop 36).take 27 = (r.details ++ List.replicate 27 0).take 27 ∧ leAt b 63 1 = 0 ∧
    t.get F.rasSeq_last = seq ∧ t.ras.since = u.since + 1 ∧
    (s.mgt.fifo.length < 256 → ∃ x : FifoRec, t.mgt.fifo = s.mgt.fifo ++ [x] ∧ x.sev = r.sev ∧ x.bytes = b ∧
      t.get F.mgtStat_fifo = s.mgt.fifo.length + 1)

/-- The reply has been appended to what the management port answers, and nothing else has changed. -/
def replies (proto cmd code : Nat) (data : List Byte) (s : State) : State :=
  { s with mgt := { s.mgt with replies := s.mgt.replies ++ [⟨proto, cmd, code, data⟩] } }

/-- The lowest failing check of an image, in the order of 19 R629, or 0: the flash, the form of the image with its
sections, its key slot (not revoked, holding the digests of its keys), the two signatures, the version against the fuses. -/
def imageFault (r : ImageReport) (m : Image) (s : State) : Nat :=
  let k := s.sec.keys.getD m.keySlot {}
  if r.flashOk = false then 1 else if m.formOk = false then 2
  else if k.revoked = true ∨ sha384 m.ecdsaKey ≠ k.ecdsa ∨ sha256 m.hssKey ≠ k.hss then 3
  else if r.ecdsaOk = false then 4 else if r.hssOk = false then 5 else if m.svn < s.get F.secSvn_fused then 6 else 0

/-- The image runs: SC0-SC3 run at machine level from SRAM offset 0x1_0000, and no other core has changed; its digest is
taken, and signing goes on from the largest reservation (19 R631, R642, R644). -/
def imageRuns (m : Image) (idOk recovered : Bool) (s t : State) : Prop :=
  t.get F.secBootStat_state = 2 ∧ t.get F.secBootStat_reason = 0 ∧ t.get F.secBootStat_svn = m.svn ∧
  t.flag F.secBootStat_recovered = recovered ∧ t.flag F.secBootStat_id_valid = idOk ∧ t.sec.firmware = true ∧
  t.sec.checking = false ∧ t.sec.holder = none ∧ t.sec.commit = m.commit ∧ t.sec.digest = sha384 m.body ∧
  t.get F.secLms_q = lmsLargest s % 2 ^ 40 ∧ t.get F.secLmsLimit_limit = lmsLargest s % 2 ^ 40 ∧
  coresBut [1152, 1153, 1154, 1155] s t ∧
  ∀ n : Nat, n < 4 → (t.core (1152 + n)).run = .running ∧ (scalar t (1152 + n)).pl = 3 ∧ (scalar t (1152 + n)).pc = 0x1_0000

/-- The whole stream of a recovery, which `s` holds, is checked: the lowest failing check is its reason. An image that fails
ends the transfer; one of the management port, or one that is to stay, goes to the flash; any other runs (19 R629, R636,
R637, 20 R656). -/
def streamChecked (r : ImageReport) (reflash : Bool) (s t : State) : Prop :=
  let m := streamImage s.sec.stream
  let n := imageFault { r with flashOk := true } m s
  let port := s.sec.holder = some true
  let written : Sec := { s.sec with slot := [], reflashing := true, staged := some (m, r.idOk), checkWaits := false }
  let ended : Sec := { s.sec with holder := none, staged := none, stream := [], checkWaits := false }
  t.get F.secRcvStat_reason = n ∧
  (port → t.mgt.replies = s.mgt.replies ++ [⟨1, 0x17, n, []⟩]) ∧
  (n ≠ 0 → t.sec = ended ∧ t.get F.secRcvStat_bytes = 0 ∧ coresBut [] s t ∧ (¬port → t.get F.secRcvStat_state = 0) ∧
    t.get F.secBootStat_state = s.get F.secBootStat_state) ∧
  (n = 0 → port ∨ reflash = true → t.sec = written ∧ coresBut [] s t ∧ (¬port → t.get F.secRcvStat_state = 1)) ∧
  (n = 0 → ¬port → reflash = false → imageRuns m r.idOk true s t ∧ t.get F.secRcvStat_state = 0)

end Sys2Proof.Safety
end

