-- ==== Sys2Proof/Certificates/Slice0/Obligations.lean ====
section
/-! DEFINITION. The statements for the provers. -/

open Sys2Proof Sys2Proof.Machine Sys2Proof.Safety

/-! ## The queue of commands -/

/-- The command at the front of the queue is executed on the state with the queue's rest. -/
def Obligations.StepRunsFront : Prop :=
  ∀ (c : Instr) (rest : List Instr) (s : State), s.pending = c :: rest → step s = exec c { s with pending := rest }

/-- On an empty queue one core-clock cycle passes and nothing else happens: the model's choice (log entry 2). -/
def Obligations.EmptyQueueIdles : Prop :=
  ∀ s : State, s.pending = [] → step s = .next { s with clk := s.clk + 1 }

/-- No command changes the queue: a step takes its front and leaves the rest as it stands. -/
def Obligations.StepKeepsQueue : Prop :=
  ∀ (c : Instr) (rest : List Instr) (s t : State), s.pending = c :: rest → step s = .next t → t.pending = rest

/-! ## Memory's canonical form -/

/-- Every step keeps the memory list canonical: addresses strictly rising, no byte listed that an unlisted address
reads as. -/
def Obligations.StepKeepsMemory : Prop := ∀ s t : State, MemOk s → step s = .next t → MemOk t

/-- The state right after the input voltage is applied: memory canonical with nothing listed, no core running, no command
waiting, the rails off, and registers with the cold values that the spec gives them (00 R16, R18, 17 R562). The pins'
straps and the fuses' values are the model's (log entries 12 and 13). -/
def Obligations.ResetStateHoldsColdValues : Prop :=
  let s := State.reset
  MemOk s ∧ s.mem = [] ∧ s.pending = [] ∧ (∀ c, (s.core c).run = .idle) ∧ s.hearth.rails = 0 ∧ s.pins.pwrGood = false ∧
  (∀ (r : Reg) (i : Nat) (f : FieldRow), f ∈ (regRow r).rows → fieldAt s r i f = f.cold % 2 ^ (f.hi + 1 - f.lo)) ∧
  s.get F.klnFrameCtl_period_us = 160 ∧ s.get F.klnUsable_usable_ns = 154000 ∧ s.get F.hrtVcore_die0_mv = 750 ∧
  s.get F.hrtStat_phases = 48 ∧ s.get F.conThermCtl_trip_c = 110 ∧ s.get F.hrtWaveCtl_pre = 8192 ∧
  s.get F.secBootStat_state = 0 ∧ s.get F.mirStat_state = 0

/-! ## Integer instructions (03 R113, R114, R120-R124) -/

/-- Register operations: g[rd] and the next state of the two-operand operations, of the counts of bits, the extensions of
the low word and the shifts by an immediate (03 R120), and of the halves of a product (03 R122). -/
def Obligations.RegisterOperationsCompute : Prop :=
  (∀ (c : CoreId) (w : Word32) (s : State), issues c w s = true → fld w 11 6 = 0 →
    let a := reads s c (raOf w)
    let b := reads s c (rbOf w)
    let out := fun v : Word64 => Host.Outcome.next (ρ := Refusal) (φ := Fault) (wroteG c (rdOf w) v s)
    exec (.add c w) s = out (BitVec.ofNat 64 (a.toNat + b.toNat)) ∧
    exec (.sub c w) s = out (BitVec.ofInt 64 (a.toInt - b.toInt)) ∧
    exec (.and c w) s = out (a &&& b) ∧
    exec (.or c w) s = out (a ||| b) ∧
    exec (.xor c w) s = out (a ^^^ b) ∧
    exec (.andn c w) s = out (a &&& ~~~b) ∧
    exec (.slt c w) s = out (if a.toInt < b.toInt then 1 else 0) ∧
    exec (.sltu c w) s = out (if a.toNat < b.toNat then 1 else 0) ∧
    exec (.sll c w) s = out (BitVec.ofNat 64 (a.toNat * 2 ^ (b.toNat % 64))) ∧
    exec (.srl c w) s = out (BitVec.ofNat 64 (a.toNat / 2 ^ (b.toNat % 64))) ∧
    exec (.sra c w) s = out (BitVec.ofInt 64 (a.toInt / 2 ^ (b.toNat % 64))) ∧
    exec (.min c w) s = out (if a.toInt ≤ b.toInt then a else b) ∧
    exec (.max c w) s = out (if b.toInt ≤ a.toInt then a else b) ∧
    exec (.minu c w) s = out (if a.toNat ≤ b.toNat then a else b) ∧
    exec (.maxu c w) s = out (if b.toNat ≤ a.toNat then a else b)) ∧
  (∀ (c : CoreId) (w : Word32) (s : State), issues c w s = true → fld w 11 6 = 0 → rbOf w = 0 →
    let a := reads s c (raOf w)
    let out := fun v : Word64 => Host.Outcome.next (ρ := Refusal) (φ := Fault) (wroteG c (rdOf w) v s)
    exec (.clz c w) s = out (if a = 0 then 64 else BitVec.ofNat 64 (63 - Nat.log2 a.toNat)) ∧
    (a = 0 → exec (.ctz c w) s = out 64) ∧
    (∀ n : Nat, n < 64 → a.toNat.testBit n = true → (∀ m : Nat, m < n → a.toNat.testBit m = false) →
      exec (.ctz c w) s = out (BitVec.ofNat 64 n)) ∧
    exec (.popc c w) s = out (BitVec.ofNat 64 ((List.range 64).filter (fun i => a.toNat.testBit i)).length) ∧
    exec (.sextw c w) s = out ((a.setWidth 32).signExtend 64) ∧
    exec (.zextw c w) s = out ((a.setWidth 32).setWidth 64)) ∧
  (∀ (c : CoreId) (w : Word32) (s : State), issues c w s = true → rbOf w = 0 →
    let a := reads s c (raOf w)
    let n := fld w 11 6
    let out := fun v : Word64 => Host.Outcome.next (ρ := Refusal) (φ := Fault) (wroteG c (rdOf w) v s)
    exec (.slli c w) s = out (BitVec.ofNat 64 (a.toNat * 2 ^ n)) ∧
    exec (.srli c w) s = out (BitVec.ofNat 64 (a.toNat / 2 ^ n)) ∧
    exec (.srai c w) s = out (BitVec.ofInt 64 (a.toInt / 2 ^ n))) ∧
  (∀ (c : CoreId) (w : Word32) (s : State), issues c w s = true →
    let a := reads s c (raOf w)
    let b := reads s c (rbOf w)
    let out := fun v : Word64 => Host.Outcome.next (ρ := Refusal) (φ := Fault) (wroteG c (rdOf w) v s)
    exec (.mul c w) s = out (BitVec.ofNat 64 (a.toNat * b.toNat)) ∧
    exec (.mulh c w) s = out (BitVec.ofInt 64 (a.toInt * b.toInt / 2 ^ 64)) ∧
    exec (.mulhu c w) s = out (BitVec.ofNat 64 (a.toNat * b.toNat / 2 ^ 64)))

/-- The immediate operations: g[rd] and the next state of each, on 64 bits with no trap (03 R121). -/
def Obligations.ImmediateOperationsCompute : Prop :=
  ∀ (c : CoreId) (w : Word32) (s : State), issues c w s = true →
    let a := reads s c (raOf w)
    let k := fld w 16 0
    let z : Word64 := BitVec.ofNat 64 k
    let i : Int := if k < 2 ^ 16 then (k : Int) else (k : Int) - 2 ^ 17
    let out := fun v : Word64 => Host.Outcome.next (ρ := Refusal) (φ := Fault) (wroteG c (rdOf w) v s)
    exec (.addi c w) s = out (BitVec.ofInt 64 (a.toInt + i)) ∧
    exec (.andi c w) s = out (a &&& z) ∧
    exec (.ori c w) s = out (a ||| z) ∧
    exec (.xori c w) s = out (a ^^^ z) ∧
    exec (.lsi c w) s = out (BitVec.ofNat 64 (a.toNat * 2 ^ 17) ||| z) ∧
    exec (.slti c w) s = out (if a.toInt < i then 1 else 0) ∧
    (raOf w = 0 → exec (.lui c w) s = out (BitVec.ofInt 64 (i * 2 ^ 17)))

/-- A divide by a divisor other than zero starts, the core goes on, and DIVIDE_COMPLETE writes the quotient or the
remainder to g[rd]; g0 stays 0. The quotient is truncated and the remainder takes the dividend's sign. A divisor of zero
raises cause 0x09 and writes nothing (03 R122, R123, 04 R173). -/
def Obligations.DividesCompleteOrTrap : Prop :=
  ((∀ (c : CoreId) (w : Word32) (s : State), issues c w s = true → reads s c (rbOf w) ≠ 0 →
    let a := reads s c (raOf w)
    let b := reads s c (rbOf w)
    let out := fun v : Word64 => Host.Outcome.next (ρ := Refusal) (φ := Fault)
      (retired c (s.updSc c (fun k => { k with divide := some ⟨BitVec.ofNat 5 (rdOf w), v⟩ })))
    exec (.div c w) s = out (BitVec.ofInt 64 (a.toInt.tdiv b.toInt)) ∧
    exec (.divu c w) s = out (BitVec.ofNat 64 (a.toNat / b.toNat)) ∧
    exec (.rem c w) s = out (BitVec.ofInt 64 (a.toInt.tmod b.toInt)) ∧
    exec (.remu c w) s = out (BitVec.ofNat 64 (a.toNat % b.toNat))) ∧
  (∀ (c : CoreId) (d : Divide) (s : State), (scalar s c).divide = some d →
    ∃ t, exec (.divideComplete c) s = .next t ∧ (scalar t c).divide = none ∧
      (d.rd ≠ 0 → mget (scalar t c).g d.rd.toNat 0 = d.value) ∧ (d.rd = 0 → (scalar t c).g = (scalar s c).g))) ∧
  (∀ (c : CoreId) (w : Word32) (s : State), issues c w s = true → reads s c (rbOf w) = 0 →
    let out := Host.Outcome.next (ρ := Refusal) (φ := Fault) ((takeFault c ⟨9, 0⟩ s).updCore c (fun k => { k with step := false }))
    exec (.div c w) s = out ∧ exec (.divu c w) s = out ∧ exec (.rem c w) s = out ∧ exec (.remu c w) s = out)

/-! ## Program order (03 R127, R128, R149, R150) -/

/-- Where an instruction that retires leaves the pc: at the branch's target after its delay slot; outside one, at the start
of loop 1, or else of loop 0, where that loop ends with passes left, and 4 on otherwise; each loop that ends counts down. `lpset` starts loop fld[22] over the imm17 instructions
after it with the low word of g[ra] as its count, and a count of zero goes past the body (03 R127, R149, R150). -/
def Obligations.NextOffsetFollowsLoops : Prop :=
  (∀ (c : CoreId) (s : State), let k := scalar s c
    (∀ b : Slot, k.slot = some b → (scalar (retired c s) c).pc = b.target.getD (k.pc + 4) ∧ (scalar (retired c s) c).slot = none) ∧
    (k.slot = none →
      let lc1 := mget k.lc 1 0
      let lc0 := mget k.lc 0 0
      let end1 := lc1 ≠ 0 ∧ k.pc = mget k.le 1 0
      let again1 := end1 ∧ lc1 - 1 ≠ 0
      let end0 := ¬again1 ∧ lc0 ≠ 0 ∧ k.pc = mget k.le 0 0
      let again0 := end0 ∧ lc0 - 1 ≠ 0
      (again1 → (scalar (retired c s) c).pc = mget k.ls 1 0) ∧
      (again0 → (scalar (retired c s) c).pc = mget k.ls 0 0) ∧
      (¬again1 → ¬again0 → (scalar (retired c s) c).pc = k.pc + 4) ∧
      (end1 → mget (scalar (retired c s) c).lc 1 0 = lc1 - 1) ∧ (¬end1 → mget (scalar (retired c s) c).lc 1 0 = lc1) ∧
      (end0 → mget (scalar (retired c s) c).lc 0 0 = lc0 - 1) ∧ (¬end0 → mget (scalar (retired c s) c).lc 0 0 = lc0)) ∧
    (∀ t : Option (BitVec 48), (scalar (branched c t s) c).pc = k.pc + 4 ∧
      (scalar (branched c t s) c).slot = some ⟨k.pc, t, k.shadow⟩)) ∧
  (∀ (c : CoreId) (w : Word32) (s : State), issuesControl c w s = true → fld w 26 23 = 0 → fld w 16 0 ≠ 0 →
    let k := scalar s c
    let i := fld w 22 22
    let n : Word32 := (reads s c (raOf w)).setWidth 32
    let last := k.pc + BitVec.ofNat 48 (4 * fld w 16 0)
    (k.setLoop i (k.pc + 4) last n).badNest = false →
    ∃ t, exec (.lpset c w) s = .next t ∧ mget (scalar t c).ls i 0 = k.pc + 4 ∧ mget (scalar t c).le i 0 = last ∧
      mget (scalar t c).lc i 0 = n ∧ (scalar t c).pc = (if n = 0 then last + 4 else k.pc + 4) ∧ onlyCore c s t)

/-- Conditional branches compare g[ra] with g[rd] and go 4 × off14 bytes from their own pc, after the delay slot (03 R125,
R127). `j` and `jal` go 4 × off27 bytes from their pc, `jr` and `jalr` to a register that holds a multiple of 4; the
links hold pc + 8 (03 R126). -/
def Obligations.BranchesAndJumpsTransfer : Prop :=
  (∀ (c : CoreId) (w : Word32) (s : State), issuesControl c w s = true →
    let a := reads s c (raOf w)
    let b := reads s c (rdOf w)
    let t := (scalar s c).pc + BitVec.ofInt 48 (4 * signed 14 (fld w 13 0))
    let out := fun p : Bool => Host.Outcome.next (ρ := Refusal) (φ := Fault) (branched c (if p then some t else none) s)
    exec (.beq c w) s = out (decide (a = b)) ∧
    exec (.bne c w) s = out (decide (a ≠ b)) ∧
    exec (.blt c w) s = out (decide (a.toInt < b.toInt)) ∧
    exec (.bge c w) s = out (decide (b.toInt ≤ a.toInt)) ∧
    exec (.bltu c w) s = out (decide (a.toNat < b.toNat)) ∧
    exec (.bgeu c w) s = out (decide (b.toNat ≤ a.toNat))) ∧
  (∀ (c : CoreId) (w : Word32) (s : State), issuesControl c w s = true →
    let pc := (scalar s c).pc
    let t := pc + BitVec.ofInt 48 (4 * signed 27 (fld w 26 0))
    let r := reads s c (raOf w)
    let link := fun d : Nat => s.updSc c (fun k => k.setG d ((pc + 8).setWidth 64))
    exec (.j c w) s = .next (branched c (some t) s) ∧
    exec (.jal c w) s = .next (branched c (some t) (link 31)) ∧
    (r.toNat % 4 = 0 → rbOf w = 0 → minorOf w = 0 → rdOf w = 0 →
      exec (.jr c w) s = .next (branched c (some (r.setWidth 48)) s)) ∧
    (r.toNat % 4 = 0 → rbOf w = 0 → minorOf w = 1 → rdOf w ≠ raOf w →
      exec (.jalr c w) s = .next (branched c (some (r.setWidth 48)) (link (rdOf w)))))

/-- What an integer instruction that retires leaves alone: every other register, g0, the status, the segments, memory, the
MMIO registers and every other core (03 R113). What a vector instruction leaves alone: every other vector register, the
general registers, tiles and accumulators, memory, the MMIO registers and every other core; and with a general
destination, the vector registers (05 R194, R195). -/
def Obligations.RegisterWritesFrame : Prop :=
  (∀ (c : CoreId) (rd : Nat) (v : Word64) (s : State), let t := wroteG c rd v s
    onlyCore c s t ∧
    (∀ r, r ≠ rd → mget (scalar t c).g r 0 = mget (scalar s c).g r 0) ∧
    (rd ≠ 0 → mget (scalar t c).g rd 0 = v) ∧
    (rd = 0 → (scalar t c).g = (scalar s c).g) ∧
    (scalar t c).gr 0 = 0 ∧
    (scalar t c).pl = (scalar s c).pl ∧ (scalar t c).ml = (scalar s c).ml ∧ (scalar t c).ie = (scalar s c).ie ∧
    (scalar t c).seg = (scalar s c).seg ∧ (scalar t c).sup = (scalar s c).sup ∧ (scalar t c).mach = (scalar s c).mach ∧
    (scalar t c).evec = (scalar s c).evec ∧ (t.core c).v = (s.core c).v ∧ (t.core c).dcache = (s.core c).dcache) ∧
  ((∀ (c : CoreId) (rd : Nat) (v : VReg) (s : State), let t := wroteV c rd v s
    onlyCore c s t ∧ vreg t c rd = v ∧ (∀ r, r ≠ rd → vreg t c r = vreg s c r) ∧ (scalar t c).g = (scalar s c).g ∧
    (t.core c).tiles = (s.core c).tiles ∧ (t.core c).accs = (s.core c).accs ∧ (scalar t c).seg = (scalar s c).seg ∧
    (scalar t c).pl = (scalar s c).pl ∧ (scalar t c).ml = (scalar s c).ml ∧ (t.core c).nanrec = (s.core c).nanrec) ∧
  (∀ (c : CoreId) (rd : Nat) (v : Word64) (s : State), let t := wroteX c rd v s
    onlyCore c s t ∧ (t.core c).v = (s.core c).v ∧ (rd ≠ 0 → mget (scalar t c).g rd 0 = v) ∧
    (∀ r, r ≠ rd → mget (scalar t c).g r 0 = mget (scalar s c).g r 0) ∧ (rd = 0 → (scalar t c).g = (scalar s c).g)))

/-! ## Scalar loads and stores (03 R129-R131, R134) -/

/-- A load from the core's own scratchpad: g[rd] holds the bytes at base + offset, extended, the delay slot reads the old
value, and no byte of memory changes. One that waits for another scratchpad retires with the answer's bytes when it has
come (03 R129, R130, 08 R302). -/
def Obligations.LoadsReadMemory : Prop :=
  (∀ (c : CoreId) (w : Word32) (s : State), issues c w s = true →
    let n := 2 ^ fld w 13 12
    let sx := fld w 11 11 == 1
    let o := (reads s c (raOf w) + BitVec.ofInt 64 (signed 11 (fld w 10 0))).toNat
    let a := segAddr (scalar s c) (fld w 16 14) o
    let d := BitVec.ofNat (8 * n) (ofLeBytes (s.bytes a n))
    (sx && n == 8) = false → ownAccess c (fld w 16 14) o n false s = true →
    ∃ t, exec (.ld c w .clean) s = .next t ∧
      (rdOf w ≠ 0 → mget (scalar t c).g (rdOf w) 0 = (if sx then d.signExtend 64 else d.setWidth 64) ∧
        (scalar t c).shadow = some ⟨BitVec.ofNat 5 (rdOf w), mget (scalar s c).g (rdOf w) 0, false⟩) ∧
      (rdOf w = 0 → (scalar t c).g = (scalar s c).g ∧ (scalar t c).shadow = none) ∧
      (∀ r, r ≠ rdOf w → mget (scalar t c).g r 0 = mget (scalar s c).g r 0) ∧ onlyCore c s t) ∧
  (∀ (c : CoreId) (a n k : Nat) (sx : Bool) (rd : BitVec 5) (r : Resp) (rest : List Resp) (s : State),
    (s.core c).wait = .load a n sx rd → regionOf a = .spad k → k ≠ c → xlatAddr s c a = a →
    takeFirst (fun r => respHere s c r && r.kind == .read && r.addr == a) s.resps = some (r, rest) → r.bad = false →
    ∃ t, exec (.loadDataReturn c .clean) s = .next t ∧ (t.core c).wait = .none ∧ t.resps = rest ∧
      (rd ≠ 0 → mget (scalar t c).g rd.toNat 0 = extend sx r.data) ∧ t.mem = s.mem)

/-- A store to the core's own scratchpad: the low bytes of g[rs] at base + offset, and every other byte, register and
core unchanged (03 R129). -/
def Obligations.StoreWritesItsBytes : Prop :=
  ∀ (c : CoreId) (w : Word32) (s : State), issues c w s = true → MemOk s →
    let n := 2 ^ fld w 13 12
    let o := (reads s c (raOf w) + BitVec.ofInt 64 (signed 11 (fld w 10 0))).toNat
    let a := segAddr (scalar s c) (fld w 16 14) o
    fld w 11 11 = 0 → ownAccess c (fld w 16 14) o n true s = true →
    ∃ t, exec (.st c w .clean) s = .next t ∧ t.bytes a n = leBytes n (reads s c (rdOf w)).toNat ∧
      bytesKept a n s t ∧ (scalar t c).g = (scalar s c).g ∧ (scalar t c).seg = (scalar s c).seg ∧ t.regs = s.regs ∧
      (∀ k, k ≠ c → t.core k = s.core k)

/-! ## Segments (03 R135-R137) -/

/-- The segment instructions and what each leaves in its segment register or g[rd] (03 R135, R136); one that reads a
handle entry whose copy fails its parity takes the entry from the table again (08 R309). A user-level `swr` raises cause
0x02 and writes no segment (04 R164). -/
def Obligations.SegmentInstructionsWrite : Prop :=
  (∀ (c : CoreId) (w : Word32) (s : State), issues c w s = true →
    let k := scalar s c
    let a := (reads s c (raOf w)).toNat
    let b := (reads s c (rbOf w)).toNat
    let d := fld w 24 22
    let g := k.sgm d
    let src := k.sgm (fld w 6 4)
    let put := fun x : Seg => Host.Outcome.next (ρ := Refusal) (φ := Fault) (retired c (setSeg c d x s))
    let out := fun v : Nat => Host.Outcome.next (ρ := Refusal) (φ := Fault) (wroteG c (rdOf w) (BitVec.ofNat 64 v) s)
    (∀ e, fld w 3 0 = 0 → fld w 26 25 = 0 → rbOf w = 0 → fld w 6 4 = 0 → fld w 11 7 = 0 → a < 64 → handleEntry (s.core c) a = some e →
      exec (.sld c ⟨w, false⟩) s = put (entrySeg e)) ∧
    (fld w 3 0 = 0 → fld w 26 25 = 0 → rbOf w = 0 → fld w 6 4 = 0 → fld w 11 7 = 0 → a < 64 →
      let i := 64 * k.ctx.toNat + a
      let e := (s.reg .klnHtabW0 i, s.reg .klnHtabW1 i)
      exec (.sld c ⟨w, true⟩) s = exec (.sld c ⟨w, false⟩) (s.updCore c (fun x => { x with htab := mput x.htab a e }))) ∧
    (fld w 3 0 = 1 → fld w 26 25 = 0 → fld w 11 7 = 0 → a + b ≤ src.limit.toNat →
      exec (.snarrow c w) s = put { src with base := BitVec.ofNat 48 (src.base.toNat + a), limit := BitVec.ofNat 48 b }) ∧
    (fld w 3 0 = 2 → fld w 26 25 = 0 → rbOf w = 0 → fld w 6 4 = 0 → fld w 11 7 = 0 →
      exec (.sdrop c w) s = put { g with r := g.r && !a.testBit 0, w := g.w && !a.testBit 1 }) ∧
    (fld w 3 0 = 3 → raOf w = 0 → rbOf w = 0 → fld w 11 7 = 0 → exec (.srdb c w) s = out src.base.toNat) ∧
    (fld w 3 0 = 4 → raOf w = 0 → rbOf w = 0 → fld w 11 7 = 0 → exec (.srdl c w) s = out src.limit.toNat) ∧
    (fld w 3 0 = 5 → raOf w = 0 → rbOf w = 0 → fld w 11 7 = 0 →
      exec (.srda c w) s = out ((if src.r then 1 else 0) + (if src.w then 2 else 0) + 16 * src.cls.toNat)) ∧
    (fld w 3 0 = 6 → fld w 26 25 = 0 → fld w 6 4 = 0 → fld w 11 11 = 0 → k.pl ≠ 0 →
      inClass (fld w 10 9) (a % 2 ^ 48) (b % 2 ^ 48) = true →
      exec (.swr c w) s = put ⟨BitVec.ofNat 48 a, BitVec.ofNat 48 b, BitVec.ofNat 2 (fld w 10 9), fld w 7 7 == 1, fld w 8 8 == 1⟩)) ∧
  (∀ (c : CoreId) (w : Word32) (s : State), issues c w s = true → fld w 3 0 = 6 → fld w 26 25 = 0 → fld w 6 4 = 0 →
    fld w 11 11 = 0 → (scalar s c).pl = 0 →
    exec (.swr c w) s = .next ((takeFault c ⟨2, 0⟩ s).updCore c (fun k => { k with step := false })))

/-! ## CSRs (03 R138, 04 R165-R171) -/

/-- CSR instructions where the core has the CSR and its level suffices: `cget` reads it; `cput` writes it; `cupd` writes
the bits that g[ra] selects, or nothing with ra = g0, and returns the old value (03 R138). What CSRs read: the cycle
counter is the core clock, `frame` the frame number, the loop registers and `stage` their own bits, `status` the level,
the mask level and the enable and pending bits (03 R139, R148, 04 R167). -/
def Obligations.CsrsReadAndWrite : Prop :=
  (∀ (c : CoreId) (w : Word32) (s : State), issues c w s = true →
    let n := fld w 9 0
    let k := scalar s c
    let old : Word64 := BitVec.ofNat 64 (csrVal c n s)
    let m := reads s c (raOf w)
    let b := reads s c (rbOf w)
    (csrKnown c n = true → csrLevel n false ≤ k.pl.toNat → raOf w = 0 → rbOf w = 0 →
      exec (.cget c w) s = .next (wroteG c (rdOf w) old s)) ∧
    (csrKnown c n = true → csrLevel n false ≤ k.pl.toNat → raOf w = 0 →
      ∀ p, exec (.cupd c ⟨w, p⟩) s = .next (wroteG c (rdOf w) old s)) ∧
    (∀ t, csrKnown c n = true → csrReadOnly c n = false → csrLevel n true ≤ k.pl.toNat → raOf w = 0 → rdOf w = 0 →
      n ≠ 0x40 → csrPut c n b.toNat s = .ok t → exec (.cput c ⟨w, false⟩) s = .next (retired c t)) ∧
    (∀ t, csrKnown c n = true → csrReadOnly c n = false → csrLevel n true ≤ k.pl.toNat → raOf w ≠ 0 →
      n ≠ 0x40 → csrPut c n ((old &&& ~~~m) ||| (b &&& m)).toNat s = .ok t →
      exec (.cupd c ⟨w, false⟩) s = .next (wroteG c (rdOf w) old t))) ∧
  (∀ (c : CoreId) (s : State), let k := scalar s c
    csrVal c 0x13 s = s.clk ∧ csrVal c 0x12 s = s.get F.klnFrameNum_count ∧
    csrVal c 0x20 s = (mget k.ls 0 0).toNat ∧ csrVal c 0x21 s = (mget k.le 0 0).toNat ∧ csrVal c 0x22 s = (mget k.lc 0 0).toNat ∧
    csrVal c 0x23 s = (mget k.ls 1 0).toNat ∧ csrVal c 0x24 s = (mget k.le 1 0).toNat ∧ csrVal c 0x25 s = (mget k.lc 1 0).toNat ∧
    csrVal c 0x04 s = k.ldsReg.toNat ∧ csrVal c 0x05 s = k.ldsOld.toNat ∧
    (isService c = false → csrVal c 0x11 s = k.stage.toNat ∧ csrVal c 0x10 s = k.ctx.toNat) ∧
    natBits (csrVal c 0x00 s) 31 30 = k.pl.toNat ∧ natBits (csrVal c 0x00 s) 29 27 = k.ml.toNat ∧
    natBits (csrVal c 0x00 s) 11 8 = k.ie.toNat ∧ natBits (csrVal c 0x00 s) 7 0 = k.ip.toNat)

/-! ## Exceptions (04 R174-R191) -/

/-- `sys` enters the supervisor handler with cause 0x14 at level 6, `epc` at the `sys` (04 R173, R174, R177). A word that no
row has raises cause 0x01, whatever row carries it: here the row of `add` (03 R117; the carrying is the model's, log
entry 9). The word of every well-formed instruction decodes to that instruction by its major opcode and function, and a
reserved word to none (03 R118, 05 R198).
`mark` enters the machine bank with cause 0x13: level and mask level are saved and become 3 and 7, the pc goes to the
machine handler, and the core halts there if a debugger is attached (04 R173, R177, 19 R647). -/
def Obligations.SystemCallsEnterHandlers : Prop :=
  ((∀ (c : CoreId) (w : Word32) (s : State), issuesControl c w s = true → fld w 26 0 = 0 → handles c 0x14 s = true →
    ∃ t, exec (.sys c w) s = .next t ∧ supervisorEntry c 0x14 0 s t) ∧
  (∀ (c : CoreId) (w : Word32) (s : State), canIssue (s.core c) = true → (scalar s c).divide = none →
    fetchFault (scalar s c) = none → fetchSettled s c = true → (scalar s c).slot = none → handles c 1 s = true →
    reservedWord w = true →
    ∃ t, exec (.add c w) s = .next t ∧ supervisorEntry c 1 0 s t)) ∧
  (∀ (c : CoreId) (w : Word32), (reservedWord w = true → decodeCore c w = none) ∧
    ∀ i : Instr, i.wf = true → i.word = some (c, w) → decodeCore c w = some i.plain) ∧
  (∀ (c : CoreId) (w : Word32) (s : State), issuesControl c w s = true → fld w 26 0 = 1 → (scalar s c).pl ≠ 3 →
    let k := scalar s c
    let mev := (s.reg .dbgMevec c).toNat
    let pc := natBits mev 47 12 * 4096 + (if mev.testBit 1 then 64 * 0x13 else 0)
    pc < (machineCode s c).limit.toNat →
    ∃ t, exec (.mark c w) s = .next t ∧ (scalar t c).pl = 3 ∧ (scalar t c).ml = 7 ∧ (scalar t c).pc = BitVec.ofNat 48 pc ∧
      (scalar t c).mach = ⟨k.pl, k.ml, causeWord 0x13 7 0 false false, epcWord k.code.handle k.pc⟩ ∧
      (scalar t c).sup = k.sup ∧ (scalar t c).g = k.g ∧ (dbgAttached s = true → (t.core c).halted = true) ∧
      (dbgAttached s = false → (t.core c).halted = (s.core c).halted) ∧ t.mem = s.mem)

/-- `resume` returns to the level, mask level, handle and pc that the bank saved, and arms a saved load substitution
(04 R191, 03 R132). -/
def Obligations.ResumeReturns : Prop :=
  ∀ (c : CoreId) (w : Word32) (s : State), issuesControl c w s = true → fld w 26 0 = 3 → (scalar s c).pl = 1 →
    let k := scalar s c
    let b := k.sup
    let h := natBits b.epc.toNat 63 57
    ∀ seg, b.spl.toNat ≤ 1 → h < 64 → handleCode (s.core c) h = some seg →
    ∃ t, exec (.resume c ⟨w, false⟩) s = .next t ∧ (scalar t c).pl = b.spl ∧ (scalar t c).ml = b.sml ∧ (scalar t c).code = seg ∧
      (scalar t c).pc = BitVec.ofNat 48 (natBits b.epc.toNat 47 2 * 4) ∧
      (k.ldsReg.toNat.testBit 31 = true → (scalar t c).shadow = some ⟨BitVec.ofNat 5 k.ldsReg.toNat, k.ldsOld, true⟩) ∧
      (k.ldsReg.toNat.testBit 31 = false → (scalar t c).shadow = none) ∧
      (scalar t c).g = k.g ∧ (scalar t c).sup = b ∧ t.mem = s.mem

/-- INTERRUPT_TAKEN at a boundary: a deliverable supervisor source other than the overrun notice enters the supervisor
handler at its level; its pending bit clears, unless software sends the same interrupt in that cycle (00 R15), and the
cause holds code 0, the asynchronous bit and the source (04 R177, R180-R182). NAN_TRAP_DEFERRED at a boundary where nothing is deliverable: the pending trap is taken with cause
0x08 at level 3 and pends no longer (07 R291).
`idle` waits while no source is pending and enabled, retires at once where one is, and IDLE_WAKE retires it when one
comes (04 R184). -/
def Obligations.InterruptsEnterHandlers : Prop :=
  ((∀ (c : CoreId) (b i lvl en : Nat) (s : State), (s.core c).run = .running → (s.core c).halted = false →
    (s.core c).wait = .none → (scalar s c).slot = none → (scalar s c).divide = none → (s.core c).nanTrap = none →
    deliverable (scalar s c) = some (b, 0, lvl, false, some en) → b < 4 → i = b →
    let k := scalar s c
    natBit k.evec.toNat 0 = true →
    ∀ h, handleCode (s.core c) (k.evec.toNat / 2 ^ 58) = some h →
      let pc := natBits k.evec.toNat 47 12 * 4096 + (if natBit k.evec.toNat 1 then 64 * (0x18 + i) else 0)
      pc < h.limit.toNat →
      ∃ t, exec (.interruptTaken c) s = .next t ∧ (scalar t c).pl = 1 ∧ (scalar t c).ml = BitVec.ofNat 3 lvl ∧
        natBit (scalar t c).ip.toNat b = (b == 3 && natBit (mget s.clash (.dbgSwi, c.val) 0) 0) ∧
        (scalar t c).pc = BitVec.ofNat 48 pc ∧
        (scalar t c).sup = ⟨k.pl, k.ml, causeWord 0 lvl i false true, epcWord k.code.handle k.pc⟩ ∧ t.mem = s.mem) ∧
  (∀ (c : CoreId) (s : State), (s.core c).nanTrap.isSome = true → (s.core c).run = .running → (s.core c).halted = false →
    (s.core c).wait = .none → (scalar s c).slot = none → (scalar s c).divide = none → deliverable (scalar s c) = none →
    handles c 8 s = true →
    ∃ t, exec (.nanTrapDeferred c) s = .next t ∧ supervisorEntry c 8 0 s t ∧ (t.core c).nanTrap = none)) ∧
  ((∀ (c : CoreId) (w : Word32) (s : State), issuesControl c w s = true → fld w 26 0 = 4 → (scalar s c).pl ≠ 0 →
    (sources.any (pendEnabled (scalar s c)) = false → exec (.idle c w) s = .next (waits c .idle s)) ∧
    (sources.any (pendEnabled (scalar s c)) = true → exec (.idle c w) s = .next (retired c s))) ∧
  (∀ (c : CoreId) (s : State), (s.core c).run = .running → (s.core c).halted = false → (s.core c).wait = .idle →
    sources.any (pendEnabled (scalar s c)) = true → exec (.idleWake c) s = .next (retired c s)))

/-- `exit` of a quiet core below machine level, with neither accumulator poisoned, ends its part with status 0; with
another core of the LAUNCH still running, the core is then idle, its channels closed, its frame-overrun notice discarded,
and it is no longer among the cores the LAUNCH waits for (03 R141, 08 R324, 11 R420). A poisoned accumulator raises its
cause instead (06 R257), and at machine level the handler ends the part (04 R193). -/
def Obligations.ExitEndsPart : Prop :=
  ∀ (c : CoreId) (w : Word32) (e : Ecc) (s : State), issuesControl c w s = true → fld w 26 0 = 2 → quiet c s = true →
    let poison := fun d : Nat => (mget (s.core c).accs d {}).poison
    ((scalar s c).pl ≠ 3 → poison 0 = 0 → poison 1 = 0 →
      exec (.exit c ⟨w, e⟩) s = .next (retired c (partEnd c 0 s)) ∧
      ((∀ l, l ∈ s.launches → c.val ∈ l.left → ∃ d, d ∈ l.left ∧ d ≠ c.val) →
        ∃ t, exec (.exit c ⟨w, e⟩) s = .next t ∧ (t.core c).run = .idle ∧ (t.core c).kernel = none ∧ (t.core c).wait = .none ∧
          (t.core c).chan.rx = [] ∧ (t.core c).chan.tx = [] ∧ natBit (scalar t c).ip.toNat 4 = false ∧
          (scalar t c).g = (scalar s c).g ∧ t.queues = s.queues ∧ t.launches.length = s.launches.length ∧
          (∀ (q start : Nat) (l : Launch), (s.core c).kernel = some (q, start) →
            s.launches.find? (fun l => l.queue == q && l.start == start && decide (c.val ∈ l.left)) = some l →
            { l with left := l.left.filter (· != c.val), status := mergeStatus l.status 0 } ∈ t.launches) ∧
          meshFrame [c.val] s t)) ∧
    ((scalar s c).pl ≠ 3 → poison 0 = 1 ∨ poison 1 = 1 →
      exec (.exit c ⟨w, e⟩) s = .next ((takeFault c ⟨0xE, 0⟩ s).updCore c (fun k => { k with step := false }))) ∧
    ((scalar s c).pl ≠ 3 → poison 0 ≠ 1 → poison 1 ≠ 1 → poison 0 = 2 ∨ poison 1 = 2 →
      exec (.exit c ⟨w, e⟩) s = .next ((takeFault c ⟨0xF, 0⟩ s).updCore c (fun k => { k with step := false }))) ∧
    ((scalar s c).pl = 3 → exec (.exit c ⟨w, e⟩) s = .next (retired c (machineEnd c s)))

/-! ## The vector unit (05 R194-R219) -/

/-- Lanewise arithmetic: F types exactly with one rounding to nearest even, I types modulo the lane (05 R200-R203). The
first-NaN record is taken already, or no lane of the result is NaN. -/
def Obligations.VectorArithmeticLanes : Prop :=
  ∀ (c : CoreId) (w : Word32) (s : State), issuesVec c w s = true →
    let ty := tyOf w
    let n := tyWidth ty
    let m := tyFmt ty
    let a := lane n (vreg s c (raOf w))
    let b := lane n (vreg s c (rbOf w))
    let d := lane n (vreg s c (rdOf w))
    let two := fun (ff : Val → Val → Val) (fi : Int → Int → Int) (i : Nat) =>
      if ty < 3 then m.enc .nearest (ff (m.dec (a i)) (m.dec (b i))) else wrapTo n (fi (toSigned n (a i)) (toSigned n (b i)))
    let three := fun (ff : Val → Val) (sg : Int) (i : Nat) =>
      if ty < 3 then m.enc .nearest (Val.add (ff (Val.mul (m.dec (a i)) (m.dec (b i)))) (m.dec (d i)))
      else wrapTo n (toSigned n (d i) + sg * (toSigned n (a i) * toSigned n (b i)))
    let is := fun (o : Host.Outcome State Fault Refusal) (f : Nat → Nat) =>
      (3 ≤ ty ∨ nanSpent c s = true ∨ ∀ i, i < 1024 / n → (m.dec (f i)).isNan = false) → lanesOut c w n f s o
    (auxOf w = 0 →
      is (exec (.vadd c w) s) (two Val.add (fun x y => x + y)) ∧
      is (exec (.vsub c w) s) (two (fun x y => Val.add x y.neg) (fun x y => x - y)) ∧
      is (exec (.vmul c w false) s) (two Val.mul (fun x y => x * y)) ∧
      is (exec (.vfma c w false) s) (three id 1) ∧
      is (exec (.vfms c w false) s) (three Val.neg (-1)) ∧
      is (exec (.vmax c w) s) (two (pickVal false) max) ∧
      is (exec (.vmin c w) s) (two (pickVal true) min) ∧
      (rbOf w = 0 →
        is (exec (.vabs c w) s) (fun i => if ty < 3 then m.enc .nearest (m.dec (a i)).abs
          else wrapTo n (Int.natAbs (toSigned n (a i)))) ∧
        is (exec (.vneg c w) s) (fun i => if ty < 3 then m.enc .nearest (m.dec (a i)).neg
          else wrapTo n (-(toSigned n (a i)))))) ∧
    (auxOf w = 1 → 3 ≤ ty →
      is (exec (.vmax c w) s) (fun i => max (a i) (b i)) ∧
      is (exec (.vmin c w) s) (fun i => min (a i) (b i)))

/-- Bitwise functions, moves, shifts, compares, slides and permutes (05 R200, R201). -/
def Obligations.VectorBitsAndPermutes : Prop :=
  ∀ (c : CoreId) (w : Word32) (s : State), issuesVec c w s = true →
    let ty := tyOf w
    let n := tyWidth ty
    let va := vreg s c (raOf w)
    let vb := vreg s c (rbOf w)
    let vd := vreg s c (rdOf w)
    let a := lane n va
    let b := lane n vb
    let L := 1024 / n
    let ga := (reads s c (raOf w)).toNat
    let gb := (reads s c (rbOf w)).toNat
    let low := fun i : Nat => if natBit (auxOf w) 0 then L / 2 + i / 2 else i / 2
    let whole := fun v : VReg => Host.Outcome.next (ρ := Refusal) (φ := Fault) (wroteV c (rdOf w) v s)
    let is := lanesOut c w n
    (ty = 0 → auxOf w = 0 →
      exec (.vand c w) s = whole (va &&& vb) ∧ exec (.vor c w) s = whole (va ||| vb) ∧
      exec (.vxor c w) s = whole (va ^^^ vb) ∧ exec (.vbsel c w) s = whole ((vd &&& va) ||| (~~~vd &&& vb)) ∧
      (rbOf w = 0 → exec (.vmov c w) s = whole va)) ∧
    (3 ≤ ty → auxOf w = 0 →
      is (fun i => a i * 2 ^ (gb % n)) s (exec (.vsll c w) s) ∧
      is (fun i => a i / 2 ^ (gb % n)) s (exec (.vsrl c w) s) ∧
      is (fun i => wrapTo n (toSigned n (a i) / 2 ^ (gb % n))) s (exec (.vsra c w) s)) ∧
    (auxOf w ≤ 1 →
      is (fun i => if auxOf w = 1 then (if gb ≤ i then a (i - gb) else 0) else if i + gb < L then a (i + gb) else 0) s
        (exec (.vslide c w) s) ∧
      is (fun i => if i % 2 = 0 then a (low i) else b (low i)) s (exec (.vzip c w) s) ∧
      is (fun i => let j := 2 * i + auxOf w % 2
                   if j < L then a j else b (j - L)) s (exec (.vuzp c w) s)) ∧
    ((if ty < 3 then auxOf w ≠ 7 else auxOf w ≠ 6) →
      is (fun i => if cmpLane w (a i) (b i) then 2 ^ n - 1 else 0) s (exec (.vcmp c w) s)) ∧
    (auxOf w = 0 →
      is (fun i => a (b i % L)) s (exec (.vperm c w) s) ∧
      is (fun i => if i = gb % L then ga else lane n vd i) s (exec (.vins c w) s) ∧
      exec (.vext c w) s = .next (wroteX c (rdOf w)
        (if ty < 3 then BitVec.ofNat 64 (a (gb % L)) else BitVec.ofInt 64 (toSigned n (a (gb % L)))) s) ∧
      (rbOf w = 0 → is (fun _ => ga) s (exec (.vsplat c w) s)))

/-- Reductions into g[rd] (05 R203, R204): an I-type sum is the sum of the signed lanes modulo 2^64; a maximum or minimum
is a lane's value with no lane beyond it; `vrarg` puts the lane's index, the lowest of equals, into the high word. An
F-type reduction whose lanes are all NaN gives the canonical NaN. -/
def Obligations.VectorReductionsWrite : Prop :=
  ∀ (c : CoreId) (w : Word32) (s : State), issuesVec c w s = true → rbOf w = 0 →
    let ty := tyOf w
    let n := tyWidth ty
    let a := lane n (vreg s c (raOf w))
    let L := 1024 / n
    let out := fun v : Word64 => Host.Outcome.next (ρ := Refusal) (φ := Fault) (wroteX c (rdOf w) v s)
    (3 ≤ ty → auxOf w = 0 →
      exec (.vrsum c w) s = out (BitVec.ofInt 64 ((List.range L).map (fun i => toSigned n (a i))).sum)) ∧
    (3 ≤ ty → auxOf w = 0 → ∀ j, j < L → (∀ i, i < L → toSigned n (a i) ≤ toSigned n (a j)) →
      exec (.vrmax c w) s = out (BitVec.ofInt 64 (toSigned n (a j)))) ∧
    (3 ≤ ty → auxOf w = 0 → ∀ j, j < L → (∀ i, i < L → toSigned n (a j) ≤ toSigned n (a i)) →
      exec (.vrmin c w) s = out (BitVec.ofInt 64 (toSigned n (a j)))) ∧
    (3 ≤ ty → auxOf w = 1 → ∀ j, j < L → (∀ i, i < L → a i ≤ a j) → exec (.vrmax c w) s = out (BitVec.ofNat 64 (a j))) ∧
    (3 ≤ ty → auxOf w = 1 → ∀ j, j < L → (∀ i, i < L → a j ≤ a i) → exec (.vrmin c w) s = out (BitVec.ofNat 64 (a j))) ∧
    (3 ≤ ty → auxOf w = 2 → ∀ j, j < L → (∀ i, i < L → a i ≤ a j) → (∀ i, i < j → a i < a j) →
      exec (.vrarg c w) s = out (BitVec.ofNat 64 (a j + j * 2 ^ 32))) ∧
    (ty = 0 → nanSpent c s = true → auxOf w = 0 →
      exec (.vrsum c w) s = out (BitVec.ofNat 64 (treeSum 5 ((List.range 32).map (fun i => enc32 (dec32 (a i))))))) ∧
    (ty < 3 → nanSpent c s = true → auxOf w = 0 → (∀ i, i < L → ((tyFmt ty).dec (a i)).isNan = true) →
      exec (.vrmax c w) s = out 0x7FC00000 ∧ exec (.vrmin c w) s = out 0x7FC00000 ∧
      exec (.vrarg c w) s = out 0xFFFF7FC00000) ∧
    (ty < 3 → nanSpent c s = true → auxOf w = 0 →
      exec (.vrmaxa c w) s = out (redMaxa w (lanesOf n (vreg s c (raOf w)))).1)

/-- Special functions, scaling, and conversions of whole registers (05 R205-R209, 07 R275): each lane by its function,
with the exact results at NaN, the infinities and zero.
A conversion from FP32 into 16-bit elements, or from them, without stochastic rounding: piece p of the destination
holds the 32 results, its other piece stays, and the amax register takes the largest magnitude (05 R207-R209, 07 R283). -/
def Obligations.VectorSpecialAndConversions : Prop :=
  ((∀ (c : CoreId) (w : Word32) (s : State), issuesVec c w s = true → nanSpent c s = true →
    let a := lane 32 (vreg s c (raOf w))
    let is := lanesOut c w 32
    (tyOf w = 0 → auxOf w = 0 → rbOf w = 0 →
      is (fun i => vexp2Val (a i)) s (exec (.vexp2 c w) s) ∧ is (fun i => vlog2Val (a i)) s (exec (.vlog2 c w) s) ∧
      is (fun i => vrcpVal (a i)) s (exec (.vrcp c w) s) ∧ is (fun i => vrsqrtVal (a i)) s (exec (.vrsqrt c w) s)) ∧
    (tyOf w = 0 → auxOf w ≤ 1 → is (fun i => sclLane w ((reads s c (rbOf w)).toNat % 256) (a i)) s (exec (.vscl c w) s)) ∧
    (tyOf w = 3 → auxOf w = 0 → rbOf w = 0 →
      is (fun i => fp32.enc .nearest (.ofInt (toSigned 32 (a i)))) s (exec (.vitof c w) s)) ∧
    (tyOf w = 0 → auxOf w ≤ 1 → rbOf w = 0 →
      is (fun i => wrapTo 32 ((dec32 (a i)).toInt (if auxOf w = 1 then .trunc else .nearest) (-(2 ^ 31)) (2 ^ 31 - 1))) s
        (exec (.vftoi c w) s))) ∧
  vexp2Val 0x7FC00000 = 0x7FC00000 ∧ vexp2Val 0x7F800000 = 0x7F800000 ∧ vexp2Val 0xFF800000 = 0 ∧ vexp2Val 0 = 0x3F800000 ∧
  vlog2Val 0 = 0xFF800000 ∧ vlog2Val 0x7F800000 = 0x7F800000 ∧ vlog2Val 0xBF800000 = 0x7FC00000 ∧
  vrcpVal 0 = 0x7F800000 ∧ vrcpVal 0x80000000 = 0xFF800000 ∧ vrcpVal 0x7F800000 = 0 ∧ vrcpVal 0xFF800000 = 0x80000000 ∧
  vrsqrtVal 0x80000000 = 0xFF800000 ∧ vrsqrtVal 0x7F800000 = 0 ∧ vrsqrtVal 0xBF800000 = 0x7FC00000) ∧
  (∀ (c : CoreId) (w : Word32) (s : State), issues c w s = true → isService c = false → nanSpent c s = true →
    fld w 12 12 = 0 → fld w 16 16 = 0 → fld w 15 13 < 2 →
    let p := fld w 15 13
    let a := vreg s c (raOf w)
    let i := fld w 1 0
    let old := (mget (s.core c).amax i 0).toNat
    (∀ m : Fmt, (fld w 9 6 = 2 ∧ m = bf16) ∨ (fld w 9 6 = 3 ∧ m = fp16) → fld w 5 2 = 1 →
      ∃ t, exec (.vectorConversion c w) s = .next t ∧
        (∀ j, j < 32 → lane 16 (vreg t c (rdOf w)) (32 * p + j) = m.enc .nearest (dec32 (lane 32 a j)) % 2 ^ 16) ∧
        (∀ j, j < 32 → lane 16 (vreg t c (rdOf w)) (32 * (1 - p) + j) = lane 16 (vreg s c (rdOf w)) (32 * (1 - p) + j)) ∧
        mget (t.core c).amax i 0 = BitVec.ofNat 32 (maxMag ((List.range 32).map (lane 32 a)) old) ∧
        (t.core c).rlfsr = (s.core c).rlfsr ∧ (scalar t c).g = (scalar s c).g ∧ t.mem = s.mem ∧ t.regs = s.regs) ∧
    (∀ m : Fmt, (fld w 5 2 = 2 ∧ m = bf16) ∨ (fld w 5 2 = 3 ∧ m = fp16) → fld w 9 6 = 1 →
      ∃ t, exec (.vectorConversion c w) s = .next t ∧
        (∀ j, j < 32 → lane 32 (vreg t c (rdOf w)) j = enc32 (m.dec (lane 16 a (32 * p + j))) % 2 ^ 32) ∧
        (t.core c).rlfsr = (s.core c).rlfsr ∧ (scalar t c).g = (scalar s c).g ∧ t.mem = s.mem ∧ t.regs = s.regs))

/-- The first NaN result of `vadd` fills the record: valid, the kept trap enable, the handle and offset, the word, unit 1
with the lowest lane, and the frame. With the trap enabled the destination stays and cause 0x08 is taken; else it is
written. Where it traps, the supervisor handler can be entered (05 R219, 07 R287-R291).
A residue mismatch of a multiply enters the machine handler with cause 0x0F; its destination is undefined and every
other vector register and general register stays (05 R218, 04 R173). -/
def Obligations.VectorFaultsRecordAndTrap : Prop :=
  (∀ (c : CoreId) (w : Word32) (s : State), issuesVec c w s = true → tyOf w = 0 → auxOf w = 0 → nanSpent c s = false →
    let a := lane 32 (vreg s c (raOf w))
    let b := lane 32 (vreg s c (rbOf w))
    let f := fun i : Nat => Val.add (dec32 (a i)) (dec32 (b i))
    let te := natBit (mget (s.core c).nanrec 0 0).toNat 62
    (te = true → handles c 8 s = true) → ∀ j, j < 32 → (f j).isNan = true → (∀ i, i < j → (f i).isNan = false) →
      ∃ t, exec (.vadd c w) s = .next t ∧ nanSpent c t = true ∧
        natBit (mget (t.core c).nanrec 0 0).toNat 62 = te ∧
        natBits (mget (t.core c).nanrec 0 0).toNat 61 55 = (scalar s c).code.handle.toNat ∧
        mget (t.core c).nanrec 1 0 = w.setWidth 64 ∧ mget (t.core c).nanrec 2 0 = BitVec.ofNat 64 (2 ^ 20 + j) ∧
        mget (t.core c).nanrec 3 0 = BitVec.ofNat 64 (s.frame % 2 ^ 48) ∧
        (te = true → vreg t c (rdOf w) = vreg s c (rdOf w)) ∧
        (te = false → lane 32 (vreg t c (rdOf w)) j = 0x7FC00000) ∧ t.mem = s.mem) ∧
  (∀ (c : CoreId) (w : Word32) (s : State), issuesVec c w s = true → 3 ≤ tyOf w → auxOf w = 0 → (scalar s c).pl ≠ 3 →
    let mev := (s.reg .dbgMevec c).toNat
    let pc := natBits mev 47 12 * 4096 + (if natBit mev 1 then 64 * 0xF else 0)
    pc < (machineCode s c).limit.toNat →
    let trapped := fun o : Host.Outcome State Fault Refusal =>
      ∃ t, o = .next t ∧ (scalar t c).pl = 3 ∧ (scalar t c).ml = 7 ∧ (scalar t c).pc = BitVec.ofNat 48 pc ∧
        (scalar t c).mach.cause.toNat % 256 = 0xF ∧ (∀ r, r ≠ rdOf w → vreg t c r = vreg s c r) ∧
        (scalar t c).g = (scalar s c).g ∧ t.mem = s.mem
    trapped (exec (.vmul c w true) s) ∧ trapped (exec (.vfma c w true) s) ∧ trapped (exec (.vfms c w true) s))

/-- Vector loads and stores in the core's own scratchpad (05 R212-R215): the contiguous form at g[ra] + 128 × imm11, the
strided at g[ra] + i × g[rb], the transposed with element i in row i mod R at byte i / R × size. -/
def Obligations.VectorMemoryMoves : Prop :=
  ∀ (c : CoreId) (w : Word32) (s : State), issues c w s = true → isService c = false → MemOk s →
    (s.core c).parts = [] →
    let n := 2 ^ fld w 4 3
    let R := 2 ^ fld w 2 0
    let row := fun j o : Nat => (reads s c (raOf w) + BitVec.ofNat 64 j * reads s c (rbOf w) + BitVec.ofNat 64 o).toNat
    let line := fun _ : Nat => (reads s c (raOf w) + 128 * BitVec.ofInt 64 (signed 11 (fld w 10 0))).toNat
    let loads := fun (o : Host.Outcome State Fault Refusal) (seg n : Nat) (off : Nat → Nat) =>
      (∀ i, i < 128 / n → ownAccess c seg (off i) n false s = true) →
      ∃ t, o = .next t ∧ (∀ i, i < 128 / n →
          lane (8 * n) (vreg t c (rdOf w)) i = ofLeBytes (s.bytes (segAddr (scalar s c) seg (off i)) n)) ∧
        (∀ r, r ≠ rdOf w → vreg t c r = vreg s c r) ∧ (scalar t c).g = (scalar s c).g ∧ onlyCore c s t
    let stores := fun (o : Host.Outcome State Fault Refusal) (seg n : Nat) (off : Nat → Nat) =>
      (∀ i, i < 128 / n → ownAccess c seg (off i) n true s = true) →
      ∃ t, o = .next t ∧
        storedElements (128 / n) n (fun i => segAddr (scalar s c) seg (off i)) (vreg s c (rdOf w)).toNat s t ∧
        (t.core c).v = (s.core c).v ∧ (scalar t c).g = (scalar s c).g ∧ t.regs = s.regs ∧ coresBut [c.val] s t
    (fld w 11 11 = 0 → fld w 13 12 = 0 → loads (exec (.vld c w .clean) s) (fld w 16 14) 128 line) ∧
    (fld w 11 11 = 0 → fld w 13 12 = 1 → stores (exec (.vst c w .clean) s) (fld w 16 14) 128 line) ∧
    (fld w 11 11 = 1 → fld w 7 5 = 0 → fld w 2 0 = 0 →
      loads (exec (.vlds c w .clean) s) (fld w 10 8) n (fun i => row i 0)) ∧
    (fld w 11 11 = 1 → fld w 7 5 = 1 → fld w 2 0 = 0 →
      stores (exec (.vsts c w .clean) s) (fld w 10 8) n (fun i => row i 0)) ∧
    (fld w 11 11 = 1 → fld w 7 5 = 2 → R * n ≤ 128 →
      loads (exec (.vldt c w .clean) s) (fld w 10 8) n (fun i => row (i % R) (i / R * n))) ∧
    (fld w 11 11 = 1 → fld w 7 5 = 3 → R * n ≤ 128 →
      stores (exec (.vstt c w .clean) s) (fld w 10 8) n (fun i => row (i % R) (i / R * n)))

/-! ## Block-repeat instructions (03 R142-R147) -/

/-- One element of each `blk` instruction in the core's own scratchpad, and a count of zero. The count in g[rd] goes down
by one and each pointer advances by the element; at zero the instruction retires, else the core stands at an element
boundary. `blk.cmp` ends at the first difference and `blk.scan` at the first match, with nothing advanced. -/
def Obligations.BlockElementsStep : Prop :=
  ∀ (c : CoreId) (w : Word32) (s : State), issuesControl c w s = true → MemOk s → rdOf w ≠ 0 →
    (s.core c).parts = [] →
    let z := 2 ^ fld w 2 1
    let rd := rdOf w
    let ra := raOf w
    let rb := rbOf w
    let A := segAddr (scalar s c) (fld w 5 3) (reads s c ra).toNat
    let B := segAddr (scalar s c) (fld w 8 6) (reads s c rb).toNat
    let readA := ownAccess c (fld w 5 3) (reads s c ra).toNat z false s = true
    let readB := ownAccess c (fld w 8 6) (reads s c rb).toNat z false s = true
    let writeB := ownAccess c (fld w 8 6) (reads s c rb).toNat z true s = true
    let x := ofLeBytes (s.bytes A z)
    let y := ofLeBytes (s.bytes B z)
    let pointers := rd ≠ ra ∧ rd ≠ rb ∧ ra ≠ rb ∧ fld w 0 0 = 0
    let fillForm := fld w 0 0 = 0 ∧ fld w 5 3 = 0 ∧ rd ≠ rb ∧ (ra = 0 ∨ (ra ≠ rd ∧ ra ≠ rb))
    let scanForm := fld w 0 0 = 0 ∧ fld w 8 6 = 0 ∧ rd ≠ ra ∧ (rb = 0 ∨ (rb ≠ rd ∧ rb ≠ ra))
    let macForm := rd ≤ 30 ∧ rd ≠ ra ∧ rd ≠ rb ∧ ra ≠ rb ∧ rd + 1 ≠ ra ∧ rd + 1 ≠ rb
    let counted := fun t : State => mget (scalar t c).g rd 0 = reads s c rd - 1 ∧
      (reads s c rd = 1 → (t.core c).wait = .none ∧ (scalar t c).pc = (scalar s c).pc + 4) ∧
      (reads s c rd ≠ 1 → (t.core c).wait = .elem ∧ (scalar t c).pc = (scalar s c).pc)
    let moved := fun (t : State) (r d : Nat) => r ≠ 0 → mget (scalar t c).g r 0 = reads s c r + BitVec.ofNat 64 d
    (reads s c rd = 0 → ∀ (n : Nat) (e : Ecc),
      (pointers → exec (.blkMov c w n e) s = .next (retired c s) ∧ exec (.blkCmp c w n e) s = .next (retired c s)) ∧
      (fillForm → exec (.blkFill c w n e) s = .next (retired c s)) ∧
      (scanForm → exec (.blkScan c w n e) s = .next (retired c s)) ∧
      (macForm → exec (.blkMac c w n e) s = .next (retired c s))) ∧
    (reads s c rd ≠ 0 →
      (pointers → readA → writeB → ∃ t, exec (.blkMov c w 1 .clean) s = .next t ∧ t.bytes B z = s.bytes A z ∧
        bytesKept B z s t ∧ counted t ∧ moved t ra z ∧ moved t rb z ∧ gBut c [rd, ra, rb] s t ∧
        t.regs = s.regs ∧ coresBut [c.val] s t) ∧
      (fillForm → writeB → ∃ t, exec (.blkFill c w 1 .clean) s = .next t ∧
        t.bytes B z = leBytes z (reads s c ra).toNat ∧ bytesKept B z s t ∧ counted t ∧ moved t rb z ∧
        gBut c [rd, rb] s t ∧ t.regs = s.regs ∧ coresBut [c.val] s t) ∧
      (pointers → readA → readB → x ≠ y → exec (.blkCmp c w 1 .clean) s = .next (retired c s)) ∧
      (pointers → readA → readB → x = y → ∃ t, exec (.blkCmp c w 1 .clean) s = .next t ∧ counted t ∧ moved t ra z ∧
        moved t rb z ∧ gBut c [rd, ra, rb] s t ∧ onlyCore c s t) ∧
      (scanForm → readA → x = (reads s c rb).toNat % 2 ^ (8 * z) → exec (.blkScan c w 1 .clean) s = .next (retired c s)) ∧
      (scanForm → readA → x ≠ (reads s c rb).toNat % 2 ^ (8 * z) → ∃ t, exec (.blkScan c w 1 .clean) s = .next t ∧
        counted t ∧ moved t ra z ∧ gBut c [rd, ra] s t ∧ onlyCore c s t) ∧
      (macForm → readA → readB → ∃ t, exec (.blkMac c w 1 .clean) s = .next t ∧ counted t ∧ moved t ra z ∧ moved t rb z ∧
        mget (scalar t c).g (rd + 1) 0 = reads s c (rd + 1) + (if fld w 0 0 = 1 then BitVec.ofNat 64 (x * y)
          else BitVec.ofInt 64 (toSigned (8 * z) x * toSigned (8 * z) y)) ∧
        gBut c [rd, rd + 1, ra, rb] s t ∧ onlyCore c s t))

/-! ## Coprocessors (03 R158-R162) -/

/-- The top-k selector: `tk.init` makes an empty list of 1 to 64 entries, pushes offer keys, and the reads return an
entry, the counts and the last key with the full mark (03 R159, R160).
The sketch and hash unit: distances of whole registers, halves and quarters, signs of FP32 lanes, CRC-32C over 8 and
4 bytes, and the mix (03 R161, R162). -/
def Obligations.CoprocessorsCompute : Prop :=
  (∀ (c : CoreId) (w : Word32) (s : State), issues c w s = true → isService c = false →
    let a := reads s c (raOf w)
    let b := reads s c (rbOf w)
    let put := fun t : TopK => Host.Outcome.next (ρ := Refusal) (φ := Fault)
      (retired c (s.updSc c (fun k => { k with cp0 := some t })))
    let out := fun v : Nat => Host.Outcome.next (ρ := Refusal) (φ := Fault) (wroteG c (rdOf w) (BitVec.ofNat 64 v) s)
    (rdOf w = 0 → 1 ≤ a.toNat % 128 → a.toNat % 128 ≤ 64 → b.toNat % 8 < 6 →
      exec (.tkInit c w) s = put ⟨a.toNat % 128, BitVec.ofNat 3 b.toNat, []⟩) ∧
    (∀ t : TopK, (scalar s c).cp0 = some t →
      (rdOf w = 0 → exec (.tkPush c w) s = put (tkOffer t (a.setWidth 32) (b.setWidth 32)) ∧
        exec (.tkPushv c w) s = put ((List.range 32).foldl (fun t i =>
          tkOffer t (BitVec.ofNat 32 (lane 32 (vreg s c (raOf w)) i)) (b.setWidth 32 + BitVec.ofNat 32 i)) t)) ∧
      (rbOf w = 0 → ∀ p, t.entries[a.toNat]? = some p → exec (.tkRd c w) s = out (p.1.toNat * 2 ^ 32 + p.2.toNat)) ∧
      (raOf w = 0 → rbOf w = 0 →
        exec (.tkCnt c w) s = out (t.entries.length + 2 ^ 8 * t.k + 2 ^ 16 * t.mode.toNat) ∧
        (∀ (l : List (Word32 × Word32)) (p : Word32 × Word32), t.entries = l ++ [p] →
          exec (.tkThr c w) s = out (p.1.toNat + (if l.length + 1 = t.k then 2 ^ 32 else 0)))) ∧
      (∀ key id : Word32, (tkOffer t key id).k = t.k ∧ (tkOffer t key id).mode = t.mode ∧
        (t.entries.length ≤ t.k → (tkOffer t key id).entries.length ≤ t.k)))) ∧
  (∀ (c : CoreId) (w : Word32) (s : State), issues c w s = true → isService c = false →
    let a := vreg s c (raOf w)
    let b := vreg s c (rbOf w)
    let x := reads s c (raOf w)
    let y := reads s c (rbOf w)
    let d := fun lo n : Nat => ((List.range n).filter (fun i => (a ^^^ b).getLsbD (lo + i))).length
    let out := fun v : Word64 => Host.Outcome.next (ρ := Refusal) (φ := Fault) (wroteG c (rdOf w) v s)
    let z1 := x + y * 0x9E3779B97F4A7C15
    let z2 := (z1 ^^^ (z1 >>> 29)) * 0x8F3B2C71D4690E2B
    let z3 := (z2 ^^^ (z2 >>> 32)) * 0xB7E151639A4C2D17
    exec (.skHam c w) s = out (BitVec.ofNat 64 (d 0 1024)) ∧
    exec (.skHam2 c w) s = out (BitVec.ofNat 64 (d 0 512 + 2 ^ 16 * d 512 512)) ∧
    exec (.skHam4 c w) s =
      out (BitVec.ofNat 64 (d 0 256 + 2 ^ 16 * d 256 256 + 2 ^ 32 * d 512 256 + 2 ^ 48 * d 768 256)) ∧
    (rbOf w = 0 → ∃ v : Word64, exec (.skSign c w) s = out v ∧
      ∀ i, i < 64 → v.getLsbD i = (decide (i < 32) && Val.lt (.fin false 0 0) (dec32 (lane 32 a i)))) ∧
    exec (.hsCrc c w) s = out (BitVec.ofNat 64 (crc32c (x.toNat % 2 ^ 32) (leBytes 8 y.toNat))) ∧
    exec (.hsCrcw c w) s = out (BitVec.ofNat 64 (crc32c (x.toNat % 2 ^ 32) (leBytes 4 y.toNat))) ∧
    exec (.hsMix c w) s = out (z3 ^^^ (z3 >>> 29)))

/-- `mac2m` in INT8 form: the vector variant adds to each lane the products of four bytes of A and B; the tile variant
enters the matrix queue, and its array work, with which it retires, adds the product of byte i of A and byte j of B to
word (i, j); the pointers advance past their operands unless the word keeps them (03 R153-R156, 05 R210, 06 R242, R253). -/
def Obligations.Mac2mAccumulates : Prop :=
  ∀ (c : CoreId) (w : Word32) (s : State), issues c w s = true → isService c = false → fld w 0 0 = 0 →
    let oa := (reads s c (raOf w)).toNat
    let ob := (reads s c (rbOf w)).toNat
    let A := segAddr (scalar s c) (fld w 10 8) oa
    let B := segAddr (scalar s c) (fld w 7 5) ob
    let i8 := fun (base i : Nat) => toSigned 8 (s.byte (base + i)).toNat
    let pointers := fun (t : State) (n : Nat) =>
      (fld w 1 1 = 1 → (scalar t c).g = (scalar s c).g) ∧
      (fld w 1 1 = 0 → gBut c [raOf w, rbOf w] s t ∧
        (raOf w ≠ 0 → mget (scalar t c).g (raOf w) 0 = reads s c (raOf w) + BitVec.ofNat 64 n) ∧
        (rbOf w ≠ 0 → mget (scalar t c).g (rbOf w) 0 = reads s c (rbOf w) + BitVec.ofNat 64 n))
    (fld w 11 11 = 0 → fld w 4 2 = 5 → ownOperand c (fld w 10 8) oa 128 128 false s = true →
      ownOperand c (fld w 7 5) ob 128 128 false s = true →
      ∃ t, exec (.mac2mVector c w (.clean, .clean) false) s = .next t ∧
        (∀ i, i < 32 → lane 32 (vreg t c (rdOf w)) i = wrapTo 32 (toSigned 32 (lane 32 (vreg s c (rdOf w)) i) +
          i8 A (4 * i) * i8 B (4 * i) + i8 A (4 * i + 1) * i8 B (4 * i + 1) + i8 A (4 * i + 2) * i8 B (4 * i + 2) +
          i8 A (4 * i + 3) * i8 B (4 * i + 3))) ∧
        (∀ r, r ≠ rdOf w → vreg t c r = vreg s c r) ∧ pointers t 128 ∧ onlyCore c s t) ∧
    (fld w 11 11 = 1 → fld w 26 23 = 0 → fld w 4 2 = 2 → (s.core c).matq = [] →
      (mget (s.core c).accs (fld w 22 22) {}).poison = 0 → ownOperand c (fld w 10 8) oa 32 32 false s = true →
      ownOperand c (fld w 7 5) ob 32 32 false s = true →
      ∃ q t, exec (.mac2mTile c w .clean .clean) s = .next q ∧ (q.core c).wait = .mac ∧ (q.core c).matq.length = 1 ∧
        (q.core c).accs = (s.core c).accs ∧ (scalar q c).g = (scalar s c).g ∧ onlyCore c s q ∧
        exec (.tmmaExecute c false) q = .next t ∧ (t.core c).matq = [] ∧ (t.core c).wait = .none ∧
        (∀ i j, i < 32 → j < 32 → (mget (mget (t.core c).accs (fld w 22 22) {}).words (32 * i + j) 0).toNat =
          wrapTo 32 (toSigned 32 (mget (mget (s.core c).accs (fld w 22 22) {}).words (32 * i + j) 0).toNat +
            i8 A i * i8 B j)) ∧
        (∀ d, d ≠ fld w 22 22 → mget (t.core c).accs d {} = mget (s.core c).accs d {}) ∧
        pointers t 32 ∧ onlyCore c s t)

/-! ## Tiles and the matrix unit (06) -/

/-- A tile load or store in the core's own scratchpad that no event interrupts: every row of the tile, or of the
accumulator that units 8 and 9 name, between its bank and the addresses g[ra] + row × g[rb] (06 R228-R236). -/
def Obligations.TilesLoadAndStore : Prop :=
  ∀ (c : CoreId) (w : Word32) (s : State), issues c w s = true → isService c = false → MemOk s → fld w 26 26 = 0 →
    fld w 3 0 = 0 → natBit (s.core c).tprog.toNat 31 = false → (s.core c).matq = [] → (s.core c).parts = [] →
    let u := fld w 25 22
    let z := 2 ^ fld w 5 4
    let T := mget (s.core c).tiles u {}
    let off := fun j : Nat => (reads s c (raOf w) + BitVec.ofNat 64 j * reads s c (rbOf w)).toNat
    let addr := fun j : Nat => segAddr (scalar s c) (fld w 8 6) (off j)
    let rowsOk := fun (n bytes align : Nat) (write : Bool) =>
      ∀ j, j < n → ownRange c (fld w 8 6) (off j) bytes align write s = true
    let loaded := fun t : State => (mget (t.core c).tiles u {}).st = .full ∧ (mget (t.core c).tiles u {}).poison = false ∧
      (mget (t.core c).tiles u {}).rows = T.rows ∧ (mget (t.core c).tiles u {}).bpr = T.bpr ∧
      (∀ i, i ≠ u → mget (t.core c).tiles i {} = mget (s.core c).tiles i {}) ∧ (t.core c).accs = (s.core c).accs ∧
      (scalar t c).g = (scalar s c).g ∧ onlyCore c s t
    let row := fun (t : State) (j : Nat) => (mget (t.core c).tiles u {}).bytes j 0 T.bpr
    let held := u < 8 ∧ T.rows ≠ 0 ∧ T.st ≠ .landing ∧ T.rows * T.bpr ≤ T.data.length
    (fld w 11 9 = 0 → fld w 5 4 = 0 → held → rowsOk T.rows T.bpr 4 false → ∀ n, T.rows ≤ n →
      ∃ t, exec (.tld c w n .clean) s = .next t ∧ loaded t ∧ ∀ j, j < T.rows → row t j = s.bytes (addr j) T.bpr) ∧
    (fld w 11 9 = 0 → fld w 5 4 = 0 → 8 ≤ u → u < 10 → rowsOk 32 128 4 false → ∀ n, 32 ≤ n →
      ∃ t, exec (.tld c w n .clean) s = .next t ∧ (mget (t.core c).accs (u - 8) {}).poison = 0 ∧
        (∀ i j, i < 32 → j < 32 → mget (mget (t.core c).accs (u - 8) {}).words (32 * j + i) 0 =
          BitVec.ofNat 32 (leAt (s.bytes (addr j) 128) (4 * i) 4)) ∧ (t.core c).tiles = (s.core c).tiles ∧
        onlyCore c s t) ∧
    (fld w 11 9 = 1 → fld w 5 4 = 0 → held → T.st ≠ .empty → T.poison = false → rowsOk T.rows T.bpr 4 true →
      ∀ n, T.rows ≤ n →
      ∃ t, exec (.tst c w n .clean) s = .next t ∧ storedElements T.rows T.bpr addr (ofLeBytes T.data) s t ∧
        (t.core c).tiles = (s.core c).tiles ∧ (scalar t c).g = (scalar s c).g ∧ t.regs = s.regs ∧ coresBut [c.val] s t) ∧
    (fld w 11 9 = 1 → fld w 5 4 = 0 → 8 ≤ u → u < 10 → (mget (s.core c).accs (u - 8) {}).poison = 0 → rowsOk 32 128 4 true →
      ∀ n, 32 ≤ n →
      ∃ t, exec (.tst c w n .clean) s = .next t ∧
        storedElements 32 128 addr (ofLeBytes ((List.range 1024).flatMap (fun i =>
          leBytes 4 (mget (mget (s.core c).accs (u - 8) {}).words i 0).toNat))) s t ∧
        t.regs = s.regs ∧ coresBut [c.val] s t) ∧
    (fld w 11 9 = 2 → fld w 5 4 ≠ 3 → held → T.bpr % z = 0 → rowsOk (T.bpr / z) (T.rows * z) z false →
      ∀ n, T.bpr / z ≤ n → T.bpr ≠ 0 →
      ∃ t, exec (.tldt c w n .clean) s = .next t ∧ loaded t ∧ ∀ i j, i < T.rows → j < T.bpr / z →
        (mget (t.core c).tiles u {}).bytes i (j * z) z = s.bytes (addr j + i * z) z) ∧
    (fld w 11 9 = 3 → fld w 5 4 ≠ 3 → held → T.bpr % z = 0 →
      (let b := bitmapBytes (T.bpr / z)
       let bits := fun j : Nat => (nats (T.bpr / z) 0 1).map (natBit (ofLeBytes (s.bytes (addr j) b)))
       let len := fun j : Nat => b + ((bits j).filter id).length * z
       rowsOk T.rows b 4 false → (∀ j, j < T.rows → ownRange c (fld w 8 6) (off j) (len j) 4 false s = true) →
       ∀ n, T.rows ≤ n →
       ∃ t, exec (.tldz c w n .clean) s = .next t ∧ loaded t ∧ ∀ j, j < T.rows →
         row t j = inflate z (bits j) (s.bytes (addr j + b) (len j - b))))

/-- The instructions of the matrix unit at issue: four enter its queue while it has room and wait while it is full;
`tacc2v`, `tocc` and `tstat` read its state; `tcfg` shapes the tiles it names (06 R225-R227, R241-R244, R250). -/
def Obligations.MatrixInstructionsIssue : Prop :=
  ∀ (c : CoreId) (w : Word32) (s : State), issues c w s = true → isService c = false →
    let k := s.core c
    let fn := fld w 11 8
    let tile := fun (t : State) (i : Nat) => mget (t.core c).tiles i {}
    let enters := fun (o : Host.Outcome State Fault Refusal) (m : MatWork) =>
      (k.matq.length < 4 → o = .next (retired c (s.updCore c (fun x =>
        { x with matq := x.matq ++ [⟨m, k.sc.pc, k.sc.code.handle⟩] })))) ∧
      (4 ≤ k.matq.length → o = .next (waits c .retry s))
    let gb := (reads s c (rbOf w)).toNat
    let v := (reads s c (raOf w)).toNat
    (fn = 0 → fld w 21 20 = 0 → fld w 16 15 = 0 → (fld w 0 0 = 1 ∨ fld w 26 24 = 0) → tmmaFormats w = true →
      tmmaCheck w k = none → enters (exec (.tmma c w) s) (.tmma w)) ∧
    (fn = 1 → fld w 26 23 = 0 → fld w 21 12 = 0 → fld w 7 0 = 0 → enters (exec (.aclr c w) s) (.aclr (fld w 22 22))) ∧
    (fn = 2 → fld w 26 12 = 0 → enters (exec (.trel c w) s) (.trel (fld w 7 0))) ∧
    (fn = 4 → fld w 26 23 = 0 → fld w 7 0 = 0 →
      enters (exec (.tv2acc c w) s) (.tv2acc (fld w 22 22) (gb % 32) (vreg s c (raOf w)))) ∧
    (fn = 3 → fld w 21 18 = 0 → fld w 7 0 = 0 → k.matq.any (fun m => m.acc == some (fld w 17 17)) = false →
      (mget k.accs (fld w 17 17) {}).poison = 0 →
      ∃ x : VReg, exec (.tacc2v c w) s = .next (retired c (s.setV c (rdOf w) x)) ∧
        ∀ i, i < 32 → lane 32 x i = (mget (mget k.accs (fld w 17 17) {}).words (32 * (gb % 32) + i) 0).toNat) ∧
    (fn = 5 → fld w 21 20 = 0 → fld w 16 12 = 0 → fld w 7 0 = 0 → k.matq = [] → (tile s (fld w 19 17)).st = .full →
      ∃ x : Word64, exec (.tocc c w) s = .next (wroteG c (rdOf w) x s) ∧
        let T := tile s (fld w 19 17)
        ∀ r q, r < 4 → q < 16 → (x.getLsbD (16 * r + q) = true ↔ ∃ i b, 8 * r ≤ i ∧ i < 8 * r + 8 ∧ i < T.rows ∧
          4 * q ≤ b ∧ b < 4 * q + 4 ∧ b < T.bpr ∧ leAt T.data (i * T.bpr + b) 1 ≠ 0)) ∧
    (fn = 6 → fld w 21 12 = 0 → fld w 7 0 = 0 → k.matq.length ≤ 4 →
      ∃ x : Word64, exec (.tstat c w) s = .next (wroteG c (rdOf w) x s) ∧
        (∀ i, i < 8 → natBits x.toNat (2 * i + 1) (2 * i) =
            (match (tile s i).st with | .empty => 0 | .full => 1 | .partialLoad => 2 | .landing => 3) ∧
          natBit x.toNat (16 + i) = (tile s i).poison) ∧
        natBits x.toNat 25 24 = (mget k.accs 0 {}).poison.toNat ∧ natBits x.toNat 27 26 = (mget k.accs 1 {}).poison.toNat ∧
        natBits x.toNat 30 28 = k.matq.length ∧ natBits x.toNat 63 31 = 0) ∧
    (rdOf w = 0 → rbOf w = 0 → fld w 7 0 = 0 → natBits v 55 51 = 0 → natBits v 47 22 = 0 → natBits v 15 7 = 0 →
      k.matq = [] → k.landings = [] →
      (natBits v 63 56 = 0 ∨ (natBits v 21 16 = 0 ∧ natBits v 6 0 = 0) ∨ (1 ≤ natBits v 21 16 ∧ natBits v 21 16 ≤ 32 ∧
        4 ≤ natBits v 6 0 ∧ natBits v 6 0 ≤ 64 ∧ natBits v 6 0 % 4 = 0)) →
      ∃ t, exec (.tcfg c w) s = .next t ∧ (t.core c).tcfgSel = BitVec.ofNat 3 (natBits v 50 48) ∧
        (∀ i, i < 8 → natBit v (56 + i) = true →
          (tile t i).rows = natBits v 21 16 ∧ (tile t i).bpr = natBits v 6 0 ∧
          (if (tile s i).rows = natBits v 21 16 ∧ (tile s i).bpr = natBits v 6 0 then tile t i = tile s i
           else (tile t i).st = .empty ∧ (tile t i).poison = false)) ∧
        (∀ i, natBit v (56 + i) = false ∨ 8 ≤ i → tile t i = tile s i) ∧ (t.core c).accs = k.accs ∧ onlyCore c s t)

/-- TMMA_EXECUTE of a dense INT8 product: word (i, j) takes in every product of row i of A with row j of B, modulo 2^32,
on top of its old value or, where the word clears, of zero; no other word, accumulator or tile changes (06 R247-R248,
R254). -/
def Obligations.MatrixProductExact : Prop :=
  ∀ (c : CoreId) (w : Word32) (m : MatOp) (rest : List MatOp) (s : State), (s.core c).matq = m :: rest → m.work = .tmma w →
    fld w 7 5 = 2 → fld w 4 2 = 2 → fld w 1 1 = 0 → fld w 0 0 = 0 →
    let A := mget (s.core c).tiles (fld w 19 17) {}
    let B := mget (s.core c).tiles (fld w 14 12) {}
    let d := fld w 22 22
    A.st ≠ .landing → B.st ≠ .landing → A.poison = false → B.poison = false → A.rows ≤ 32 → B.rows ≤ 32 →
    let i8 := fun (T : Tile) (r e : Nat) => toSigned 8 (leAt (T.bytes r 0 T.bpr) e 1)
    let old := fun x : Nat => if fld w 23 23 = 1 then 0 else (mget (mget (s.core c).accs d {}).words x 0).toNat
    ∃ t, exec (.tmmaExecute c false) s = .next t ∧ (t.core c).matq = rest ∧
      (∀ i j, i < A.rows → j < B.rows → (mget (mget (t.core c).accs d {}).words (32 * i + j) 0).toNat =
        wrapTo 32 (((List.range A.bpr).map (fun e => i8 A i e * i8 B j e)).sum + toSigned 32 (old (32 * i + j)))) ∧
      (∀ x, (∀ i j, i < A.rows → j < B.rows → x ≠ 32 * i + j) → (mget (mget (t.core c).accs d {}).words x 0).toNat = old x) ∧
      (fld w 23 23 = 0 → (mget (t.core c).accs d {}).poison = (mget (s.core c).accs d {}).poison) ∧
      (∀ e, e ≠ d → mget (t.core c).accs e {} = mget (s.core c).accs e {}) ∧ (t.core c).tiles = (s.core c).tiles ∧
      (t.core c).v = (s.core c).v ∧ (scalar t c).g = (scalar s c).g ∧ onlyCore c s t

/-- The other work of the matrix queue, and landings: `aclr` clears an accumulator, `trel` empties the tiles it names,
`tv2acc` writes a row, an entry whose tile is landing waits; `tland` starts a landing, whose end fills the tile with the
bytes of its rows where it lies in the core's own scratchpad, and is still under way while requests of it are
unanswered (06 R237-R243). -/
def Obligations.MatrixQueueWork : Prop :=
  (∀ (c : CoreId) (m : MatOp) (rest : List MatOp) (s : State), (s.core c).matq = m :: rest →
    let acc := fun (t : State) (d : Nat) => mget (t.core c).accs d {}
    let tile := fun (t : State) (i : Nat) => mget (t.core c).tiles i {}
    (m.tiles.any (fun i => (tile s i).st == .landing) = true → exec (.tmmaExecute c false) s = .next s) ∧
    (∀ d, m.work = .aclr d → ∃ t, exec (.tmmaExecute c false) s = .next t ∧ (t.core c).matq = rest ∧ acc t d = {} ∧
      (∀ e, e ≠ d → acc t e = acc s e) ∧ (t.core c).tiles = (s.core c).tiles ∧ onlyCore c s t) ∧
    (∀ x, m.work = .trel x → m.tiles.any (fun i => (tile s i).st == .landing) = false →
      ∃ t, exec (.tmmaExecute c false) s = .next t ∧ (t.core c).matq = rest ∧
        (∀ i, i < 8 → tile t i = if natBit x i then { tile s i with st := .empty, poison := false } else tile s i) ∧
        (t.core c).accs = (s.core c).accs ∧ onlyCore c s t) ∧
    (∀ (d row : Nat) (v : VReg), m.work = .tv2acc d row v → ∃ t, exec (.tmmaExecute c false) s = .next t ∧
      (t.core c).matq = rest ∧ (acc t d).poison = (acc s d).poison ∧
      (∀ i, i < 32 → (mget (acc t d).words (32 * row + i) 0).toNat = lane 32 v i) ∧
      (∀ x, (x < 32 * row ∨ 32 * row + 32 ≤ x) → mget (acc t d).words x 0 = mget (acc s d).words x 0) ∧
      (∀ e, e ≠ d → acc t e = acc s e) ∧ onlyCore c s t)) ∧
  (∀ (c : CoreId) (w : Word32) (s : State), issues c w s = true → isService c = false →
    let u := fld w 25 22
    let T := mget (s.core c).tiles u {}
    let off := fun j : Nat => (reads s c (raOf w) + BitVec.ofNat 64 j * reads s c (rbOf w)).toNat
    fld w 26 26 = 0 → fld w 11 9 = 4 → fld w 5 4 = 0 → fld w 3 0 = 0 → u < 8 → T.rows ≠ 0 → T.st ≠ .landing →
    (s.core c).matq = [] → (s.core c).landings.length < 2 → ((scalar s c).sgm (fld w 8 6)).cls ≠ 3 →
    (∀ j, j < T.rows → ownRange c (fld w 8 6) (off j) T.bpr 4 false s = true) →
    ∃ t, exec (.tland c w) s = .next t ∧ mget (t.core c).tiles u {} = { T with st := .landing } ∧
      (t.core c).landings = (s.core c).landings ++
        [{ tile := u, todo := (List.range T.rows).map (fun j =>
             ⟨segAddr (scalar s c) (fld w 8 6) (off j), T.bpr, j * T.bpr⟩) }] ∧ onlyCore c s t) ∧
  (∀ (c : CoreId) (u : Fin 8) (l : Landing) (rest : List Landing) (s : State),
    takeFirst (fun l => l.tile == u.val) (s.core c).landings = some (l, rest) →
    (∀ p, p ∈ l.todo → ownClean c p.addr p.n s = true) → l.got = [] → l.lost = [] →
    (l.asked = [] → ∃ t, exec (.landingComplete c u .clean) s = .next t ∧ (t.core c).landings = rest ∧
      (mget (t.core c).tiles u.val {}).st = .full ∧ (mget (t.core c).tiles u.val {}).poison = false ∧
      (l.todo.Pairwise (fun p q => p.place + p.n ≤ q.place) →
        (∀ p, p ∈ l.todo → p.place + p.n ≤ (mget (s.core c).tiles u.val {}).data.length) →
        ∀ p, p ∈ l.todo → ((mget (t.core c).tiles u.val {}).data.drop p.place).take p.n = s.bytes p.addr p.n) ∧
      onlyCore c s t) ∧
    (l.asked ≠ [] → s.resps.any (fun r => respHere s c r && r.kind == .land u.val) = false →
      ∃ t, exec (.landingComplete c u .clean) s = .next t ∧ (t.core c).tiles = (s.core c).tiles ∧
        (t.core c).landings.map Landing.tile = (s.core c).landings.map Landing.tile ∧ onlyCore c s t))

/-! ## Channels, datagrams, multicast writes and combines (11, 10 R370-R385) -/

/-- Opening and closing: `rxopen` gives the core a ring in its own scratchpad, `rxclose` frees one and tells a bound
sender, `chclose` sends the end marker, `dgring` places or removes the datagram ring (11 R394-R396, R405, R406, R413).
`chopen`: with no opening under way it reserves the lowest free channel, sends the request and waits; when the answer
is kept it takes a success as an open channel's number, and a refusal, with the no-fault bit, as bit 63 and the reason
(11 R402, R403). -/
def Obligations.ChannelsOpenAndClose : Prop :=
  (∀ (c : CoreId) (w : Word32) (s : State), issues c w s = true → isService c = false → rdOf w = 0 →
    let a := (reads s c (raOf w)).toNat
    let gb := (reads s c (rbOf w)).toNat
    let base := segAddr (scalar s c) (fld w 2 0) a - ownBase c
    let own := fun S : Nat => xlatCore s c c = c.val ∧ checkOwn c (scalar s c) (fld w 2 0) a S S true = none
    let clear := fun (S : Nat) (dg : Bool) => (s.core c).chan.rx.any (fun q =>
      (!dg || q.1 != 16) && overlaps base S q.2.base q.2.size) = false
    let put := fun (r : Nat) (q : RxRing) => Host.Outcome.next (ρ := Refusal) (φ := Fault)
      (retired c (s.updChan c (fun h => h.setRing r q)))
    (fld w 7 3 = 0 → fld w 11 8 = 0 → natBits gb 7 4 ≤ 8 → ringAt s c (natBits gb 3 0) = none →
      let S := 2 ^ (natBits gb 7 4 + 8)
      own S → clear S false →
      (gb < 2 ^ 8 → exec (.rxopen c w) s = put (natBits gb 3 0) { base := base, size := S }) ∧
      (natBit gb 8 = true → natBits gb 15 12 = 0 → gb < 2 ^ 27 → natBits gb 11 9 ≤ 5 → 64 * 2 ^ natBits gb 11 9 ≤ S →
        1 ≤ natBits gb 26 16 → natBits gb 26 16 ≤ 1152 →
        exec (.rxopen c w) s = put (natBits gb 3 0)
          { base := base, size := S, comb := true, slotBytes := 64 * 2 ^ natBits gb 11 9, group := natBits gb 26 16 })) ∧
    (rbOf w = 0 → fld w 7 0 = 0 → ∀ q, a ≤ 16 → ringAt s c a = some q →
      ∃ t, exec (.rxclose c w) s = .next t ∧ ringAt t c a = none ∧
        t.msgs = s.msgs ++ (match q.bound with | some (src, ch) => [⟨c, src, .closeNotice ch⟩] | none => []) ∧
        (∀ r, r ≠ a → ringAt t c r = ringAt s c r) ∧ (scalar t c).g = (scalar s c).g ∧ meshFrame [c.val] s t) ∧
    (rbOf w = 0 → fld w 7 0 = 0 → ∀ q, a < 16 → chanAt s c a = some q → q.isOpen = true → q.broken = false →
      ∃ t, exec (.chclose c w) s = .next t ∧ chanAt t c a = none ∧
        t.msgs = s.msgs ++ [⟨c, q.dst, .endMarker a q.ring⟩] ∧ (∀ i, i ≠ a → chanAt t c i = chanAt s c i) ∧
        (scalar t c).g = (scalar s c).g ∧ meshFrame [c.val] s t) ∧
    (fld w 7 3 = 0 →
      (gb = 0 → exec (.dgring c w) s = .next (retired c (s.updChan c (fun h => h.dropRing 16)))) ∧
      (16 ≤ gb → gb < 25 → own (2 ^ (gb - 16 + 8)) → clear (2 ^ (gb - 16 + 8)) true →
        exec (.dgring c w) s = put 16 { base := base, size := 2 ^ (gb - 16 + 8) }))) ∧
  (∀ (c : CoreId) (w : Word32) (s : State), issues c w s = true → isService c = false → fld w 7 1 = 0 →
    let dst := (reads s c (raOf w)).toNat
    let ring := (reads s c (rbOf w)).toNat
    let opening := fun p : Nat × SendChan => !p.2.isOpen && !p.2.broken && p.2.dst == dst && p.2.ring == ring
    xlatCore s c dst = dst → dst ≤ 1151 → ring < 16 →
    (∀ i, (s.core c).chan.tx.find? opening = none → (s.core c).chan.freeSend = some i →
      ∃ t, exec (.chopen c w) s = .next t ∧ (t.core c).wait = .retry ∧
        chanAt t c i = some { dst := dst, ring := ring } ∧
        t.msgs = s.msgs ++ [⟨c, dst, .openReq i ring (scalar s c).stage.toNat (scalar s c).ctx⟩] ∧
        (scalar t c).pc = (scalar s c).pc ∧ meshFrame [c.val] s t) ∧
    (∀ (i : Nat) (q : SendChan), (s.core c).chan.tx.find? opening = some (i, q) → q.reply = some 0 →
      ∃ t, exec (.chopen c w) s = .next t ∧ chanAt t c i = some { q with isOpen := true, reply := none } ∧
        (t.core c).wait = .none ∧ (rdOf w ≠ 0 → mget (scalar t c).g (rdOf w) 0 = BitVec.ofNat 64 i) ∧
        gBut c [rdOf w] s t ∧ onlyCore c s t) ∧
    (∀ (i r : Nat) (q : SendChan), (s.core c).chan.tx.find? opening = some (i, q) → q.reply = some r → r ≠ 0 →
      natBit w.toNat 0 = true →
      ∃ t, exec (.chopen c w) s = .next t ∧ chanAt t c i = none ∧
        (rdOf w ≠ 0 → mget (scalar t c).g (rdOf w) 0 = BitVec.ofNat 64 (2 ^ 63 + r)) ∧ onlyCore c s t))

/-- `chsend` on an open channel with room: one message of 8-byte header and payload at the position T mod size, T and the
sequence number advance; the payload comes from the core's own scratchpad (11 R397, R404). -/
def Obligations.ChannelSendPlacesMessage : Prop :=
  ∀ (c : CoreId) (w : Word32) (q : SendChan) (s : State), issues c w s = true → isService c = false → fld w 7 3 = 0 →
    let i := (reads s c (rdOf w)).toNat
    let o := (reads s c (raOf w)).toNat
    let gb := (reads s c (rbOf w)).toNat
    let u := natBits gb 8 0
    let L := 8 * (u + 1)
    i < 16 → chanAt s c i = some q → q.isOpen = true → q.broken = false → natBits gb 15 9 = 0 → gb < 2 ^ 32 →
    L ≤ q.size → q.T % q.size + L ≤ q.size → q.T + L - q.H ≤ q.size → ownOperand c (fld w 2 0) o (8 * u) 8 false s = true →
    ∃ t, exec (.chsend c w .clean) s = .next t ∧
      t.msgs = s.msgs ++ [⟨c, q.dst, .message i q.ring (q.T % q.size)
        (leBytes 8 (natBits gb 31 16 * 2 ^ 48 + c * 2 ^ 32 + (u + 1) * 2 ^ 16 + q.seq % 2 ^ 16) ++
          s.bytes (segAddr (scalar s c) (fld w 2 0) o) (8 * u)) false⟩] ∧
      chanAt t c i = some { q with T := q.T + L, seq := (q.seq + 1) % 2 ^ 16 } ∧
      (∀ j, j ≠ i → chanAt t c j = chanAt s c j) ∧ (t.core c).wait = .none ∧ (scalar t c).g = (scalar s c).g ∧
      meshFrame [c.val] s t

/-- Receiving: `chrecv` returns the offset, length and poison of the head entry, the ended mark, or, with the no-wait bit
and nothing there, bit 63, and without that bit waits; `chdone` consumes the head and tells the bound sender; `chsel` returns the lowest ring of
its mask that offers something (11 R398-R400). -/
def Obligations.ChannelReceiveReturns : Prop :=
  ∀ (c : CoreId) (w : Word32) (s : State), issues c w s = true → isService c = false →
    let a := (reads s c (raOf w)).toNat
    let out := fun v : Nat => Host.Outcome.next (ρ := Refusal) (φ := Fault) (wroteG c (rdOf w) (BitVec.ofNat 64 v) s)
    (∀ q, a ≤ 16 → ringAt s c a = some q → q.comb = false → q.failed = false →
      (rbOf w = 0 → fld w 7 1 = 0 →
        (∀ (e : RxEntry) (l : List RxEntry), q.entries = e :: l → e.skip = false →
          exec (.chrecv c w) s = out (e.off + e.len8 * 2 ^ 32 + (if e.poison then 2 ^ 61 else 0))) ∧
        (q.entries = [] → q.endMark = true → exec (.chrecv c w) s = out (2 ^ 62)) ∧
        (q.entries = [] → q.endMark = false → natBit w.toNat 0 = true → exec (.chrecv c w) s = out (2 ^ 63)) ∧
        (q.entries = [] → q.endMark = false → natBit w.toNat 0 = false → exec (.chrecv c w) s = .next (waits c .retry s))) ∧
      (rdOf w = 0 → rbOf w = 0 → fld w 7 0 = 0 → ∀ (e : RxEntry) (l : List RxEntry), q.entries = e :: l → e.skip = false →
        ∃ t, exec (.chdone c w) s = .next t ∧ ringAt t c a = some { q with entries := l, H := q.H + 8 * e.len8 } ∧
          t.msgs = s.msgs ++ (match q.bound with
            | some (src, ch) => [⟨c, src, .space ch (q.H + 8 * e.len8)⟩] | none => []) ∧
          (scalar t c).g = (scalar s c).g ∧ meshFrame [c.val] s t)) ∧
    (rbOf w = 0 → fld w 7 1 = 0 → a < 2 ^ 17 →
      let offers := fun r : Nat => match ringAt s c r with | some q => ringOffer q != .nothing | none => false
      (∀ r, r < 17 → natBit a r = true → offers r = true → (∀ j, j < r → natBit a j = true → offers j = false) →
        exec (.chsel c w) s = out r) ∧
      ((∀ r, r < 17 → natBit a r = true → offers r = false) → natBit w.toNat 0 = true →
        exec (.chsel c w) s = out (2 ^ 63)))

/-- Sends to several cores: a datagram goes to its target, or to every core its descriptor selects, with the sender's
sequence number, and the instruction waits; once every target has answered it completes with the counts and the lowest
refusal in g[rd], and at once with 0 where the descriptor selects no core; it waits while a send of another instruction is
unanswered; `mcwr` posts one write for each target and completes; `cbsend` gives a well-formed contribution to its own
router and completes (11 R412, R414-R418, 10 R371, R376). -/
def Obligations.GroupSendsReachTargets : Prop :=
  ∀ (c : CoreId) (w : Word32) (s : State), issues c w s = true →
    let k := s.core c
    let d := (reads s c (rdOf w)).toNat
    let o := (reads s c (raOf w)).toNat
    let gb := (reads s c (rbOf w)).toNat
    let a := segAddr (scalar s c) (fld w 2 0) o
    let here := fun r : DgRec => r.pc = k.sc.pc ∧ r.handle = k.sc.code.handle
    let u := natBits gb 20 12
    let answered := fun r : DgRec => r.targets.all (fun p => p.2.isSome) = true
    let free := k.chan.dgRec = none ∨ ∃ r, k.chan.dgRec = some r ∧ answered r ∧ ¬here r
    let sends := fun (o' : Host.Outcome State Fault Refusal) (ts : List Nat) =>
      (free → ts ≠ [] → ∃ t, o' = .next t ∧ (t.core c).wait = .retry ∧
        t.msgs = s.msgs ++ ts.map (fun x => ⟨c, x, .datagram k.chan.dgSeq (natBits gb 47 32) (s.bytes a (8 * u)) (kernelCtx k)⟩) ∧
        (t.core c).chan.dgSeq = k.chan.dgSeq + 1 ∧
        (t.core c).chan.dgRec = some ⟨k.sc.pc, k.sc.code.handle, ts.map (fun x => (x, none))⟩ ∧ meshFrame [c.val] s t) ∧
      (∀ r, k.chan.dgRec = some r → ¬answered r → o' = .next (waits c .retry s))
    let completes := fun (o' : Host.Outcome State Fault Refusal) (v seq : Nat) =>
      ∃ t, o' = .next t ∧ (t.core c).chan.dgRec = none ∧ (t.core c).wait = .none ∧
        (t.core c).chan.dgSeq = k.chan.dgSeq + BitVec.ofNat 16 seq ∧
        (rdOf w ≠ 0 → mget (scalar t c).g (rdOf w) 0 = BitVec.ofNat 64 v) ∧ gBut c [rdOf w] s t ∧ onlyCore c s t
    (fld w 7 3 = 0 → natBit gb 11 = false → natBits gb 31 21 = 0 → gb < 2 ^ 48 →
      ownOperand c (fld w 2 0) o (8 * u) 8 false s = true →
      (natBits gb 10 0 ≤ 1155 →
        sends (exec (.dgsend c w .clean) s) [xlatCore s c (natBits gb 10 0)] ∧
        (∀ r, k.chan.dgRec = some r → here r → answered r →
          completes (exec (.dgsend c w .clean) s) (dgResult r.targets) 0)) ∧
      (natBits gb 10 0 = 0 → descOk d = true →
        sends (exec (.dgsendm c w .clean) s) ((descCores d).map (xlatCore s c)) ∧
        (∀ r, k.chan.dgRec = some r → here r → answered r →
          completes (exec (.dgsendm c w .clean) s) (dgResult r.targets) 0) ∧
        (free → descCores d = [] → completes (exec (.dgsendm c w .clean) s) 0 1))) ∧
    (isService c = false → fld w 7 3 = 0 → gb < 2 ^ 33 → 1 ≤ natBits gb 32 20 → natBits gb 32 20 ≤ 4096 → descOk d = true →
      ownOperand c (fld w 2 0) o (natBits gb 32 20) 1 false s = true →
      ∃ t, exec (.mcwr c w .clean) s = .next t ∧ (t.core c).wait = .none ∧
        t.mcs = s.mcs ++ (descCores d).map (fun x => ⟨c, xlatCore s c x, natBits gb 19 0, s.bytes a (natBits gb 32 20),
          k.sc.ctx, (s.reqs.filter (fun r => r.src == c.val && r.home == .spad (xlatCore s c x))).length⟩) ∧
        (t.core c).unacked = k.unacked + (descCores d).length ∧ (scalar t c).g = (scalar s c).g ∧ meshFrame [c.val] s t) ∧
    (isService c = false → rdOf w = 0 → rbOf w = 0 → fld w 7 3 = 0 → o % 32 = 0 →
      let h := (readCombHdr (s.bytes a 32) k.sc.ctx k.det).1
      let ok := (readCombHdr (s.bytes a 32) k.sc.ctx k.det).2
      ownOperand c (fld w 2 0) o 32 8 false s = true → ownOperand c (fld w 2 0) o (32 + h.n * h.size) 8 false s = true →
      combRefused h ok c = false →
      ∃ t, exec (.cbsend c w .clean) s = .next t ∧ (t.core c).wait = .none ∧
        t.combs = s.combs ++ [⟨c, c, h, combWords h (s.bytes (a + 32) (h.n * h.size))⟩] ∧ t.mcs = s.mcs ∧
        (scalar t c).g = (scalar s c).g ∧ meshFrame [c.val] s t)

/-- The arrivals of channel messages: an open request is bound when the target runs the context, its stage is above the
sender's and the ring is free, and is answered; answers, space, end marks and close notices change the channel they
name; a message's bytes are written at its position and become the ring's last entry (11 R398, R401-R406). A datagram
accepted by its target without wrapping is written behind an 8-byte header at T mod size, sets the target's ip_dgram,
and is answered 0; without a ring it is answered 2; the answer is recorded at the sender (11 R413-R415). An arrival of
which the mesh's checks found something is that of a clean packet after what the checks do: count, record and raise it
(10 R385); that a poisoned packet without a payload still acts is the model's (log entry 56). -/
def Obligations.MessageArrivalsTakeEffect : Prop :=
  (∀ (src dst : TileId) (rest : List Msg) (s : State), MemOk s →
    let ring := fun (t : State) (r : Nat) => ringAt t dst r
    (∀ (ch r stage : Nat) (x : BitVec 4) (q : RxRing), arrives src dst (.openReq ch r stage x) rest s →
      runsCtx s dst x = true → stage < (scalar s dst).stage.toNat → ring s r = some q → q.comb = false → q.bound = none →
      q.endMark = false →
      ∃ t, exec (.openRequestArrival src ⟨dst, .clean⟩) s = .next t ∧ ring t r = some { q with bound := some (src.val, ch) } ∧
        t.msgs = rest ++ [⟨dst, src, .openReply ch 0 q.size⟩] ∧ meshFrame [dst.val] s t) ∧
    (∀ (ch r stage : Nat) (x : BitVec 4), arrives src dst (.openReq ch r stage x) rest s →
      runsCtx s dst x = false ∨ (scalar s dst).stage.toNat ≤ stage →
      ∃ t, exec (.openRequestArrival src ⟨dst, .clean⟩) s = .next t ∧ t.msgs = rest ++
        [⟨dst, src, .openReply ch (if runsCtx s dst x then 1 else 3) 0⟩] ∧ ring t r = ring s r ∧ meshFrame [dst.val] s t) ∧
    (∀ (ch reason size : Nat) (q : SendChan), arrives src dst (.openReply ch reason size) rest s →
      ((ch, src.val) ∈ (s.core dst).staleOpens → ∃ t, exec (.openReplyArrival src ⟨dst, .clean⟩) s = .next t ∧
        t.msgs = rest ∧ (t.core dst).staleOpens = (s.core dst).staleOpens.erase (ch, src.val) ∧
        (t.core dst).chan = (s.core dst).chan ∧ onlyCore dst s t) ∧
      ((ch, src.val) ∉ (s.core dst).staleOpens → chanAt s dst ch = some q →
        ∃ t, exec (.openReplyArrival src ⟨dst, .clean⟩) s = .next t ∧ t.msgs = rest ∧
          chanAt t dst ch = some { q with reply := some reason, size := size } ∧ onlyCore dst s t)) ∧
    (∀ (ch H : Nat) (q : SendChan), arrives src dst (.space ch H) rest s → chanAt s dst ch = some q →
      ∃ t, exec (.spaceUpdateArrival src ⟨dst, .clean⟩) s = .next t ∧ t.msgs = rest ∧
        chanAt t dst ch = some (if q.isOpen = true ∧ q.dst = src.val then { q with H := H } else q) ∧
        onlyCore dst s t) ∧
    (∀ (ch r : Nat) (q : RxRing), arrives src dst (.endMarker ch r) rest s → ring s r = some q →
      q.bound = some (src.val, ch) →
      ∃ t, exec (.endMarkerArrival src ⟨dst, .clean⟩) s = .next t ∧ t.msgs = rest ∧
        ring t r = some { q with endMark := true, bound := none } ∧ onlyCore dst s t) ∧
    (∀ (ch : Nat) (q : SendChan), arrives src dst (.closeNotice ch) rest s → chanAt s dst ch = some q → q.dst = src.val →
      q.isOpen = true ∨ q.reply = some 0 →
      ∃ t, exec (.closeNoticeArrival src ⟨dst, .clean⟩) s = .next t ∧ t.msgs = rest ∧ chanAt t dst ch = some { q with broken := true } ∧
        onlyCore dst s t) ∧
    (∀ (ch r pos : Nat) (bytes : List Byte) (skip : Bool) (q : RxRing), arrives src dst (.message ch r pos bytes skip) rest s →
      ring s r = some q → q.failed = false → q.bound = some (src.val, ch) →
      q.base + pos + bytes.length ≤ 0x10_0000 →
      ∃ t, exec (.messageArrival src dst .clean) s = .next t ∧ t.msgs = rest ∧
        t.bytes (ownBase dst + q.base + pos) bytes.length = bytes ∧
        bytesKept (ownBase dst + q.base + pos) bytes.length s t ∧
        ring t r = some { q with entries := q.entries ++ [⟨q.base + pos, leAt bytes 2 2 % 2 ^ 13, skip, false⟩] } ∧
        t.regs = s.regs ∧ coresBut [dst.val] s t) ∧
    (∀ (ch r pos : Nat) (bytes : List Byte) (skip : Bool) (tr : Transit),
      arrives src dst (.message ch r pos bytes skip) rest s → ring s r = none →
      ∃ t, exec (.messageArrival src dst tr) s = .next t ∧ t.msgs = rest ∧ t.flag F.mshEvtStat_ctx_drop = true ∧
        t.get F.mshDropCnt_ctx_drop = min F.mshDropCnt_ctx_drop.max (s.get F.mshDropCnt_ctx_drop + 1) ∧
        memKept s t ∧ coresBut [] s t) ∧
    (∀ m : Transit,
      let same := fun i : Transit → Instr => exec (i m) s = exec (i .clean) (transit m s).1
      (∀ (ch r stage : Nat) (x : BitVec 4), arrives src dst (.openReq ch r stage x) rest s →
        same (fun m => .openRequestArrival src ⟨dst, m⟩)) ∧
      (∀ ch reason size : Nat, arrives src dst (.openReply ch reason size) rest s → same (fun m => .openReplyArrival src ⟨dst, m⟩)) ∧
      (∀ ch H : Nat, arrives src dst (.space ch H) rest s → same (fun m => .spaceUpdateArrival src ⟨dst, m⟩)) ∧
      (∀ ch r : Nat, arrives src dst (.endMarker ch r) rest s → same (fun m => .endMarkerArrival src ⟨dst, m⟩)) ∧
      (∀ ch : Nat, arrives src dst (.closeNotice ch) rest s → same (fun m => .closeNoticeArrival src ⟨dst, m⟩)))) ∧
  (∀ (n : TileId) (sub : Byte) (s : State),
    let found := fun (m : Transit) (sev op : Nat) (bit cnt : Fld) (poison : Bool) => ∃ t, transit m s = (t, poison) ∧
      t.flag bit = true ∧ t.get cnt = min cnt.max (s.get cnt + 1) ∧
      oneRecord sev (unitId 4 (coreXY n) sub.toNat) op [] s t ∧ coresBut [] s t ∧ memKept s t
    found (.corrected n sub) 1 1 F.mshEvtStat_link_ce F.mshErrcnt_ce false ∧
    found (.poisoned n sub) 2 3 F.mshEvtStat_link_ue F.mshErrcnt_ue true) ∧
  ((∀ (src dst : CoreId) (seq : BitVec 16) (tag : Nat) (p : List Byte) (x : Option (BitVec 4)) (rest : List Msg) (s : State),
    arrives src dst (.datagram seq tag p x) rest s → MemOk s → dgAccepts s src dst x = true →
    (∀ q, ringAt s dst 16 = some q →
      let L := p.length + 8
      let a := ownBase dst + q.base + q.T % q.size
      q.T % q.size + L ≤ q.size → q.T + L - q.H ≤ q.size → q.base + q.size ≤ 0x10_0000 →
      ∃ t, exec (.datagramArrival src dst .clean) s = .next t ∧ t.msgs = rest ++ [⟨dst, src, .dgAnswer 0⟩] ∧
        t.bytes a L = entryHeader tag src (L / 8) seq.toNat true false false ++ p ∧ bytesKept a L s t ∧
        ringAt t dst 16 = some { q with
          T := q.T + L, entries := q.entries ++ [⟨q.base + q.T % q.size, L / 8, false, false⟩] } ∧
        natBit (scalar t dst).ip.toNat 1 = true ∧ regsBut [.mshMonFlits] s t ∧ coresBut [dst.val] s t) ∧
    (ringAt s dst 16 = none → ∃ t, exec (.datagramArrival src dst .clean) s = .next t ∧
      t.msgs = rest ++ [⟨dst, src, .dgAnswer 2⟩] ∧ meshFrame [dst.val] s t)) ∧
  (∀ (src dst : CoreId) (reason : Nat) (rest : List Msg) (r : DgRec) (s : State),
    arrives src dst (.dgAnswer reason) rest s → (s.core dst).chan.dgRec = some r →
    ∃ t, exec (.datagramAnswerArrival src ⟨dst, .clean⟩) s = .next t ∧ t.msgs = rest ∧
      (t.core dst).chan.dgRec = some { r with
        targets := r.targets.map (fun p => if p.1 = src.val ∧ p.2 = none then (p.1, some reason) else p) } ∧
      onlyCore dst s t))

/-- Multicast writes and combines in the routers and queues: a target's copy waits for what its sender sent there before it,
and is written where its context runs and dropped elsewhere, and acknowledged; a contribution merges with the entry of its key under free order; an entry leaves when its
hold ends, and a deterministic one, order lost, when its limit passes; a delivery that completes its group makes the slot
ready (10 R373, R378-R384, 11 R407-R409). -/
def Obligations.CombinesMergeAndDeliver : Prop :=
  (∀ (src : CoreId) (dst : TileId) (m : McWrite) (rest : List McWrite) (s : State), MemOk s →
    takeFirst (fun m : McWrite => m.src == src.val && m.dst == dst.val) s.mcs = some (m, rest) →
    (m.after ≠ 0 → exec (.multicastWriteArrival src dst .clean {}) s = .next s) ∧
    (m.after = 0 →
    let a := ownBase dst + m.off
    (runsCtx s dst m.ctx = true → m.off + m.data.length ≤ 0x10_0000 →
      (granules a m.data.length).all (fun g => decide (g ∉ s.bad)) = true →
      ∃ t, exec (.multicastWriteArrival src dst .clean {}) s = .next t ∧ t.mcs = rest ∧
        t.bytes a m.data.length = m.data ∧ bytesKept a m.data.length s t ∧ t.acks = s.acks ++ [⟨src, true, .spad dst, none, nextPlace s (.spad dst) src⟩] ∧
        regsBut [.mshMonFlits] s t ∧ t.cores = s.cores) ∧
    (runsCtx s dst m.ctx = false → ∃ t, exec (.multicastWriteArrival src dst .clean {}) s = .next t ∧ t.mcs = rest ∧
      memKept s t ∧ t.acks = s.acks ++ [⟨src, true, .spad dst, none, nextPlace s (.spad dst) src⟩] ∧ t.flag F.mshEvtStat_ctx_drop = true ∧
      t.cores = s.cores))) ∧
  (∀ (r src : TileId) (p : CombPkt) (i : Nat) (e : CombEntry) (h0 : CombHdr) (w0 : List Word32) (rest : List CombPkt)
      (s : State),
    takeFirst (fun p : CombPkt => p.src == src.val && p.dst == r.val) s.combs = some (p, rest) →
    s.combEntries = [((r.val, i), e)] → e.hdr.sameKey p.hdr = true → p.hdr.det = false → e.inputs = [(0, h0, w0)] →
    let h := hdrMerge h0 p.hdr
    e.hdr.det = false → h.count < e.k → e.hold ≠ 0 →
    ∃ t, exec (.combineArrival r src {}) s = .next t ∧ t.combs = rest ∧
      t.combEntries = [((r.val, i), { e with inputs := [(0, h, combMerge p.hdr w0 p.words)] })] ∧
      h.count = h0.count + p.hdr.count ∧ t.regs = s.regs ∧ t.cores = s.cores ∧ memKept s t) ∧
  (∀ (r : TileId) (i : Fin 32) (bad : Bool) (e : CombEntry) (h : CombHdr) (ws : List Word32) (s : State),
    s.combEntries = [((r.val, i.val), e)] → e.inputs = [(0, h, ws)] → xlatCtx s h.ctx.toNat h.dest = r.val →
    (e.hdr.det = false → ∃ t, exec (.combineHoldExpiry r ⟨i, bad⟩) s = .next t ∧ t.combEntries = [] ∧
      t.rounds = s.rounds ++ [⟨r, r, { h with part := decide (h.count < h.members.length) || h.part }, ws⟩] ∧
      t.cores = s.cores ∧ memKept s t) ∧
    (e.hdr.det = true → ∃ t, exec (.detWaitExpiry r ⟨i, bad⟩) s = .next t ∧ t.combEntries = [] ∧
      t.rounds = s.rounds ++
        [⟨r, r, { h with orderLost := true, part := decide (h.count < h.members.length) || h.part }, ws⟩] ∧
      t.flag F.mshEvtStat_det_timeout = true ∧
      t.get F.mshCmbCnt_timeouts = min F.mshCmbCnt_timeouts.max (s.get F.mshCmbCnt_timeouts + 1) ∧
      t.cores = s.cores ∧ memKept s t)) ∧
  (∀ (dst : TileId) (p : CombPkt) (rest : List CombPkt) (q : RxRing) (s : State), MemOk s →
    takeFirst (fun p : CombPkt => p.dst == dst.val) s.rounds = some (p, rest) → runsCtx s dst p.hdr.ctx = true →
    ringAt s dst (p.hdr.tag % 16) = some q → q.comb = true → q.failed = false → p.hdr.members.length = q.group →
    4 * p.hdr.n ≤ q.slotBytes - 32 → q.slots = [] → p.hdr.poison = false → p.hdr.count = q.group →
    q.base + q.size ≤ 0x10_0000 →
    let u := p.hdr.tag / 16
    let x : CombSlot := { round := u, hdr := p.hdr, words := readyWords p.hdr true p.words, ready := true }
    ∃ t, exec (.combineDelivery ⟨dst, .clean⟩) s = .next t ∧ t.rounds = rest ∧
      ringAt t dst (p.hdr.tag % 16) = some { q with slots := [(u % (q.size / q.slotBytes), x)] } ∧
      t.regs = s.regs ∧ coresBut [dst.val] s t)

/-! ## Atomics and sync objects (12) -/

/-- An atomic at core scope on a clean location of the core's own scratchpad: the location takes the function's value,
g[rd] the old value sign-extended, and nothing else changes (12 R438, R439). One that waits for another home retires
with its answer. -/
def Obligations.AtomicsUpdateLocation : Prop :=
  (∀ (c : CoreId) (w : Word32) (s : State), issues c w s = true → MemOk s → quiet c s = true → fld w 1 0 = 0 →
    inReserve (segAddr (scalar s c) (fld w 4 2) (reads s c (raOf w)).toNat) = false →
    let n := if fld w 11 8 = 9 then 8 else 4
    let a := segAddr (scalar s c) (fld w 4 2) (reads s c (raOf w)).toNat
    let old := BitVec.ofNat (8 * n) (ofLeBytes (s.bytes a n))
    let b := BitVec.ofNat (8 * n) (reads s c (rbOf w)).toNat
    let cmp := BitVec.ofNat (8 * n) (reads s c (rdOf w)).toNat
    checkAmo c (scalar s c) (fld w 4 2) (reads s c (raOf w)).toNat n = none → ownClean c a n s = true →
    (s.get F.mirStat_state ≠ 3) → (s.get F.mirStat_state ≠ 4) →
    let does := fun (o : Host.Outcome State Fault Refusal) (v : BitVec (8 * n)) =>
      ∃ t, o = .next t ∧ t.bytes a n = leBytes n v.toNat ∧ bytesKept a n s t ∧
        (rdOf w ≠ 0 → mget (scalar t c).g (rdOf w) 0 = old.signExtend 64) ∧ gBut c [rdOf w] s t ∧
        (t.core c).wait = .none ∧ t.regs = s.regs ∧ coresBut [c.val] s t
    does (exec (.amoAdd c w .clean) s) (old + b) ∧
    does (exec (.amoSwap c w .clean) s) b ∧
    does (exec (.amoCas c w .clean) s) (if old = cmp then b else old) ∧
    does (exec (.amoAnd c w .clean) s) (old &&& b) ∧
    does (exec (.amoOr c w .clean) s) (old ||| b) ∧
    does (exec (.amoXor c w .clean) s) (old ^^^ b) ∧
    does (exec (.amoMax c w .clean) s) (if old.toInt < b.toInt then b else old) ∧
    does (exec (.amoMin c w .clean) s) (if old.toInt < b.toInt then old else b)) ∧
  (∀ (c : CoreId) (rd : BitVec 5) (n : Nat) (r : Resp) (rest : List Resp) (s : State),
    (s.core c).wait = .atomic rd n 0 → (s.core c).landings = [] →
    takeFirst (fun r => respHere s c r && (match r.kind with | .amo _ _ _ => true | _ => false)) s.resps = some (r, rest) →
    r.bad = false →
    ∃ t, exec (.atomicReturn c) s = .next t ∧ t.resps = rest ∧ (t.core c).wait = .none ∧
      (rd ≠ 0 → mget (scalar t c).g rd.toNat 0 = sext (8 * n) (ofLeBytes r.data)) ∧ gBut c [rd.toNat] s t ∧ onlyCore c s t)

/-- The sync-object instructions of a quiet core whose identifier names an object with the permission: `sig` sends its
increment and retires; `dec`, `sread` and `wait` send their operation and wait for its answer; a `wait` that names its
kept grant takes it and retires (12 R446-R450, R453).
Operations at a sync object: a `sig` adds, a `dec` subtracts, an overflow or underflow leaves the count and sets its
event bit and counter, a blocking wait that the count covers is granted and lowers it, one it does not cover queues, a
read answers the count; and what answers and grants do at the core: a grant that crossed a withdrawal is kept, or given
back by a `sig` (12 R447, R450-R454). -/
def Obligations.SyncObjectsCount : Prop :=
  (∀ (c : CoreId) (w : Word32) (s : State), issues c w s = true → isService c = false → fld w 1 0 = 0 →
    let id := (reads s c (raOf w)).toNat
    let n := (reads s c (rbOf w)).toNat
    let e := (mget (s.core c).vtab id 0).toNat
    let p := e % 4096
    id < 1024 → n < 2 ^ 32 → natBit e 31 = true →
    let sends := fun (o : Host.Outcome State Fault Refusal) (k : SyncKind) (wt : Wait) =>
      ∃ t, o = .next t ∧ t.syncOps = s.syncOps ++ [⟨c, p, k, id, false⟩] ∧ (t.core c).wait = wt ∧
        (scalar t c).g = (scalar s c).g ∧ meshFrame [c.val] s t
    let rd := BitVec.ofNat 5 (rdOf w)
    (quiet c s = true →
      (rdOf w = 0 → fld w 7 2 = 0 → natBit e 30 = true → sends (exec (.sig c ⟨w, .clean⟩) s) (.sig n) .none) ∧
      (rdOf w = 0 → fld w 7 2 = 0 → natBit e 29 = true → sends (exec (.dec c w) s) (.dec n) (.sync 0 0)) ∧
      (rbOf w = 0 → fld w 7 2 = 0 → natBit e 28 = true → sends (exec (.sread c w) s) .read (.sync rd 0)) ∧
      (fld w 7 2 = 1 → natBit e 29 = true → sends (exec (.wait c w) s) (.wait n true) (.sync rd 0)) ∧
      (rdOf w = 0 → fld w 7 2 = 0 → natBit e 29 = true → sends (exec (.wait c w) s) (.wait n false) (.grant 0 0))) ∧
    (rdOf w = 0 → fld w 7 2 = 0 → natBit e 29 = true → (s.core c).kept = some (id, p, n) →
      (s.core c).deferredOvf = false →
      exec (.wait c w) s = .next (retired c (s.updCore c (fun k => { k with kept := none }))))) ∧
  ((∀ (p : ObjId) (a : WaiterId) (o : SyncOp) (rest : List SyncOp) (s : State), a.val < 1156 → o.agent = a.val →
    o.obj = p.val → o.orphan = false → takeFirst (fun o => o.agent == a.val && unitOf o.obj == unitOf p.val) s.syncOps = some (o, rest) →
    let v := s.get F.synCnt_count p.val
    let waitq := mget s.waiters p.val []
    let does := fun (P : State → Prop) => ∃ t, exec (.syncOpArrival p [⟨a, .clean⟩]) s = .next t ∧ t.syncOps = rest ∧
      t.cores = s.cores ∧ memKept s t ∧ (∀ q, q ≠ p.val → t.get F.synCnt_count q = s.get F.synCnt_count q) ∧ P t
    (∀ n, o.kind = .sig n → v + n < 2 ^ 31 → waitq = [] →
      does (fun t => t.get F.synCnt_count p.val = v + n ∧ t.syncAns = s.syncAns ∧ regsBut [.synCnt, .mshMonFlits] s t)) ∧
    (∀ n, o.kind = .sig n → 2 ^ 31 ≤ v + n → waitq = [] →
      does (fun t => t.get F.synCnt_count p.val = v ∧ t.flag F.synEvtStat_overflow = true ∧
        t.get F.synErrcnt_overflow = min F.synErrcnt_overflow.max (s.get F.synErrcnt_overflow + 1) ∧
        t.syncAns = s.syncAns ++ [⟨a, p, .sig n, 0, true, o.id, .used, false⟩])) ∧
    (∀ n, o.kind = .dec n → n ≤ v → n < 2 ^ 31 → waitq = [] →
      does (fun t => t.get F.synCnt_count p.val = v - n ∧ t.syncAns = s.syncAns ++ [⟨a, p, .dec n, 0, false, o.id, .used, false⟩])) ∧
    (∀ n, o.kind = .wait n false → 1 ≤ n → n < 2 ^ 31 → waitq = [] →
      does (fun t => if n ≤ v then t.get F.synCnt_count p.val = v - n ∧ mget t.waiters p.val [] = [] ∧
          t.syncAns = s.syncAns ++ [⟨a, p, .wait n false, 1, false, o.id, .used, false⟩]
        else t.get F.synCnt_count p.val = v ∧ mget t.waiters p.val [] = [(a.val, n, o.id)] ∧ t.syncAns = s.syncAns)) ∧
    (o.kind = .read → waitq = [] → does (fun t => t.get F.synCnt_count p.val = v ∧
      t.syncAns = s.syncAns ++ [⟨a, p, .read, v, false, o.id, .used, false⟩]))) ∧
  (∀ (c : CoreId) (rd : BitVec 5) (r : SyncAns) (rest : List SyncAns) (s : State), (s.core c).wait = .sync rd 0 →
    r.kind = .read → takeFirst (fun r => r.agent == c.val && !r.isGrant && r.leads s) s.syncAns = some (r, rest) →
    (r.orphan = false → (s.core c).landings = [] →
      ∃ t, exec (.syncAnswerArrival ⟨c, .clean⟩) s = .next t ∧ t.syncAns = rest ∧ (t.core c).wait = .none ∧
        (rd ≠ 0 → mget (scalar t c).g rd.toNat 0 = BitVec.ofNat 64 r.value) ∧ gBut c [rd.toNat] s t ∧ onlyCore c s t) ∧
    (r.orphan = true → exec (.syncAnswerArrival ⟨c, .clean⟩) s = .next { s with syncAns := rest })) ∧
  (∀ (a : WaiterId) (r : SyncAns) (n : Nat) (rest : List SyncAns) (s : State), a.val < 1152 → r.kind = .wait n false →
    takeFirst (fun r => r.agent == a.val && r.isGrant && r.leads s) s.syncAns = some (r, rest) →
    (∀ rd : BitVec 5, (s.core a.val).wait = .grant rd 0 → r.fate = .used → (s.core a.val).landings = [] →
      ∃ t, exec (.syncGrantArrival ⟨a, .clean⟩) s = .next t ∧ t.syncAns = rest ∧ (t.core a.val).wait = .none ∧
        (scalar t a.val).g = (scalar s a.val).g ∧ onlyCore a.val s t) ∧
    (r.fate = .kept →
      ∃ t, exec (.syncGrantArrival ⟨a, .clean⟩) s = .next t ∧ t.syncAns = rest ∧ (t.core a.val).kept = some (r.id, r.obj, n) ∧
        onlyCore a.val s t) ∧
    (r.fate = .returned →
      ∃ t, exec (.syncGrantArrival ⟨a, .clean⟩) s = .next t ∧ t.syncAns = rest ∧
        t.syncOps = s.syncOps ++ [⟨a, r.obj, .sig n, 0, false⟩] ∧ meshFrame [a.val] s t)))

/-! ## Fences, caches and homes (08, 12 R425-R432, 09 R331) -/

/-- Fences and cache control of a quiet core: a fence at core scope and one at any chip scope with no line held retire;
`dc.inv` drops its line, `dc.clean` keeps it clean, `dc.flush` and `dc.all` drop clean lines, `ic.all` empties the
instruction cache, `pf` of a line held changes nothing; own-scratchpad addresses are no-ops (08 R322, R323, 12 R428-R432).
A fill that arrives for a line without held stores enters an empty set of the data cache clean, with the bytes that
came, and frees its register; an acknowledgement lowers the count of unaccepted writes; a sweep of good words changes
nothing but the row it reads next (08 R300, R301, R316, R678). -/
def Obligations.FencesAndCachesActOnLines : Prop :=
  (∀ (c : CoreId) (w : Word32) (e : Ecc) (s : State), issues c w s = true → quiet c s = true →
    let g := (scalar s c).sgm (fld w 2 0)
    let o := (reads s c (raOf w)).toNat
    let l := segAddr (scalar s c) (fld w 2 0) o / 64
    let plainLine := rdOf w = 0 ∧ rbOf w = 0 ∧ fld w 7 3 = 0
    let readOk := checkSeg (scalar s c) (fld w 2 0) o 1 1 false = none
    let held := fun (t : State) (x : Nat) => (t.core c).dcache.lines.filter (fun y => y.addr == x)
    (fld w 26 12 = 0 → fld w 7 6 = 0 → (fld w 5 5 = 0 ∨ fld w 4 2 = 0) → fld w 1 0 ≤ 2 →
      (fld w 1 0 = 0 ∨ (s.core c).dcache.lines = []) →
      exec (.fenceRel c ⟨w, e⟩) s = .next (retired c s) ∧
      (∀ o', o' = exec (.fenceAcq c ⟨w, e⟩) s ∨ o' = exec (.fenceAr c ⟨w, e⟩) s → ∃ t, o' = .next t ∧ (t.core c).wait = .none ∧
        (t.core c).dcache.lines = (s.core c).dcache.lines ∧ (scalar t c).g = (scalar s c).g ∧ onlyCore c s t)) ∧
    (plainLine → g.cls ≠ 0 →
      (checkSeg (scalar s c) (fld w 2 0) o 1 1 true = none →
        ∃ t, exec (.dcInv c w) s = .next t ∧ held t l = [] ∧ (∀ x, x ≠ l → held t x = held s x) ∧ onlyCore c s t) ∧
      (readOk → (s.core c).maint = [] →
        (∃ t, exec (.dcClean c ⟨w, e⟩) s = .next t ∧ (t.core c).wait = .none ∧
          (t.core c).dcache.lines = (s.core c).dcache.lines ∧ onlyCore c s t) ∧
        (∃ t, exec (.dcFlush c ⟨w, e⟩) s = .next t ∧ (t.core c).wait = .none ∧ held t l = [] ∧
          (∀ x, x ≠ l → held t x = held s x) ∧ onlyCore c s t)) ∧
      (readOk → ((s.core c).dcache.find l).isSome = true → exec (.pf c w) s = .next (retired c s))) ∧
    (plainLine → g.cls = 0 → readOk → exec (.dcClean c ⟨w, e⟩) s = .next (retired c s) ∧
      exec (.dcFlush c ⟨w, e⟩) s = .next (retired c s) ∧ exec (.pf c w) s = .next (retired c s)) ∧
    (fld w 26 12 = 0 → fld w 7 2 = 0 → (fld w 1 0 = 0 ∨ fld w 1 0 = 2) → (s.core c).maint = [] →
      ∃ t, exec (.dcAll c ⟨w, e⟩) s = .next t ∧ (t.core c).dcache.lines = [] ∧ (t.core c).wait = .none ∧ onlyCore c s t) ∧
    (fld w 26 12 = 0 → fld w 7 0 = 0 → ∃ t, exec (.icAll c w) s = .next t ∧ (t.core c).icache.lines = [] ∧
      (t.core c).icache.lfsr = (s.core c).icache.lfsr ∧ (t.core c).dcache = (s.core c).dcache ∧ onlyCore c s t)) ∧
  ((∀ (c : CoreId) (l : BitVec 42) (r : Resp) (rest : List Resp) (m : Miss) (s : State),
    takeFirst (fun r => respHere s c r && r.kind == .fill && r.addr == 64 * l.toNat) s.resps = some (r, rest) →
    (s.core c).dcache.miss = [m] → m.addr = l.toNat → m.stores = [] → m.prefetch = false → r.bad = false →
    (s.core c).dcache.main = [] → (s.core c).ending = none → (s.core c).wait = .retry →
    ∃ t, exec (.cacheFillArrival c l ⟨false, .clean⟩) s = .next t ∧ t.resps = rest ∧ (t.core c).dcache.miss = [] ∧
      (t.core c).dcache.main.map Prod.snd = [⟨l.toNat, r.data, false, [], m.trusted⟩] ∧
      (t.core c).dcache.main.map (fun p => p.1 / 4) = [cacheSet l.toNat] ∧
      (t.core c).dcache.victim = (s.core c).dcache.victim ∧ (scalar t c) = (scalar s c) ∧ onlyCore c s t) ∧
  (∀ (c : CoreId) (ok : Bool) (h : Home) (line : Option Nat) (place : Nat) (rest : List Ack) (s : State),
    takeFirst (ackHere s c) s.acks = some (⟨c, ok, h, line, place⟩, rest) → (s.core c).ending = none →
    (s.core c).wait = .none →
    ∃ t, exec (.writeAckArrival c) s = .next t ∧ t.acks = rest ∧ (t.core c).unacked = (s.core c).unacked - 1 ∧
      (t.core c).deferredUe = ((s.core c).deferredUe || !ok) ∧ (scalar t c) = (scalar s c) ∧ onlyCore c s t) ∧
  (∀ (c : TileId) (s : State), let row := mget s.sweep c.val 0
    (∀ g, g ∈ s.bad → g < ownBase c + row * 128 ∨ ownBase c + row * 128 + 128 ≤ g) → row < 8192 →
    exec (.sweeperRead c []) s = .next { s with sweep := mput s.sweep c.val ((row + 1) % 8192) }))

/-- A core's oldest request at a home: a read answers the bytes, a write stores them and is acknowledged, and an atomic
answers the old bytes; at a scratchpad, a near-memory controller and a far port alike (08 R302, R303, R319, 09 R331, R345,
12 R439). The mirror is not protected, the port has not failed, and the granules are good. The request waits while its
memory is still being filled, its bank is held for a repair, a retrain slice holds the channel, or a multicast write of the
core to that scratchpad comes first (09 R336, R348, R351, R355, 10 R367). -/
def Obligations.HomesServeRequests : Prop :=
  ∀ (h : Home) (src : CoreId) (r : Req) (rest : List Req) (s : State),
    takeFirst (fun r => r.src == src.val && r.home == h) s.reqs = some (r, rest) → r.src = src.val → r.home = h → MemOk s →
    homeOf s r.addr = h → inReserve r.addr = false → homeDead s r.addr = false →
    s.get F.mirStat_state ≠ 3 → s.get F.mirStat_state ≠ 4 →
    (∀ x, r.addr ≤ x → x < r.addr + r.n → sliced x = sliced r.addr + (x - r.addr) ∧ regionOf (sliced x) = regionOf (sliced r.addr)) →
    (granules r.addr r.n).all (fun g => decide (g ∉ s.bad)) = true →
    let serves := fun P : State → Prop =>
      (∀ k : CoreId, h = .spad k → ∃ t, exec (.scratchpadRemoteAccess k src {}) s = .next t ∧ P t) ∧
      (∀ n : TileId, h = .near n → ∃ t, exec (.nearMemoryRequest n src {}) s = .next t ∧ P t) ∧
      (∀ p : PortId, h = .far p → ∃ t, exec (.farMemoryRequest p src {}) s = .next t ∧ P t)
    let place := nextPlace s h src
    (homeServes s h r.addr = false ∨ mcFirst h src s = true → serves (fun t => t = s)) ∧
    (homeServes s h r.addr = true → mcFirst h src s = false →
      (r.kind = .read ∨ r.kind = .fill ∨ r.kind = .fetch ∨ (∃ u, r.kind = .land u) → serves (fun t => t.reqs = rest ∧
        t.resps = s.resps ++ [⟨src, r.kind, r.addr, s.bytes r.addr r.n, false, h, place⟩] ∧ t.acks = s.acks ∧
        meshFrame [] s t)) ∧
      (r.kind = .write ∨ r.kind = .writeBack [] → r.data.length = r.n → serves (fun t => t.reqs = rest ∧
        t.acks = s.acks ++ [⟨src, true, h, if r.kind = .write then none else some (r.addr / 64), place⟩] ∧ t.bytes r.addr r.n = r.data ∧
        (∀ x, (sliced x < sliced r.addr ∨ sliced r.addr + r.n ≤ sliced x) → t.byte x = s.byte x) ∧
        t.resps = s.resps ∧ regsBut [.mshMonFlits] s t ∧ t.cores = s.cores)) ∧
      (∀ fn a b : Nat, r.kind = .amo fn a b → serves (fun t => t.reqs = rest ∧
        t.resps = s.resps ++ [⟨src, r.kind, r.addr, s.bytes r.addr r.n, false, h, place⟩] ∧
        t.bytes r.addr r.n = leBytes r.n (amoNew fn r.n (ofLeBytes (s.bytes r.addr r.n)) a b) ∧ t.cores = s.cores)))

/-! ## The memories' upkeep (09, 14) -/

/-- Refresh keeps the content. A calibration duty comes due while the port is ready or held, is done while it is ready
(a retrain as eight slices, one channel at a time in its engine, an overdue one first), and is overdue from its deadline
until it ends; the slice that ends lets the next overdue channel of the engine go on (09 R334, R346-R349).
A near and a far repair from the go to its end, with its record (09 R335, R336, R351, 02 R107). -/
def Obligations.CalibrationAndRepairRun : Prop :=
  ∀ s : State,
    (∀ (n : TileId) (b : Fin 16) (p : PortId) (rfm : Bool),
      exec (.nearRefresh n b) s = .next s ∧ exec (.farRefresh p rfm) s = .next s) ∧
    (∀ p : PortId,
      let c := calOf s p
      let cal := fun (o : Host.Outcome State Fault Refusal) (l : List Reg) (d : Cal) (P : State → Prop) =>
        ∃ t, o = .next t ∧ calOf t p = d ∧ (∀ q, q ≠ p.val → calOf t q = calOf s q) ∧
          t.flag F.fmcStat_cal_overdue p = (d.late || d.oscLate) ∧ portState t p = portState s p ∧
          regElse .fmcStat p s t ∧ onlyUpkeep (.fmcStat :: l) s t ∧ P t
      (s.upkeep.selfRefresh = true → ∀ retrain drift : Bool, exec (.calibrationDue p retrain) s = .next s ∧
        exec (.oscTracking p drift) s = .next s ∧ exec (.retrainSlice p) s = .next s) ∧
      (portState s p = 3 ∨ portState s p = 5 → s.upkeep.selfRefresh = false →
        cal (exec (.calibrationDue p true) s) [] { c with slices := if c.slices = 0 then 8 else c.slices } (fun _ => True) ∧
        cal (exec (.calibrationDue p false) s) [] { c with osc := true } (fun _ => True)) ∧
      (portState s p = 3 → c.osc = true → engineElsewhere s p = false → s.upkeep.selfRefresh = false → ∀ drift : Bool, cal (exec (.oscTracking p drift) s) []
        { c with osc := false, oscLate := false, adjusted := c.adjusted + (if drift then 1 else 0) } (fun _ => True)) ∧
      (sliceMayStart s p = true →
        cal (exec (.retrainSlice p) s) [] { c with running := true, lastFrame := some s.frame } (fun _ => True)) ∧
      (sliceMayStart s p = false → exec (.retrainSlice p) s = .next s) ∧
      (c.running = true → c.late = false → p.val ∉ s.upkeep.granted → s.upkeep.late = [] → ∀ (q : Nat) (cut : Bool),
        q / 8 = p.val / 8 → q ≠ p.val → sliceOwed s q = true → 0 < (calOf s q).slices → q ∉ s.upkeep.granted →
        (∀ r, r < 32 → r / 8 = p.val / 8 → r ≠ p.val → (calOf s r).running = false ∧ (r < q → sliceOwed s r = false)) →
        ∃ t, exec (.retrainSliceEnd p cut) s = .next t ∧ (calOf t p).running = false ∧
          calOf t q = { calOf s q with running := true, lastFrame := some s.frame }) ∧
      (c.running = true → 0 < c.slices → p.val ∉ s.upkeep.granted → s.upkeep.late = [] →
        (∀ q, q < 32 → q / 8 = p.val / 8 → sliceOwed s q = false) → ∀ cut : Bool,
        let n := if cut then c.slices else c.slices - 1
        cal (exec (.retrainSliceEnd p cut) s) [.fmcCalStat]
          { c with running := false, slices := n, late := c.late && decide (0 < n) } (fun t => regElse .fmcCalStat p s t ∧
            t.get F.fmcCalStat_retrains p = (s.get F.fmcCalStat_retrains p + (if n = 0 then 1 else 0)) % 2 ^ 16 ∧
            t.get F.fmcCalStat_overdue_slices p =
              min (2 ^ 16 - 1) (s.get F.fmcCalStat_overdue_slices p + (if c.late then 1 else 0)))) ∧
      (0 < c.slices → cal (exec (.calDeadlineExpiry p true) s) [] { c with late := true, lastFrame := some s.frame }
        (fun _ => True)) ∧
      (c.osc = true → cal (exec (.calDeadlineExpiry p false) s) [] { c with oscLate := true } (fun _ => True))) ∧
    (∀ (n : TileId) (v : Word64),
      let bank := natBits v.toNat 23 20
      let row := natBits v.toNat 17 0
      (s.flag F.nmcRepair_go n = false → natBit v.toNat 24 = false → row ≤ 1023 → mget s.upkeep.spares (16 * n + bank) 0 < 8 →
        (natBit v.toNat 25 = true → mget s.upkeep.fuses (dramDie n) 0 + fusesAsked s n < 512) →
        ∃ t, exec (.nmcRepairGo n v) s = .next t ∧ t.get F.nmcRepair_status n = 1 ∧ t.flag F.nmcRepair_go n = true ∧
          t.get F.nmcRepair_bank n = bank ∧ t.get F.nmcRepair_row n = row ∧ t.flag F.nmcRepair_hard n = natBit v.toNat 25 ∧
          regElse .nmcRepair n s t ∧ onlyRegs [.nmcRepair] s t) ∧
      (s.flag F.nmcRepair_go n = true → exec (.nmcRepairGo n v) s = .next (s.set F.nmcRepair_status 4 n) ∧
        exec (.nearRowRepair n) s = .next (s.set F.nmcStat_repairing 1 n)) ∧
      (s.flag F.nmcStat_repairing n = true → s.upkeep.late = [] → s.clash = [] →
        let k := 16 * n.val + s.get F.nmcRepair_bank n
        let h := if s.flag F.nmcRepair_hard n then 1 else 0
        ∃ t, exec (.nearRepairDone n) s = .next t ∧ t.get F.nmcRepair_status n = 2 ∧ t.flag F.nmcRepair_go n = false ∧
          t.flag F.nmcStat_repairing n = false ∧ mget t.upkeep.spares k 0 = mget s.upkeep.spares k 0 + 1 ∧
          mget t.upkeep.fuses (dramDie n) 0 = mget s.upkeep.fuses (dramDie n) 0 + h ∧
          (∀ m, m < 1152 → dramDie m = dramDie n → h = 1 ∨ m = n.val →
            t.get F.nmcStat_fuse_left m = min 255 (512 - mget t.upkeep.fuses (dramDie n) 0)) ∧
          oneRecord 0 (unitId 2 (coreXY n) 0 + s.get F.nmcRepair_bank n) 0x60 (leBytes 4 (s.get F.nmcRepair_row n)) s t ∧
          regElse .nmcRepair n s t ∧ (∀ m, m ≠ n.val → dramDie m ≠ dramDie n ∨ h = 0 → t.reg .nmcStat m = s.reg .nmcStat m) ∧
          regsBut [.nmcRepair, .nmcStat] s t ∧
          t = { s with regs := t.regs, upkeep := t.upkeep, recs := t.recs })) ∧
    (∀ (p : PortId) (v : Word64), s.flag F.fmcRepair_go p = false → natBits v.toNat 17 0 ≤ 196607 →
      ∃ t, exec (.fmcRepairGo p v) s = .next t ∧ t.get F.fmcRepair_status p = 1 ∧ t.flag F.fmcRepair_go p = true ∧
        t.get F.fmcRepair_bank p = natBits v.toNat 23 20 ∧ t.get F.fmcRepair_row p = natBits v.toNat 17 0 ∧
        t.get F.klnRepair_pend = (s.get F.klnRepair_pend ||| 2 ^ p.val) ∧ t.flag F.klnEvtStat_repair = true ∧
        regElse .fmcRepair p s t ∧ onlyAlert [.fmcRepair, .klnRepair, .klnEvtStat] s t) ∧
    (∃ t, exec .repairGrant s = .next t ∧ t.flag F.klnRepair_grant = true ∧ t.get F.klnRepair_pend = s.get F.klnRepair_pend ∧
      onlyRegs [.klnRepair] s t) ∧
    (∀ (p : PortId) (resource : Bool), p.val ∈ s.upkeep.holds → s.upkeep.late = [] → s.clash = [] →
      let v := (s.reg .fmcRepair p).toNat
      ∃ t, exec (.farRepairDone p resource) s = .next t ∧ t.get F.fmcRepair_status p = (if resource then 2 else 3) ∧
        t.flag F.fmcRepair_go p = false ∧ portState t p = (if portState s p = 5 then 3 else portState s p) ∧
        t.upkeep.holds = s.upkeep.holds.filter (· != p.val) ∧
        t.upkeep.hard = s.upkeep.hard ++ (if resource && natBit v 25 then [(p.val, v % 2 ^ 25)] else []) ∧
        oneRecord 0 (unitId 3 (portXY p) (if natBit v 24 then 0x2000 else 0x1000) + natBits v 23 20)
          (if resource then 0x60 else 0x61) (leBytes 4 (natBits v 17 0)) s t ∧
        regElse .fmcRepair p s t ∧ regElse .fmcStat p s t ∧ regsBut [.fmcRepair, .fmcStat] s t ∧
        t = { s with regs := t.regs, upkeep := t.upkeep, recs := t.recs })

/-- The fills make every byte of their part zero and no other; starting far memory trains every port; a port that has
trained fills, one that fails is taken out and halts the module; a scrub of a group or row where nothing is found only
moves the position, or ends the lap; a store that waited for the near fill is made when that ends (09 R339, R342, R352,
R355, R356, 14 R474-R476, 19 R634). -/
def Obligations.FillsAndScrubsRun : Prop :=
  ∀ s : State,
    (railsUp s = true → s.hearth.onDieFilled = false →
      ∃ t, exec .onDieFillDone s = .next t ∧ t.hearth = { s.hearth with onDieFilled := true } ∧
        (∀ a, t.byte a = if isPad (sliced a) then 0 else s.byte a) ∧ t.bad = s.bad.filter (fun g => !isPad g) ∧
        t.regs = s.regs ∧ t.cores = s.cores) ∧
    (railsUp s = true → s.hearth.nearFilled = false → s.upkeep.late = [] →
      ∃ t, exec .nearFillDone s = .next t ∧ t.hearth = { s.hearth with nearFilled := true } ∧
        (∀ a, t.byte a = if regionOf (sliced a) = .near then 0 else s.byte a) ∧
        t.bad = s.bad.filter (fun g => regionOf g != .near) ∧ t.regs = s.regs ∧ t.cores = s.cores) ∧
    (∀ l : Late, railsUp s = true → s.hearth.nearFilled = false → s.upkeep.late = [l] → s.pubs = [] → l.poison = false →
      let filled : State := { s with hearth := { s.hearth with nearFilled := true } }
      MemOk s → l.data ≠ [] → goodRange l.addr l.data.length filled → regionOf (sliced l.addr) = .near →
      ∃ t, exec .nearFillDone s = .next t ∧ t.upkeep.late = [] ∧ t.bytes l.addr l.data.length = l.data ∧
        (∀ x, regionOf (sliced x) = .near → (sliced x < sliced l.addr ∨ sliced l.addr + l.data.length ≤ sliced x) → t.byte x = 0)) ∧
    (∀ v : Word32, s.flag F.fmcMap_lock = false → natBits v.toNat 9 8 ≠ 3 → natBits v.toNat 5 0 ≤ 45 →
      ∃ t, exec (.fmcMapStart v) s = .next t ∧ t.flag F.fmcMap_lock = true ∧ t.flag F.fmcMap_start = true ∧
        t.get F.fmcMap_rate = natBits v.toNat 9 8 ∧ t.get F.fmcMap_local_gib = natBits v.toNat 5 0 ∧
        t.get F.fmcGlbStat_fill = 1 ∧ (∀ p, p < 32 → portState t p = 1) ∧
        t.get F.secBootStat_state = (if s.get F.secBootStat_state = 2 then 3 else s.get F.secBootStat_state) ∧
        regsBut [.fmcMap, .fmcGlbStat, .fmcStat, .secBootStat] s t ∧ t = { s with regs := t.regs, mgt := t.mgt }) ∧
    (∀ p : PortId,
      (portState s p = 1 → ∃ t, exec (.farTrainingDone p true) s = .next t ∧ portState t p = 2 ∧
        t.get F.fmcStat_rate p = s.get F.fmcMap_rate ∧ regElse .fmcStat p s t ∧ onlyUpkeep [.fmcStat] s t) ∧
      (portState s p = 2 → s.upkeep.late = [] → ∃ t, exec (.farFillDone p) s = .next t ∧ portState t p = 3 ∧
        (∀ a, t.byte a = if atPort s p (sliced a) then 0 else s.byte a) ∧ t.bad = s.bad.filter (fun g => !atPort s p g) ∧
        regElse .fmcStat p s t ∧ regsBut [.fmcStat, .fmcGlbStat] s t ∧ t.cores = s.cores) ∧
      (∀ o, (portState s p = 1 ∧ o = exec (.farTrainingDone p false) s) ∨
          ((portState s p = 2 ∨ portState s p = 3 ∨ portState s p = 5) ∧ o = exec (.farChannelFail p) s) →
        s.queues = [] → mirState s ≠ 10 → s.upkeep.late = [] →
        ∃ t, o = .next t ∧ portState t p = 4 ∧ portFailed t p = true ∧ mirState t = 10 ∧ t.flag F.hrtStat_halted = true ∧
          (∀ q, q ≠ p.val → portState t q = portState s q) ∧ memKept s t ∧
          (∀ c, (t.core c).run ≠ .running) ∧ (∀ c, (t.core c).sc = (s.core c).sc))) ∧
    (∀ (p : PortId) (finds : List (Fin 15 × Ecc)), farMode s p = 1 → groupHeld s p = false →
      let pos := s.get F.fmcScrubStat_pos p
      (∀ k, k < 15 → portAddr s p (64 * (15 * pos + k)) ∉ s.bad ∧ findOf finds k = .clean) → pos < farGroups →
      ∃ t, exec (.farScrubGroup p finds) s = .next t ∧
        t.get F.fmcScrubStat_pos p = (if pos + 1 = farGroups then 0 else pos + 1) ∧
        t.get F.fmcScrubLap_laps p = (s.get F.fmcScrubLap_laps p + (if pos + 1 = farGroups then 1 else 0)) % 2 ^ 32 ∧
        regElse .fmcScrubStat p s t ∧ onlyUpkeep [.fmcScrubStat, .fmcScrubLap, .fmcScrubTime] s t) ∧
    (∀ (n : TileId) (finds : List (Fin 64 × Ecc)), nearMode s n = 1 → s.flag F.nmcStat_repairing n = false →
      let pos := s.get F.nmcScrubStat_pos n
      let base := 0x0200_0000_0000 + n.val * 0x200_0000 + pos / 16 * 32768 + pos % 16 * 2048
      (∀ k, k < 64 → base + 32 * k ∉ s.bad ∧ findOf finds k = .clean) →
      ∃ t, exec (.nearScrubRow n finds) s = .next t ∧
        t.get F.nmcScrubStat_pos n = (if pos + 1 = nearRows then 0 else pos + 1) ∧
        t.get F.nmcScrubLap_laps n = (s.get F.nmcScrubLap_laps n + (if pos + 1 = nearRows then 1 else 0)) % 2 ^ 32 ∧
        regElse .nmcScrubStat n s t ∧ onlyUpkeep [.nmcScrubStat, .nmcScrubLap, .nmcScrubTime] s t)

/-! ## The tick and the queues (02) -/

/-- A tick counts the frame, stores its time, is pending at every core and takes the largest throttle request. It fires a
queue's eligible list whose target has come, and one that is at its deadline overruns: flagged, counted, and ended at
its boundary where its queue aborts. What makes a tick: the internal source; a source edge in acquisition after one
period, or in the window; the window's or acquisition's end, with a miss; and the write of the frame control, which a bad value leaves as it was with
its error flagged (02 R57-R65, R95, R98-R103, 04 R179). -/
def Obligations.TicksFireAndOverrun : Prop :=
  ∀ (r : TickReport) (s : State),
    let next := (s.frame + 1) % 2 ^ 48
    let d := max (s.get F.klnThrottle_host) (max (if s.flag F.hrtStat_req38 then 1 else 0) (s.get F.klnThrottle_cone))
    let ticks := fun (o : Host.Outcome State Fault Refusal) (f : Nat) (P : State → Prop) =>
      ∃ t, o = .next t ∧ t.frame = f ∧ t.get F.klnTickTime_time_ns = s.now % 2 ^ 64 ∧ t.kiln.tickClk = s.clk ∧
        t.get F.klnThrottle_eff = d ∧ (∀ c, c < 1156 → natBit (scalar t c).ip.toNat 0 = true) ∧ P t
    let miss := fun t : State => t.flag F.klnEvtStat_sync_miss = true ∧
      t.get F.klnFrameStat_miss_cnt = min (2 ^ 16 - 1) (s.get F.klnFrameStat_miss_cnt + 1) ∧
      t.get F.klnFrameStat_miss_run = min (2 ^ 8 - 1) (s.get F.klnFrameStat_miss_run + 1)
    let p := s.kiln.period * 1700
    let w := s.get F.klnFrameCtl_win * 17
    (s.flag F.klnFrameCtl_tick_en = true →
      (s.get F.klnFrameCtl_src = 0 →
        ticks (exec (.kilnTick r) s) next (fun _ => True) ∧
        (∀ (q : QueueId) (u : Queue) (l : CmdList), s.queues = [(q.val, u)] → u.lists = [l] → l.ended = none → r.lists = [] →
          (l.fired = none → l.reportOnly = false → s.flag F.klnQctl_en q = true → mirState s ≤ 5 → isPrimary s = false →
            next % 2 ^ d = 0 → eligible s q l = true → (l.next = true ∨ l.target ≤ next) → l.cring < 64 →
            ringOwned s l.cring (ctxOf q) = true → ringRoom s l.cring = true →
            ticks (exec (.kilnTick r) s) next (fun t =>
              t.queue q = { u with lists := [{ l with fired := some next, left := l.budget }] })) ∧
          (∀ f, l.fired = some f → l.left = 1 → l.recording = false → l.out = false → next % 2 ^ d = 0 →
            let ran := fun t : State => t.flag F.klnQstat_overrun q = true ∧ t.flag F.klnEvtStat_overrun = true ∧
              t.get F.klnOverrunCnt_count = min (2 ^ 32 - 1) (s.get F.klnOverrunCnt_count + 1)
            (s.flag F.klnQctl_policy q = false → ticks (exec (.kilnTick r) s) next (fun t => ran t ∧
              t.queue q = { u with lists := [{ l with left := 0, ranPast := true }] })) ∧
            (s.flag F.klnQctl_policy q = true → l.busy = false → l.holds = false → l.status = 0 → l.idx < l.count →
              s.launches = [] → s.swath = none → ticks (exec (.kilnTick r) s) next (fun t => ran t ∧
              t.queue q = { u with lists := [{ l with left := 0, ranPast := true, aborting := true, stop := true,
                                                      ended := some next, status := 1 }] }))))) ∧
      (∀ o, (s.get F.klnFrameCtl_src = 2 ∧ o = exec (.frameSyncEdge r) s) ∨
          (s.get F.klnFrameCtl_src = 1 ∧ s.kiln.adopt = false ∧ ∃ (f : BitVec 48) (x : Word64), o = exec (.fsync f x r) s) →
        (s.kiln.acq = true → s.kiln.adopt = false → p ≤ elapsed s →
          ticks o next (fun t => t.kiln.acq = false ∧ t.get F.klnFrameStat_miss_run = 0)) ∧
        (s.kiln.acq = true → elapsed s < p → o = .next s) ∧
        (s.kiln.acq = false → p ≤ elapsed s + w → elapsed s ≤ p + w → ticks o next (fun t =>
          t.kiln.inWin = s.kiln.inWin + 1 ∧ t.get F.klnFrameStat_miss_run = 0 ∧
          t.flag F.klnFrameStat_locked = (decide (3 ≤ s.kiln.inWin) || s.flag F.klnFrameStat_locked))) ∧
        (s.kiln.acq = false → (elapsed s + w < p ∨ p + w < elapsed s) → o = .next s)) ∧
      (∀ (f : BitVec 48) (x : Word64), s.get F.klnFrameCtl_src = 1 → s.kiln.acq = true → s.kiln.adopt = true →
        p ≤ elapsed s → ticks (exec (.fsync f x r) s) f.toNat (fun t => t.kiln.acq = false ∧ t.kiln.adopt = false)) ∧
      (s.get F.klnFrameCtl_src ≠ 0 → s.kiln.acq = false → ticks (exec (.syncWindowExpiry r) s) next (fun t => miss t ∧
        (if 2 ≤ s.kiln.acqMiss then t.kiln.acq = true ∧ t.flag F.klnEvtStat_sync_lost = true ∧
            t.flag F.klnFrameStat_locked = false else t.kiln.acq = false))) ∧
      (s.get F.klnFrameCtl_src ≠ 0 → s.kiln.acq = true → ticks (exec (.acquisitionTimeout r) s) next (fun t => miss t ∧
        t.kiln.acq = true ∧ (2 ≤ s.kiln.acqMiss → s.kiln.acqLost = false → t.flag F.klnEvtStat_sync_lost = true ∧
          t.flag F.klnFrameStat_locked = false)))) ∧
    (∀ v : Word32,
      let us := natBits v.toNat 10 0
      let src := natBits v.toNat 27 26
      let win := natBits v.toNat 24 16
      (40 ≤ us → us ≤ 2000 → src ≠ 3 → win * 40 ≤ us * 1000 →
        ∃ t, exec (.frameCtlWrite v) s = .next t ∧ t.get F.klnFrameCtl_period_us = us ∧ t.get F.klnFrameCtl_src = src ∧
          t.get F.klnFrameCtl_win = win ∧ t.flag F.klnFrameCtl_tick_en = natBit v.toNat 31 ∧
          (src ≠ s.get F.klnFrameCtl_src → t.flag F.klnFrameStat_locked = false ∧ t.kiln.acq = decide (src ≠ 0)) ∧
          regsBut [.klnFrameCtl, .klnFrameStat] s t ∧ t = { s with regs := t.regs, kiln := t.kiln }) ∧
      ((us < 40 ∨ 2000 < us ∨ src = 3 ∨ us * 1000 < win * 40) →
        ∃ t, exec (.frameCtlWrite v) s = .next t ∧ t.flag F.klnEvtStat_cfg_err = true ∧ onlyAlert [.klnEvtStat] s t)) ∧
    (∀ (q : QueueId) (l : CmdList) (x : Launch), engineOf q = 0 →
      (s.queue q).lists.find? (fun l => l.live && l.aborting) = some l → s.launchesOf q l.start = [x] → x.pairs = [] →
      ∃ t, exec (.abortGraceExpiry q) s = .next t ∧ (∀ c, c ∈ x.left → (s.core c).ending = none →
        (t.core c).run = .stopped ∧ t.undef.any (fun u => u.pad == c) = true))

/-- The registers of queues and completion rings, and what the Kiln does with them: enabling and disabling, doorbells, the
fetch of a header, the record of a list that has ended, the message of a ring once what it covers is placed, and the lists
that a ring's disabling leaves without one (02 R72-R81, R88-R94, R106, R109). -/
def Obligations.QueuesAndRingsRegisters : Prop :=
  ∀ s : State,
    (∀ (q : QueueId) (v : Word32), s.flag F.klnQctl_en q = false → natBit v.toNat 31 = true →
      4 ≤ natBits v.toNat 4 0 → natBits v.toNat 4 0 ≤ 16 →
      placedOk (s.get F.klnQbase_base q * 4096) (64 * 2 ^ natBits v.toNat 4 0) = true →
      ∃ t, exec (.queueEnable q v) s = .next t ∧ t.flag F.klnQctl_en q = true ∧ t.get F.klnQctl_size_log2 q = natBits v.toNat 4 0 ∧
        t.flag F.klnQctl_policy q = natBit v.toNat 30 ∧ t.get F.engDbTail_tail q = 0 ∧ t.get F.engDbHead_head q = 0 ∧
        t.queue q = {} ∧ regsBut [.klnQctl, .engDbTail, .engDbHead] s t ∧ t = { s with regs := t.regs, queues := t.queues }) ∧
    (∀ q : QueueId, s.flag F.klnQctl_en q = true →
      ∃ t, exec (.queueDisable q) s = .next t ∧ t.flag F.klnQctl_en q = false ∧ (t.queue q).lists = [] ∧
        (t.queue q).fetch = 0 ∧ t.launches.all (fun l => l.queue != q.val) = true) ∧
    (∀ (q : QueueId) (v : Word32),
      let head := s.get F.engDbHead_head q
      let good := s.flag F.klnQctl_en q = true ∧ countDiff v.toNat head ≤ 2 ^ s.get F.klnQctl_size_log2 q ∧
        atLeast v.toNat head = true ∧ atLeast v.toNat (s.get F.engDbTail_tail q) = true
      (good → exec (.doorbellWrite q v) s = .next (s.set F.engDbTail_tail v.toNat q)) ∧
      (¬good → ∃ t, exec (.doorbellWrite q v) s = .next t ∧ t.flag F.klnQstat_db_err q = true ∧
        t.flag F.klnEvtStat_db_err = true ∧ onlyAlert [.klnQstat, .klnEvtStat] s t) ∧
      (∀ (b : BundleId) (x : BitVec 4), usable s .vcl b = true → s.get F.secBootStat_state = 4 →
        exec (.db ⟨b, none, x⟩ (BitVec.ofNat 16 q) v) s =
          exec (.doorbellWrite q v) (meterRegs (bundleXY .vcl b) (0x20_0000 + 4096 * q) false s))) ∧
    (∀ (q : QueueId) (hv : HostView) (b : List Byte) (s1 : State),
      let u := s.queue q
      let f := u.fetch
      f < 2 ^ 32 → s.flag F.klnQctl_en q = true → atLeast (s.get F.engDbTail_tail q) (f + 1) = true →
      engineServed s (slotAddr s q f) 64 = true →
      engineRead ⟨kilnUnit, ctxOf q⟩ (slotAddr s q f) 64 hv s = (s1, some b) → isShadow s1 = false →
      (headerOk b (s1.get F.klnQctl_size_log2 q) = true →
        exec (.headerFetch q hv) s = .next (s1.setQueue q
          { u with fetch := (f + 1 + leAt b 4 2) % 2 ^ 32, lists := u.lists ++ [headerList s1 f b] })) ∧
      (headerOk b (s1.get F.klnQctl_size_log2 q) = false →
        exec (.headerFetch q hv) s = .next (s1.setQueue q
          { u with fetch := (f + 1) % 2 ^ 32, lists := u.lists ++ [badList f b] }))) ∧
    (∀ (q : QueueId) (hv : HostView), engineServed s (slotAddr s q ((s.queue q).fetch % 2 ^ 32)) 64 = false →
      exec (.headerFetch q hv) s = .next s) ∧
    (∀ (q : QueueId) (l' : CmdList) (f m : Nat) (ns : BitVec 24) (cap : Bool), recordDue s q = some l' →
      s.list q l'.start = some l' → l'.ended = some f → l'.out = false → ringFor s q l'.cring = some m →
      ringRoom s m = true → recordHeld s l' = false →
      let l := if l'.fired.isSome ∧ f = s.frame then
        { l' with stolen := max l'.stolen ns.toNat, capped := l'.capped || cap } else l'
      let n := (s.ring m).written
      let j := s.get F.klnCrctl_size_log2 m
      let a := s.get F.klnCrbase_base m * 4096 + 32 * (n % 2 ^ j)
      let rec' := recordBytes s q l (n + 1)
      let phase := BitVec.ofNat 8 ((n / 2 ^ j + 1) % 2 * 128)
      (MemOk s → goodRange a 32 s → hostQuiet s (listAgent q l.start) = true →
        ∃ t, exec (.completionRecordWrite { queue := q, ns := ns, cap := cap }) s = .next t ∧ t.bytes a 32 = rec' ++ [phase] ∧
          (∀ x, (sliced x < sliced a ∨ sliced a + 32 ≤ sliced x) → t.byte x = s.byte x) ∧
          (t.ring m).written = n + 1 ∧ t.cores = s.cores) ∧
      (isHostAddr a = true → linkUp s = true → ctxBundle s (ctxOf q) ≤ 2 → ∃ t,
        exec (.completionRecordWrite { queue := q, ns := ns, cap := cap }) s = .next t ∧
        t.list q l.start = some { l with recording := true } ∧ (t.ring m).written = n + 1 ∧
        t.pubs = s.pubs ++ [⟨[listAgent q l.start], .phase q l.start m l.irqNow,
          { kind := .mwr, ctx := ctxOf q, addr := a + 31, agent := listAgent q l.start, data := [phase], slots := 2 }⟩] ∧
        regsBut [.mshMonFlits] s t ∧ t = { s with
          regs := t.regs, freeCount := t.freeCount, queues := t.queues, rings := t.rings, pubs := t.pubs, bundles := t.bundles })) ∧
    (∀ m : RingId, s.get F.klnCrcoal_timer_us m ≠ 0 → s.flag F.klnCrctl_irq_en m = true → 0 < (s.ring m).unsignalled →
      ((s.ring m).covers.all (hostQuiet s) = true →
        ∃ t, exec (.coalesceTimerExpiry m) s = .next t ∧ t.ring m = { s.ring m with unsignalled := 0, covers := [] } ∧
          (∀ k, k ≠ m.val → t.ring k = s.ring k) ∧ t.pubs = s.pubs ∧ regsBut [.vclEvtStat] s t ∧
          t = { s with regs := t.regs, rings := t.rings, bundles := t.bundles, mgt := t.mgt, pins := t.pins }) ∧
      ((s.ring m).covers.all (hostQuiet s) = false → s.pubs.any (fun p => p.kind == .ringMsg m) = false →
        ∃ p, exec (.coalesceTimerExpiry m) s = .next { s with pubs := s.pubs ++ [p] } ∧ p.kind = .ringMsg m)) ∧
    (∀ (m : RingId) (v : Word32), s.flag F.klnCrctl_en m = false → natBit v.toNat 31 = true → 6 ≤ natBits v.toNat 4 0 →
      natBits v.toNat 4 0 ≤ 16 → placedOk (s.get F.klnCrbase_base m * 4096) (32 * 2 ^ natBits v.toNat 4 0) = true →
      ∃ t, exec (.ringEnable m v) s = .next t ∧ t.flag F.klnCrctl_en m = true ∧ t.get F.klnCrctl_owner m = natBits v.toNat 23 20 ∧
        t.get F.klnCrctl_size_log2 m = natBits v.toNat 4 0 ∧ t.flag F.klnCrctl_irq_en m = natBit v.toNat 30 ∧
        t.get F.klnCrhead_consumed m = 0 ∧ t.ring m = {} ∧ onlyRegs [.klnCrctl, .klnCrhead] s { t with rings := s.rings }) ∧
    (∀ m : RingId, s.flag F.klnCrctl_en m = true →
      ((∀ p, p ∈ s.queues → ∀ l, l ∈ (s.queue p.1).lists → l.ended = none ∧ l.stalled = false) →
        exec (.ringDisable m) s = .next (s.set F.klnCrctl_en 0 m)) ∧
      (∀ (q : QueueId) (u : Queue) (l : CmdList) (f : Nat), s.queues = [(q.val, u)] → u.lists = [l] → l.ended = some f →
        l.recording = false → l.out = false → (∀ k, k < 64 → k ≠ m.val → ringOwned s k (ctxOf q) = false) →
        ∃ t, exec (.ringDisable m) s = .next t ∧ t.flag F.klnCrctl_en m = false ∧ (t.queue q).lists = [] ∧
          t.get F.engDbHead_head q = (s.get F.engDbHead_head q + l.slots) % 2 ^ 32)) ∧
    (∀ (m : RingId) (v : Word32), exec (.crheadWrite m v) s = .next (s.set F.klnCrhead_consumed v.toNat m))

/-- The commands of a list (02 R82-R87, R96, 12 R444, R448, 18 R594-R602): each is read from its slot when its turn comes.
NOP counts; an opcode its engine does not have ends the list; SIG, WAIT and DEC send their operation to the object's
unit; LAUNCH, once the boot has ended, queues a kernel, which starts on all of its cores at once when they are free; a raw COPY stores its source's
bytes at its destination; a parity error of a held command or of a COPY repeats it once; a replay runs on donors. -/
def Obligations.CommandsRun : Prop :=
  ∀ s : State,
    (∀ (q : QueueId) (hv : HostView) (l : CmdList) (b : List Byte) (s1 : State), starts q hv l b s s1 → b.length = 64 →
      let view := viewPast hv (slotAddr s q (l.start + 1 + l.idx)) 64
        (granules (slotAddr s q (l.start + 1 + l.idx)) 64).length
      (leAt b 0 1 = 0 → zeroBytes b 1 64 = true → ∃ t, exec (.nop q hv) s = .next t ∧ commandDone q l s1 t ∧
        t = { s1 with turn := t.turn, queues := t.queues }) ∧
      (opValid (engineOf q) (leAt b 0 1) = false → ∃ t, exec (.nop q hv) s = .next t ∧ commandFails q l 3 s1 t ∧
        t = { s1 with turn := t.turn, queues := t.queues }) ∧
      (zeroBytes b 1 8 = true → zeroBytes b 10 12 = true → zeroBytes b 16 64 = true → ∀ p : Nat,
        let sends := fun (o : Host.Outcome State Fault Refusal) (k : SyncKind) (w : Bool) =>
          ∃ t, o = .next t ∧ t.syncOps = s1.syncOps ++ [⟨1156 + q, p, k, leAt b 8 2, false⟩] ∧
            listIs q l { l with idx := l.idx + 1, busy := true, cmd := [], holds := w } s t ∧ meshFrame [] s1 t
        (leAt b 0 1 = 2 → cmdObj s1 (ctxOf q) (leAt b 8 2) 30 = some p →
          sends (exec (.sigCommand q hv) s) (.sig (leAt b 12 4)) false) ∧
        (leAt b 0 1 = 3 → cmdObj s1 (ctxOf q) (leAt b 8 2) 29 = some p →
          sends (exec (.waitCommand q hv) s) (.wait (leAt b 12 4) false) true) ∧
        (leAt b 0 1 = 4 → cmdObj s1 (ctxOf q) (leAt b 8 2) 29 = some p →
          sends (exec (.decCommand q hv) s) (.dec (leAt b 12 4)) false)) ∧
      (leAt b 0 1 = 0x10 → s.get F.secBootStat_state ≠ 4 → exec (.launch q hv) s = .next s) ∧
      (leAt b 0 1 = 0x10 → s.get F.secBootStat_state = 4 → (stagePlace q s b).any (fun p => !engineServed s p.1 p.2) = false →
        ∀ (st : List Byte) (s2 : State), launchCheck q view b (begun q l s1) = (s2, .ok st) → s2.launches = s.launches →
        s2.queues = (begun q l s1).queues →
        let cores := launchCores (leAt b 8 4) (leAt b 16 8)
        cores ≠ [] → ∃ t x, exec (.launch q hv) s = .next t ∧ t.launches = s.launches ++ [x] ∧ x.queue = q.val ∧
          x.start = l.start ∧ x.idx = l.idx ∧ x.cores = cores ∧ x.left = cores ∧ x.started = false ∧ x.code = leAt b 24 2 ∧
          x.entry = leAt b 28 4 ∧ x.arg0.toNat = leAt b 32 8 ∧ x.arg1.toNat = leAt b 40 8 ∧ x.stages = st ∧
          listIs q l { l with idx := l.idx + 1, busy := false, cmd := [] } s t ∧
          t = { s2 with queues := t.queues, launches := t.launches }) ∧
      (let a := copyArgs b
       let n := a.rowBytes
       leAt b 0 1 = 0x20 → 1 ≤ engineOf q → engineOf q ≤ 8 → copyOk b a = true → a.raw = true → a.ops = 0 → a.rows = 1 →
       n ≤ 65536 → hv.ecc = .clean → hv.mesh = [] → MemOk s1 → l.refused = false →
       hostQuiet s1 (listAgent q l.start) = true →
       ∀ x y : Word64 × Word64, tableEntry s1 (ctxOf q) (a.src / 2 ^ 48) = some x → natBit x.1.toNat 55 = true →
         tableEntry s1 (ctxOf q) (a.dst / 2 ^ 48) = some y → natBit y.1.toNat 56 = true →
         let A := entryBase x + a.src % 2 ^ 48
         let D := entryBase y + a.dst % 2 ^ 48
         a.src % 2 ^ 48 + n ≤ entryLen x → a.dst % 2 ^ 48 + n ≤ entryLen y → isHostAddr (entryBase y) = false →
         goodRange A n s1 → goodRange D n s1 → xlatDev s1 (ctxOf q) A = A → xlatDev s1 (ctxOf q) D = D →
         ∃ t, exec (.copy q hv) s = .next t ∧ t.bytes D n = s1.bytes A n ∧
           (∀ x, (sliced x < sliced D ∨ sliced D + n ≤ sliced x) → t.byte x = s1.byte x) ∧
           commandDone q l s1 t ∧ t.cores = s1.cores ∧ t.launches = s1.launches)) ∧
    (∀ (q : QueueId) (l : Launch), s.launches.find? (fun l => l.queue == q.val && !l.started && mayStart s l) = some l →
      ∃ t, exec (.kernelLaunch q) s = .next t ∧
        t.launches = s.launches.map (fun x => if x = l then { l with started := true, startedAt := s.ras.order + 1 } else x) ∧
        t.ras.order = s.ras.order + 1 ∧
        (∀ c, c ∈ l.cores → (t.core c).run = .running ∧ (t.core c).wait = .none ∧ (t.core c).kernel = some (l.queue, l.start) ∧
          (scalar t c).pc = BitVec.ofNat 48 l.entry ∧ mget (scalar t c).g 1 0 = l.arg0 ∧ mget (scalar t c).g 2 0 = l.arg1 ∧
          mget (scalar t c).g 3 0 = BitVec.ofNat 64 c ∧ (∀ r, r < 1 ∨ 3 < r → mget (scalar t c).g r 0 = 0) ∧
          (scalar t c).pl = l.priv ∧ (scalar t c).ml = 0 ∧ (scalar t c).ie = 0 ∧ (scalar t c).seg = [] ∧ (t.core c).v = [] ∧
          (t.core c).chan = {} ∧ (scalar t c).stage = launchStage l c ∧ (scalar t c).ctx = BitVec.ofNat 4 (l.queue % 16) ∧
          (∀ g, handleCode { s.core c with htab := htabCopy s (l.queue % 16) } l.code = some g → (scalar t c).code = g)) ∧
        coresBut l.cores s t ∧ t.regs = s.regs ∧ t.queues = s.queues) ∧
    (∀ (q : QueueId) (start : Word32) (idx : BitVec 12) (l : CmdList), s.list q start.toNat = some l →
      let i := idx.toNat
      let waits := (s.launchesOf q start.toNat).any (fun x => x.idx == i && !x.started)
      let held := (l.idx ≤ i ∧ i < l.count) ∨ (l.busy = true ∧ i + 1 = l.idx) ∨ waits = true
      let out := exec (.commandParityError ⟨q, start, idx⟩) s
      (l.ended.isSome = true ∨ l.reportOnly = true ∨ ¬held → out = .next s) ∧
      (l.ended = none → l.reportOnly = false → held →
        (i ∉ l.parity → ∃ t, out = .next t ∧ listIs q l { l with parity := l.parity ++ [i] } s t ∧
          t = { s with queues := t.queues }) ∧
        (i ∈ l.parity → l.fired = none → ∃ t, out = .next t ∧
          listIs q l { l with status := 3, reportOnly := true } s t ∧ t = { s with queues := t.queues }) ∧
        (i ∈ l.parity → l.fired.isSome = true → l.busy = false → l.aborting = false →
          (∀ x, x ∈ s.launchesOf q start.toNat → x.idx = i ∧ x.started = false) →
          ∃ t, out = .next t ∧ t.launchesOf q start.toNat = [] ∧ listIs q l { l with
            status := if l.status = 0 then 3 else l.status, stop := true, ended := some s.frame } s t ∧
            t = { s with queues := t.queues, launches := t.launches }))) ∧
    (∀ (q : QueueId) (index : List (Nat × Byte)) (l : CmdList), s.list q l.start = some l →
      (runningList s q = some l → l.busy = true → leAt l.cmd 0 1 = 0x20 → l.holds = false →
        hostQuiet s (listAgent q l.start) = true →
        (l.rerun = false → copyOverlaps index l (copyArgs l.cmd) s = false → ∃ t, exec (.copyParityError ⟨q, index⟩) s = .next t ∧
          listIs q l { l with pos := 0, drain := false, rerun := true, replayed := true } s t ∧
          t = { s with queues := t.queues, xlfsr := t.xlfsr }) ∧
        (l.rerun = true ∨ copyOverlaps index l (copyArgs l.cmd) s = true → ∃ t l', exec (.copyParityError ⟨q, index⟩) s = .next t ∧
          listIs q l l' s t ∧ l'.stop = true ∧ l'.busy = false ∧ l'.status = (if l.status = 0 then 5 else l.status) ∧
          t = { s with queues := t.queues }))) ∧
    (∀ (q : QueueId) (l : Launch), s.launches.find? (fun l => l.queue == q.val && awaitsReplay l) = some l →
      (∀ ps, choosePairs s l = some ps → (takenCores l ps).all (coreFree s) = false → exec (.replayStart q) s = .next s) ∧
      (∀ ps, choosePairs s l = some ps → (takenCores l ps).all (coreFree s) = true →
        ∃ t, exec (.replayStart q) s = .next t ∧ (∀ c, c ∈ l.cores → (t.core (swapCore ps c)).run = .running ∧
            (t.core (swapCore ps c)).kernel = some (l.queue, l.start) ∧
            (scalar t (swapCore ps c)).pc = BitVec.ofNat 48 l.entry) ∧
          t.launches = s.launches.map (fun x => if x = l then
            { l with suspect := [], status := 0, pairs := ps, replayed := true, left := l.cores.map (swapCore ps) } else x) ∧
          coresBut (l.cores.map (swapCore ps)) s t) ∧
      (choosePairs s l = none → ∃ t, exec (.replayStart q) s = .next t ∧ t.cores = s.cores ∧
        oneRecord 2 (coreUnit l.suspectCore 0) l.suspectOp (stepDetails s l.suspectEpc l.queue l.start) s t ∧
        (∀ x, s.list l.queue l.start = some x → ∃ y, t.list l.queue l.start = some y ∧ y.stop = true ∧
          y.status = (if x.status = 0 then 5 else x.status))))

/-! ## Swath mode (14 R481-R494) -/

/-- SWATH takes its number and its queries and lets every Mower scan; a Mower whose lines are good compares every sketch of
its share with every query; the engine merges the lists as they come, and after the last writes the entries and the head
of the result, then the ready word, with which the command ends. Homes take both writes at once; a host takes the second
when the first is placed, and with the link down no part is written and the status is 0x06; poison ends the command with
status 0x06. A list keeps at most k keys, none of which is above one it has left out. -/
def Obligations.SwathScanWritesResult : Prop :=
  (∀ (q : QueueId) (hv : HostView) (l : CmdList) (b qs : List Byte) (a aq ar : Nat) (s s1 s2 : State), starts q hv l b s s1 →
    leAt b 0 1 = 0x30 → engineOf q = 9 → swathOk b = true → swathPlaces s1 (ctxOf q) b = some (a, aq, ar) →
    let w8 := if natBit (leAt b 1 1) 0 then 64 else 32
    let nq := leAt b 32 1
    let slot := slotAddr s q (l.start + 1 + l.idx)
    s1.regs = s.regs → engineServed s aq (nq * w8) = true →
    engineRead ⟨engineUnit 9, ctxOf q⟩ aq (nq * w8) (viewPast hv slot 64 (granules slot 64).length)
      ((begun q l s1).setQueue q { (begun q l s1).queue q with swathSeq := (s.queue q).swathSeq + 1 }) = (s2, some qs) →
    s2.queues = ((begun q l s1).setQueue q
      { (begun q l s1).queue q with swathSeq := (s.queue q).swathSeq + 1 }).queues →
    ∃ t w, exec (.swath q hv) s = .next t ∧ t.swath = some w ∧ w.queue = q.val ∧ w.start = l.start ∧
      w.seq = (s.queue q).swathSeq + 1 ∧ (t.queue q).swathSeq = w.seq ∧ w.tag = l.tag ∧ w.width = 8 * w8 ∧ w.region = a ∧
      w.count = leAt b 16 8 ∧ w.idBase = leAt b 48 8 ∧ w.k = leAt b 33 1 ∧ w.result = ar ∧ w.queries = chunksOf w8 nq qs ∧
      w.scanning = List.range 32 ∧ w.merged = [] ∧ w.best = List.replicate nq [] ∧
      t.list q l.start = some { l with idx := l.idx + 1, busy := true, cmd := [] } ∧
      t = { s2 with swath := t.swath }) ∧
  (∀ (p : PortId) (w : Swath) (s : State), s.swath = some w → p.val ∈ w.scanning → portState s p ≠ 4 →
    let z := w.width / 8
    let share := (List.range w.count).filter (fun i => (farPlace s (w.region + i * z)).1 == p.val)
    (∀ i, i ∈ share → 64 * ((w.region + i * z) / 64) ∉ s.bad) →
    ∃ t, exec (.mowerScanDone p []) s = .next t ∧ t.swath = some { w with scanning := w.scanning.filter (· != p.val) } ∧
      t.sieveRes = s.sieveRes ++ [{
        port := p, scanned := share.length, skipped := 0, lost := false, failedPort := false, corrected := false,
        lists := share.foldl (fun best i => compare w (w.idBase + i) (s.bytes (w.region + i * z) z) best)
          (List.replicate w.queries.length []) }] ∧
      regsBut [.fmcSwathCnt, .mshMonFlits] s t ∧ coresBut [] s t ∧ memKept s t) ∧
  (∀ (p : PortId) (w : Swath) (r : SieveRes) (rest : List SieveRes) (s : State), s.swath = some w →
    takeFirst (fun r => r.port == p.val) s.sieveRes = some (r, rest) →
    (exec (.sieveResultArrival p .clean) s = .next { s with swath := some (mergeRes w r), sieveRes := rest }) ∧
    (∀ (l : CmdList) (x : TileId) (sub : Byte), s.list w.queue w.start = some l → hostQuiet s (listAgent w.queue w.start) = true →
      ∃ t l', exec (.sieveResultArrival p (.poisoned x sub)) s = .next t ∧ t.swath = none ∧
      t.list w.queue w.start = some l' ∧ l'.stop = true ∧ l'.status = (if l.status = 0 then 6 else l.status) ∧
      t.get F.mshErrcnt_ue = min F.mshErrcnt_ue.max (s.get F.mshErrcnt_ue + 1) ∧ coresBut [] s t ∧ memKept s t)) ∧
  (∀ (w : Swath) (l : CmdList) (s : State), s.swath = some w → s.list w.queue w.start = some l → l.refused = false → MemOk s →
    let n := 8 * w.queries.length * w.k
    let host := isHostAddr w.result
    let quiet := hostQuiet s (listAgent w.queue w.start)
    let ends := fun (t : State) (st : Nat) => t.swath = none ∧ ∃ l', t.list w.queue w.start = some l' ∧ l'.busy = false ∧
      (st = 0 → l'.done = l.done + 1) ∧ (st ≠ 0 → l'.stop = true ∧ l'.status = (if l.status = 0 then st else l.status))
    let word := leBytes 4 (2 ^ 31 + w.seq % 2 ^ 31)
    (w.merged.length < 32 → exec .readyWordWrite s = .next s) ∧
    (32 ≤ w.merged.length → w.written = false → host = false →
      (rangeServes s w.result (64 + n) = false → exec .readyWordWrite s = .next s) ∧
      (quiet = true → w.best.length = w.queries.length → goodRange w.result (64 + n) s →
        ∃ t, exec .readyWordWrite s = .next t ∧ ends t 0 ∧ t.bytes w.result 60 = resultHead s w ∧
          t.bytes (w.result + 60) 4 = word ∧ t.bytes (w.result + 64) n = resultEntries w ∧
          (∀ x, (sliced x < sliced w.result ∨ sliced w.result + 64 + n ≤ sliced x) → t.byte x = s.byte x) ∧
          t.cores = s.cores)) ∧
    (32 ≤ w.merged.length → w.written = true → host = false → quiet = true → goodRange (w.result + 60) 4 s →
      ∃ t, exec .readyWordWrite s = .next t ∧ ends t 0 ∧ t.bytes (w.result + 60) 4 = word ∧
        (∀ x, (sliced x < sliced (w.result + 60) ∨ sliced (w.result + 60) + 4 ≤ sliced x) → t.byte x = s.byte x) ∧
        t.cores = s.cores) ∧
    (32 ≤ w.merged.length → w.written = false → host = true → linkUp s = true → ctxBundle s (ctxOf w.queue) ≤ 2 →
      ∃ t, exec .readyWordWrite s = .next t ∧ t.swath = some { w with written := true } ∧
        hostQuiet t (listAgent w.queue w.start) = false ∧ t.queues = s.queues ∧ memKept s t ∧ t.cores = s.cores) ∧
    (32 ≤ w.merged.length → host = true → linkUp s = false → quiet = true →
      ∃ t, exec .readyWordWrite s = .next t ∧ ends t 6 ∧ t.bundles = s.bundles ∧ memKept s t ∧ t.cores = s.cores) ∧
    (32 ≤ w.merged.length → w.written = true → host = true → linkUp s = true →
      (quiet = false → exec .readyWordWrite s = .next s) ∧
      (quiet = true → ctxBundle s (ctxOf w.queue) ≤ 2 → ∃ t, exec .readyWordWrite s = .next t ∧ t.swath = none ∧
        t.list w.queue w.start = some { l with drain := true, drainSt := 0 } ∧ memKept s t ∧ t.cores = s.cores))) ∧
  (∀ (k : Nat) (x : Nat × Nat) (l : List (Nat × Nat)),
    let le := fun a b : Nat × Nat => a.1 < b.1 ∨ (a.1 = b.1 ∧ a.2 ≤ b.2)
    l.Pairwise le → l.length ≤ k →
    (keepKey k x l).Pairwise le ∧ (keepKey k x l).length = min k (l.length + 1) ∧
    (∀ y, y ∈ x :: l → y ∉ keepKey k x l → ∀ z, z ∈ keepKey k x l → le z y))

/-! ## Registers, the host and the debugger (00 R11-R13, 15 R508-R510, 19 R645-R648) -/

/-- A write of a register without conditions sets its fields by their access codes, from a service core and from the host
over a usable bundle, and does not undo what an event leaves in the same cycle; a host read answers with the value and
clears what reading clears; host reads and writes of memory reach their bytes, and one resent that was accepted before has
no effect; and the writes with conditions of their own (00 R12, R15, 15 R508-R510, R517, 08 R305, R306, 18 R611,
19 R645-R648, 20 R663, 10 R387, 01 R54, 04 R183, 12 R452, R455). -/
def Obligations.RegisterAccessByCodes : Prop :=
  ∀ s : State,
    (∀ (off : BitVec 26) (r : Reg) (i : Nat) (v : Word64), r ∈ plainRegs → resolve off.toNat = some (r, i, 0) →
      off.toNat % 4 = 0 → (regRow r).wide = false →
      let writes := fun (host : Bool) (hit : Nat) (o : Host.Outcome State Fault Refusal) => ∃ t, o = .next t ∧
        (∀ f, f ∈ (regRow r).rows →
          let n := 2 ^ (f.hi + 1 - f.lo)
          let h := natBits hit f.hi f.lo
          let x := natBits (v.toNat % 2 ^ 32) f.hi f.lo
          fieldAt t r i f = fieldPut f.acc n (fieldAt s r i f) (match f.acc with
            | .w1c => x &&& (n - 1 - h)
            | .rw => x &&& (n - 1 - h) ||| fieldAt s r i f &&& h
            | _ => x)) ∧ regElse r i s t ∧ regsBut (if host then [r, .mshMonFlits] else [r]) s t ∧
        t = { s with regs := t.regs, clash := t.clash, freeCount := if host then t.freeCount else s.freeCount }
      (∀ hit : Word64, writes false hit.toNat (exec (.registerWrite .service off false ⟨v, hit⟩) s)) ∧
      (∀ b : BundleId, usable s .vcl b = true → s.get F.secBootStat_state = 4 → off.toNat < 0x300_0000 →
        (∀ hit : Word64, writes true hit.toNat (exec (.registerWrite (.host b) off false ⟨v, hit⟩) s)) ∧
        ∀ x : BitVec 4, writes true 0 (exec (.hwr ⟨b, none, x⟩ 0 (off.setWidth 48) (leBytes 4 v.toNat) false false {}) s))) ∧
    (∀ (b : BundleId) (x : BitVec 4) (tag : BitVec 12) (off : BitVec 26), usable s .vcl b = true →
      (∀ (r : Reg) (i : Nat), resolve off.toNat = some (r, i, 0) → off.toNat % 4 = 0 → (regRow r).wide = false →
        s.get F.secBootStat_state = 4 → off.toNat < 0x300_0000 →
        let s1 := meterRegs (bundleXY .vcl b) off.toNat true s
        ∃ t, exec (.rcRegisterRead ⟨b, none, x⟩ tag off false) s = .next t ∧
          t.bundles = (answerHost ⟨b, none, x⟩ tag.toNat 0 (leBytes 4 (regValue s1 r i % 2 ^ 32)) 1332 s).bundles ∧
          (∀ f, f ∈ (regRow r).rows → fieldAt t r i f = if f.acc = .rc then 0 else fieldAt s1 r i f) ∧
          regElse r i s1 t ∧ regsBut [r] s1 t ∧ t = { s1 with regs := t.regs, bundles := t.bundles }) ∧
      (off.toNat % 4 ≠ 0 → ∃ t, exec (.rcRegisterRead ⟨b, none, x⟩ tag off false) s = .next t ∧
        t.flag F.vclEvtStat_proto_err = true ∧ onlyAlert [] s t)) ∧
    (∀ (b : BundleId) (x : BitVec 4) (tag : BitVec 12) (win : Fin 4) (off : BitVec 48) (n a : Nat) (ord : Bool),
      usable s .vcl b = true →
      hostMem s win off.toNat n = some a → goodRange a n s →
      (∃ t, exec (.hrd ⟨b, none, x⟩ tag win off n ord {}) s = .next t ∧
        t.bundles = (answerHost ⟨b, none, x⟩ tag.toNat 0 (s.bytes a n) 1332 s).bundles ∧ regsBut [.mshMonFlits] s t ∧
        t = { s with regs := t.regs, bundles := t.bundles, freeCount := t.freeCount }) ∧
      (MemOk s → ∀ data : List Byte, data.length = n → ∃ t, exec (.hwr ⟨b, none, x⟩ win off data ord false {}) s = .next t ∧
        t.bytes a n = data ∧ (∀ x, (sliced x < sliced a ∨ sliced a + n ≤ sliced x) → t.byte x = s.byte x) ∧
        t.cores = s.cores)) ∧
    (∀ (b o : BundleId) (k tag : BitVec 12) (win : Fin 4) (off : BitVec 48) (n : Nat) (data : List Byte) (ord p : Bool)
      (e : HomeReport) (q : BitVec 16) (v : Word32) (x : Word64) (y : BitVec 4) (roff : BitVec 26) (wide : Bool),
      let u := s.bundle .vcl o
      u.rxAny = true → (u.rxSeq + 4096 - k.toNat) % 4096 < 2048 →
      exec (.hrd ⟨b, some (o, k), y⟩ tag win off n ord e) s = .next s ∧ exec (.hwr ⟨b, some (o, k), y⟩ win off data ord p e) s = .next s ∧
      exec (.db ⟨b, some (o, k), y⟩ q v) s = .next s ∧ exec (.rst ⟨b, some (o, k), y⟩ tag x) s = .next s ∧
      exec (.rcRegisterRead ⟨b, some (o, k), y⟩ tag roff wide) s = .next s) ∧
    (∀ (x : Fin 16) (h : Fin 64) (v : Word64),
      let i := 64 * x.val + h.val
      (natBit v.toNat 63 = false ∨ htabOk v.toNat (s.get F.klnHtabW1_length i) = true →
        ∃ t, exec (.htabW0Write x h v) s = .next t ∧ t.flag F.klnHtabW0_valid i = natBit v.toNat 63 ∧
          natBits (t.reg .klnHtabW0 i).toNat 59 55 = natBits v.toNat 59 55 ∧
          t.get F.klnHtabW0_base i = natBits v.toNat 47 0 ∧ regElse .klnHtabW0 i s t ∧ onlyRegs [.klnHtabW0] s t) ∧
      (natBit v.toNat 63 = true → htabOk v.toNat (s.get F.klnHtabW1_length i) = false →
        ∃ t, exec (.htabW0Write x h v) s = .next t ∧ t.flag F.klnEvtStat_cfg_err = true ∧ onlyAlert [.klnEvtStat] s t) ∧
      (s.flag F.klnHtabW0_valid i = false →
        exec (.htabW1Write x h v) s = .next (s.set F.klnHtabW1_length (v.toNat % 2 ^ 48) i))) ∧
    (∀ (w : Fin 36) (v : Word32), exec (.rasRetiredWrite w v) s =
      .next (s.set F.rasRetired_cores (s.get F.rasRetired_cores w ||| v.toNat) w)) ∧
    (∀ v : Word32, exec (.mshDistSvcWrite v) s = .next { s.setReg .mshDistSvc 0 (v.setWidth 64) with
      sec := { s.sec with distSet := true } }) ∧
    (∀ (k : Fin 8) (v : Word32), ∃ t, exec (.mshMonSelWrite k v) s = .next t ∧ t.flag F.mshMonSel_en k = natBit v.toNat 31 ∧
      t.get F.mshMonSel_dir k = natBits v.toNat 25 24 ∧ t.get F.mshMonSel_vn k = natBits v.toNat 23 20 ∧
      t.get F.mshMonSel_x k = natBits v.toNat 15 10 ∧ t.get F.mshMonSel_y k = natBits v.toNat 9 5 ∧
      t.get F.mshMonFlits_flits k = 0 ∧ t.get F.mshMonBlock_cycles k = 0 ∧
      onlyRegs [.mshMonSel, .mshMonFlits, .mshMonBlock, .mshMonTime] s t) ∧
    (∀ c : CoreId,
      (∃ t, exec (.dbgHalt c) s = .next t ∧ t.flag F.dbgCtl_halt c = true ∧
        (t.core c).halted = ((s.core c).halted || dbgAttached s) ∧ scalar t c = scalar s c ∧ coresBut [c.val] s t ∧
        regElse .dbgCtl c s t ∧ regsBut [.dbgCtl] s t ∧ t = { s with regs := t.regs, cores := t.cores }) ∧
      (runCode (s.core c) = 2 →
        (∃ t, exec (.dbgStep c) s = .next t ∧ (t.core c).step = true ∧ (t.core c).halted = (s.core c).halted ∧
          scalar t c = scalar s c ∧ coresBut [c.val] s t ∧ regsBut [] s t) ∧
        (∀ v : Word64,
          let sel := s.get F.dbgRegSel_reg c
          (sel < 32 → sel ≠ 0 → exec (.dbgRegDataWrite c v) s = .next (s.updSc c (fun x => x.setG sel v))) ∧
          (sel / 4096 = 3 → exec (.dbgRegDataWrite c v) s = .next (s.updSc c (fun x =>
            { x with pc := BitVec.ofNat 48 (v.toNat % 2 ^ 48 / 4 * 4), slot := none }))))) ∧
      (runCode (s.core c) ≠ 2 → ∀ v : Word64, exec (.dbgRegDataWrite c v) s = .next (s.set F.dbgStat_err 1 c)) ∧
      exec (.mswi c) s = .next (s.updSc c (fun x => { x with ip := x.ip ||| 0x80 })) ∧
      exec (.sswi c) s = .next (s.updSc c (fun x => { x with ip := x.ip ||| 8 })) ∧
      (∀ k : Fin 8, natBit (mget (scalar s c).pctr k.val 0).toNat 63 = true →
        let v := (mget (scalar s c).pctr k.val 0).toNat
        ∃ t, exec (.pctrWrap c k) s = .next t ∧ (mget (scalar t c).pctr k.val 0).toNat = natSetBits (natSetBits v 47 0 0) 62 62 1 ∧
          (scalar t c).ip = (if natBit v 61 then (scalar s c).ip ||| 4 else (scalar s c).ip) ∧
          (scalar t c).g = (scalar s c).g ∧ onlyCore c s t)) ∧
    (∀ v : Word32, synUnlocked s = true → v.toNat < 2 ^ 31 →
      let p := s.get F.dbgSynSel_phys
      mget s.waiters p [] = [] →
      ∃ t, exec (.dbgSynSet ⟨v, []⟩) s = .next t ∧ t.get F.synCnt_count p = v.toNat ∧ regElse .synCnt p s t ∧ regsBut [.synCnt] s t ∧
        oneRecord 0 (unitId 14 (syncXY p) (0x100 + p / 256)) 0x41
          (leBytes 4 p ++ leBytes 4 (s.get F.synCnt_count p) ++ leBytes 4 v.toNat) s t ∧
        t = { s with regs := t.regs, recs := t.recs } ∧
        (∀ (o : ObjId) (is : List (Hop 1332)), o.val = p → exec (.dbgSynSet ⟨v, is⟩) s = exec (.syncOpArrival o is) t)) ∧
    (∀ (n : TileId) (d : Fin 4),
      let edge := (d = 0 ∧ n.val % 48 = 0) ∨ (d = 1 ∧ n.val % 48 = 47) ∨ (d = 2 ∧ n.val / 48 = 0) ∨ (d = 3 ∧ n.val / 48 = 23)
      (edge → exec (.meshLinkFail n d) s = .next s) ∧
      (¬edge → mirState s ≠ 10 → s.queues = [] → ∃ t, exec (.meshLinkFail n d) s = .next t ∧ mirState t = 10 ∧
        t.flag F.hrtStat_halted = true ∧ t.flag F.hrtStat_parked = true ∧ memKept s t ∧
        (∀ c, (t.core c).run ≠ .running) ∧ (∀ c, scalar t c = scalar s c)))

/-! ## The links (15) -/

/-- The bytes of flits and of transactions' headers; training of a bundle step by step, what fails or retrains it, flits and
codewords, acknowledgements and replay, credit, and the control bits (15 R498-R508, R522, R524). The kinds of the flits that
carry an acknowledgement or a nak are the model's (log entry 55). -/
def Obligations.LinksTrainAndReplay : Prop :=
  ∀ (l : LinkId) (b : BundleId) (s : State),
    let u := s.bundle l b
    let st := bundleState s l b
    let bundle := fun v : Bundle => s.setBundle l b v
    let goes := fun (v : Bundle) (P : Flit → Prop) => ∃ f, v.out = some f ∧ flitCrcGood f = true ∧ f.slots.length = 240 ∧ P f
    let acks := fun (v : Bundle) (nak : Bool) => goes v (fun f => f.kind.toNat = (if nak then 2 else 1) ∧ f.nak = nak ∧ f.seq = 0 ∧
      f.ackValid = u.rxAny ∧ f.ack.toNat = u.rxSeq % 4096 ∧ v = { u with
        nakSent := u.nakSent || nak, unackedRx := 0, rxPosted := u.rxPosted + f.postedCredit.toNat,
        rxNonPosted := u.rxNonPosted + f.nonPostedCredit.toNat, out := some f })
    let naks := fun v : Bundle => if u.nakSent then v = u else acks v true
    (∀ f : Flit, f.slots.length = 240 →
      let x := flitBytes f
      x.length = 256 ∧ leAt x 0 2 = f.seq.toNat ∧ natBits (leAt x 2 2) 11 0 = f.ack.toNat ∧ natBit (leAt x 2 2) 12 = f.ackValid ∧
      natBit (leAt x 2 2) 13 = f.nak ∧ natBits (leAt x 2 2) 15 14 = 0 ∧ leAt x 4 1 = f.kind.toNat ∧ leAt x 5 1 = f.postedCredit.toNat ∧
      leAt x 6 1 = f.nonPostedCredit.toNat ∧ leAt x 7 1 = 0 ∧ (x.drop 8).take 240 = f.slots ∧ leAt x 248 8 = f.crc.toNat) ∧
    (∀ x : Tx, x.kind ≠ .msi → x.kind ≠ .mpair → x.data.length ≤ 256 →
      let h := x.header
      h.length = 16 ∧ leAt h 0 1 = x.kind.code ∧ natBit (leAt h 1 1) 1 = x.poison ∧ natBit (leAt h 1 1) 2 = x.resend ∧
      natBits (leAt h 1 1) 7 3 = 0 ∧ leAt h 4 1 = (if x.kind = .mrd then (x.want - 1) % 256 else x.data.length - 1) ∧ leAt h 5 1 = (if x.kind = .cple then x.status % 256 else 0) ∧
      leAt h 8 8 = x.addr % 2 ^ 48 ∧ (x.kind = .mrd ∨ x.kind = .cpl ∨ x.kind = .cple →
        natBits (leAt h 2 2) 11 0 = x.tag % 4096 ∧ natBits (leAt h 2 2) 15 12 = x.ctx % 16) ∧
      (x.resend = true → natBits (leAt h 6 2) 11 0 = x.orig.2 % 4096 ∧ natBits (leAt h 6 2) 13 12 = x.orig.1 % 4) ∧
      (x.resend = false → leAt h 6 2 = 0) ∧
      (x.slots = 1 + (x.data.length + 15) / 16 → x.slotBytes.length = 16 * x.slots ∧ x.slotBytes.take 16 = h ∧
        (x.slotBytes.drop 16).take x.data.length = x.data)) ∧
    (∀ lanes : BitVec 16, linkOn s l = true → s.flag (bDisable l) b = false → st ≤ 1 →
      ∃ t, exec (.linkDetect l b lanes) s = .next t ∧ bundleState t l b = (if st = 1 ∧ 8 ≤ bitsSet 16 lanes then 2 else 1) ∧
        t.get (linkFld l F.vclBstat_rate F.mirBstat_rate) b = s.get F.vclCtl_rate ∧
        (t.bundle l b).halved = false ∧ (t.bundle l b).before = none ∧ regElse (bstat l).reg b s t ∧
        regsBut [(bstat l).reg] s t ∧ t = { s with regs := t.regs, bundles := t.bundles }) ∧
    (∀ lanes : BitVec 16, s.flag (bDisable l) b = true ∨ (l = .mir ∧ s.flag F.mirCtl_solo = true) → st ≤ 1 →
      exec (.linkDetect l b lanes) s = .next (s.set (bstat l) 10 b)) ∧
    (st = 8 → exec (.equalisationDone l b) s = .next (s.set (bstat l) 2 b)) ∧
    (st = 2 → exec (.equalisationDone l b) s = .next (s.set (bstat l) 3 b)) ∧
    (∀ (ok partner inverted : BitVec 16) (h : Option Nat), st = 3 → widthOf (ok &&& partner) = some h →
      ∃ t, exec (.alignmentDone l b ok partner inverted) s = .next t ∧ bundleState t l b = 4 ∧
        t.bundle l b = { u with halved := h.isSome } ∧
        t.get (linkFld l F.vclBstat_lanes_ok F.mirBstat_lanes_ok) b = ok.toNat ∧
        t.get (linkFld l F.vclPol_inverted F.mirPol_inverted) b = inverted.toNat ∧
        t.get (linkFld l F.vclBstat_half F.mirBstat_half) b = h.getD 0 ∧
        t = { s with regs := t.regs, bundles := t.bundles }) ∧
    (st = 4 → exec (.fecLock l b true) s = .next (s.set (bstat l) 5 b)) ∧
    (∀ (p n : Nat) (last : BitVec 12), st = 5 → u.waiting = [] → s.flag (bRetrain l) b = false →
      (l = .vcl → s.get F.vclEvtEn_en = 0) → (l = .mir → s.mirror.behind = []) →
      let left := if u.before.isSome then afterAck last.toNat u.replay else []
      let taken := fun cls : Nat => ((left.filter (fun x => x.tx.cls == cls)).map (fun x => min 15 (x.tx.slots - x.part))).sum
      ∃ t, exec (.flitInit l b p n last) s = .next t ∧ bundleState t l b = (if u.halved then 7 else 6) ∧
        t.bundle l b = { u with
          txSeq := left.length % 4096, rxSeq := 4095, rxAny := false, replay := renumber 0 left
          posted := p - taken 2, nonPosted := n - taken 1,
          ueRun := 0, nakSent := false, unackedRx := 0, sentPosted := u.unplaced.length, unplaced := recount 0 u.unplaced, rxLeft := 0,
          rxPosted := 2048, rxNonPosted := 512, out := (t.bundle l b).out } ∧
        (left = [] → goes (t.bundle l b) (fun f => f.kind = 2 ∧ f.nak = false ∧ f.ackValid = u.rxAny ∧
          f.ack.toNat = u.rxSeq % 4096)) ∧
        (∀ x, left.getLast? = some x →
          goes (t.bundle l b) (fun f => f.kind = 0 ∧ f.seq.toNat = (left.length - 1) % 4096 ∧ f.ackValid = false ∧
            f.slots = padTo 240 ((x.tx.slotBytes.drop (16 * x.part)).take 240)) ∧
          t.get (linkFld l F.vclReplay_count F.mirReplay_count) b =
            min (2 ^ 32 - 1) (s.get (linkFld l F.vclReplay_count F.mirReplay_count) b + left.length) ∧
          (l = .vcl → t.flag F.vclEvtStat_replay = true)) ∧
        coresBut [] s t ∧ memKept s t) ∧
    (((1 ≤ st ∧ st ≤ 5) ∨ st = 8) → ∃ t, exec (.trainingTimeout l b) s = .next t ∧ bundleState t l b = 9 ∧
      (l = .mir → isPrimary s = false → s.mirror.behind = [] → oneRecord 2 (bundleUnit .mir b 0) 0x51 [] s t) ∧
      (l = .vcl → t.flag F.vclEvtStat_failed = true ∧ (mirState s ≠ 10 →
        (∀ x, x < 3 → x ≠ b.val → bundleState s .vcl x = 0 ∨ 9 ≤ bundleState s .vcl x) → t.flag F.hrtStat_halted = true))) ∧
    (let count := fun (v m : Fld) (k : Nat) (t : State) => t.get (linkFld l v m) b = min (2 ^ 32 - 1) (s.get (linkFld l v m) b + k)
     let retrains := fun o : Host.Outcome State Fault Refusal => ∃ t, o = .next t ∧ bundleState t l b = 8 ∧
       count F.vclRetrain_count F.mirRetrain_count 1 t ∧ (l = .vcl → t.flag F.vclEvtStat_retrain = true)
     (st = 4 → retrains (exec (.fecLock l b false) s)) ∧
     (s.flag (bDisable l) b = false → (usable s l b = true → retrains (exec (.bctlRetrain l b) s)) ∧
       (st = 9 → ∃ t, exec (.bctlRetrain l b) s = .next t ∧ bundleState t l b = 2)) ∧
     (st ≠ 10 → ∃ t, exec (.bctlDisable l b) s = .next t ∧ bundleState t l b = 10 ∧ t.flag (bDisable l) b = true) ∧
     let only := fun t : State => t = { s with bundles := t.bundles }
     (usable s l b = false ∨ u.unackedRx = 0 → exec (.ackIntervalExpiry l b) s = .next s) ∧
     (usable s l b = true →
       (0 < u.unackedRx → ∃ t, exec (.ackIntervalExpiry l b) s = .next t ∧ acks (t.bundle l b) false ∧ only t) ∧
       (∀ r : Codeword,
         let lane := fun i : Nat => if u.halved then 8 * s.get (linkFld l F.vclBstat_half F.mirBstat_half) b + i % 8 else i % 16
         let wrong := ((List.range 544).filter (fun i => r.errors.any (fun x => x.val == i) || r.dead.toNat.testBit (lane i))).length
         (wrong = 0 → exec (.codewordReceive l b r) s = .next (bundle { u with ueRun := 0 })) ∧
         (1 ≤ wrong → wrong ≤ 15 → ∃ t, exec (.codewordReceive l b r) s = .next t ∧ t.bundle l b = { u with ueRun := 0 } ∧
           count F.vclFecCe_count F.mirFecCe_count 1 t ∧ t = { s with regs := t.regs, bundles := t.bundles }) ∧
         (16 ≤ wrong → u.ueRun < 15 → ∃ t, exec (.codewordReceive l b r) s = .next t ∧
           (r.flits = 0 → t.bundle l b = { u with ueRun := u.ueRun + 1 }) ∧
           (r.flits ≠ 0 → (t.bundle l b).rxLost = u.rxLost + r.flits ∧ (t.bundle l b).ueRun = u.ueRun + 1 ∧
             (t.bundle l b).rxSeq = u.rxSeq ∧ (t.bundle l b).replay = u.replay ∧ (t.bundle l b).nakSent = true ∧
             (u.nakSent = false → goes (t.bundle l b) (fun g => g.kind = 2 ∧ g.nak = true ∧ g.ackValid = u.rxAny ∧
               g.ack.toNat = u.rxSeq % 4096))) ∧
           count F.vclFecUe_count F.mirFecUe_count 1 t ∧ oneRecord 1 (bundleUnit l b 0) 0x50 [] s t ∧
           t = { s with regs := t.regs, bundles := t.bundles, recs := t.recs }) ∧
         (16 ≤ wrong → 15 ≤ u.ueRun → retrains (exec (.codewordReceive l b r) s))) ∧
       (∀ f : Flit, 0 < u.rxLost → exec (.flitReceive l b f) s = .next (bundle { u with rxLost := u.rxLost - 1 })) ∧
       (∀ f : Flit, u.rxLost = 0 → flitCrcGood f = false → ∃ t, exec (.flitReceive l b f) s = .next t ∧ naks (t.bundle l b) ∧
         count F.vclCrcErr_count F.mirCrcErr_count 1 t ∧ t = { s with regs := t.regs, bundles := t.bundles }) ∧
       (∀ f : Flit, u.rxLost = 0 → flitCrcGood f = true → 3 ≤ f.kind.toNat →
         ∃ t, exec (.flitReceive l b f) s = .next t ∧ naks (t.bundle l b) ∧ only t) ∧
       (∀ f : Flit, u.rxLost = 0 → flitCrcGood f = true → f.nak = false → u.waiting = [] →
         let v : Bundle := { u with
           replay := if f.ackValid then afterAck f.ack.toNat u.replay else u.replay
           posted := u.posted + f.postedCredit.toNat, nonPosted := u.nonPosted + f.nonPostedCredit.toNat }
         let taken := fun w : Bundle => w = { v with
           rxSeq := f.seq.toNat, rxAny := true, nakSent := false, unackedRx := w.unackedRx, rxLeft := w.rxLeft,
           rxPosted := w.rxPosted, rxNonPosted := w.rxNonPosted, out := w.out }
         (f.kind.toNat < 3 → f.kind ≠ 0 → ∃ t, exec (.flitReceive l b f) s = .next t ∧ t.bundle l b = v ∧ only t) ∧
         (f.kind = 0 → f.seq.toNat = (u.rxSeq + 1) % 4096 →
           let r := flitScan l f u.rxLeft
           (r.bad = 0 → u.unackedRx < 63 → ∃ t, exec (.flitReceive l b f) s = .next t ∧ taken (t.bundle l b) ∧
             (t.bundle l b).unackedRx = u.unackedRx + 1 ∧ (t.bundle l b).rxLeft = r.left ∧ (t.bundle l b).out = u.out ∧
             (t.bundle l b).rxPosted = u.rxPosted - r.posted ∧ (t.bundle l b).rxNonPosted = u.rxNonPosted - r.nonPosted ∧ only t) ∧
           (r.bad = 0 → 63 ≤ u.unackedRx → ∃ t, exec (.flitReceive l b f) s = .next t ∧ taken (t.bundle l b) ∧
             (t.bundle l b).unackedRx = 0 ∧ goes (t.bundle l b) (fun g => g.kind = 1 ∧ g.nak = false ∧ g.ackValid = true ∧
               g.ack = f.seq) ∧ only t) ∧
           (r.bad ≠ 0 → ∃ t, exec (.flitReceive l b f) s = .next t ∧
             t.flag (linkFld l F.vclEvtStat_proto_err F.mirEvtStat_proto_err) = true ∧ coresBut [] s t ∧ memKept s t)) ∧
         (f.kind = 0 → f.seq.toNat ≠ (u.rxSeq + 1) % 4096 → ∃ t, exec (.flitReceive l b f) s = .next t ∧ only t ∧
           (if u.nakSent then t.bundle l b = v else (t.bundle l b).nakSent = true ∧ (t.bundle l b).rxSeq = u.rxSeq ∧
             (t.bundle l b).replay = v.replay ∧ goes (t.bundle l b) (fun g => g.nak = true ∧ g.ackValid = u.rxAny ∧
               g.ack.toNat = u.rxSeq % 4096)))) ∧
       (∀ x, u.replay.getLast? = some x → u.replay.all (fun x => decide (x.resends < 7)) = true →
         (l = .vcl → s.get F.vclEvtEn_en = 0) → ∃ t, exec (.ackTimeout l b) s = .next t ∧
           t.bundle l b = { u with
             replay := u.replay.map (fun x => { x with resends := x.resends + 1 }), unackedRx := 0
             rxPosted := (t.bundle l b).rxPosted, rxNonPosted := (t.bundle l b).rxNonPosted, out := (t.bundle l b).out } ∧
           goes (t.bundle l b) (fun g => g.kind = 0 ∧ g.seq.toNat = x.seq % 4096 ∧
             g.slots = padTo 240 ((x.tx.slotBytes.drop (16 * x.part)).take 240)) ∧
           count F.vclReplay_count F.mirReplay_count u.replay.length t ∧ (l = .vcl → t.flag F.vclEvtStat_replay = true) ∧
           coresBut [] s t ∧ memKept s t) ∧
       (u.replay.any (fun x => decide (7 ≤ x.resends)) = true → retrains (exec (.ackTimeout l b) s))))

/-- What the device sends goes out in a numbered flit kept for replay, an answer without credit; placement of posted
transactions and the completions of reads of host memory: PLACED takes off what it covers, with an
event, a record and word to the writer for what was refused; a CPL answers the read in flight with its tag, a CPLE and a
timeout answer it as uncorrectable; what no read awaits, or a read that a reset has cancelled, is discarded, and a read
that waits takes a freed tag (15 R511, R512, R515, R516). -/
def Obligations.LinkTransactionsComplete : Prop :=
  ∀ s : State,
    (∀ (b : BundleId) (ctx : BitVec 4) (tag : BitVec 12) (v : Word64), s.resets.warm = false → v.toNat ≠ 0xA55A → usable s .vcl b = true →
      let u := s.bundle .vcl b
      u.waiting.all (fun x => x.cls != 0) = true → u.replay.length < 1024 →
      let x : Tx := { kind := .cple, ctx := ctx.toNat, tag := tag.toNat, status := 5, agent := 1332 }
      ∃ (t : State) (g : Flit), exec (.rst ⟨b, none, ctx⟩ tag v) s = .next t ∧
        (t.bundle .vcl b).replay = u.replay ++ [⟨u.txSeq, 0, x, 0⟩] ∧ (t.bundle .vcl b).txSeq = (u.txSeq + 1) % 4096 ∧
        (t.bundle .vcl b).out = some g ∧ g.kind = 0 ∧ g.seq.toNat = u.txSeq % 4096 ∧ g.slots = padTo 240 x.header ∧
        flitCrcGood g = true ∧ (t.bundle .vcl b).posted = u.posted ∧ (t.bundle .vcl b).nonPosted = u.nonPosted ∧
        t = { s with bundles := t.bundles }) ∧
    (∀ (b o : BundleId) (count : Word64) (refused : List Nat), s.pubs = [] → s.launches = [] →
      let u := s.bundle .vcl o
      let covered := fun p : Nat × Tx => decide ((count.toNat + 2 ^ 64 - p.1) % 2 ^ 64 < 2 ^ 63)
      let v : Bundle := { u with unplaced := u.unplaced.filter (fun p => !covered p) }
      (refused = [] → exec (.placed b o count refused) s = .next (s.setBundle .vcl o v)) ∧
      (∀ p, p ∈ u.unplaced → covered p = true → p.1 ∈ refused → ∃ t, exec (.placed b o count refused) s = .next t ∧
        t.flag F.vclEvtStat_xlat_err = true ∧
        (p.2.kind = .mwr → p.2.agent < 1156 → (t.core p.2.agent).hostRefused = true) ∧ memKept s t)) ∧
    (∀ (b : BundleId) (n : Nat) (p : Nat × Tx), s.pubs = [] → s.launches = [] →
      let u := s.bundle .vcl b
      u.unplaced.find? (fun p => p.1 == n) = some p → u.waiting.contains p.2 = false →
      u.replay.any (fun x => x.tx == p.2) = false →
      ∃ t, exec (.placedTimeout b n) s = .next t ∧ t.flag F.vclEvtStat_cpl_timeout = true ∧
        (t.bundle .vcl b).unplaced.all (fun x => x.1 != n) = true ∧ memKept s t) ∧
    (∀ tag : BitVec 12,
      (∀ (m : Mrd) (rest : List Mrd), takeFirst (fun m => m.tag == tag.toNat) s.mrds = some (m, rest) →
        let freed : State := { s with mrds := rest }
        let t0 := match s.mrdWaits with | w :: ws => sendMrd w { freed with mrdWaits := ws } | [] => freed
        (m.dead = true → (∀ data : List Byte, exec (.cpl tag data) s = .next t0) ∧ exec (.cplTimeout tag) s = .next t0 ∧
          (∀ st : BitVec 8, 1 ≤ st.toNat → st.toNat < 5 → exec (.cple tag st) s = .next t0)) ∧
        let answers := fun (o : Host.Outcome State Fault Refusal) (data : List Byte) (bad : Bool) (P : State → Prop) =>
          ∃ t, o = .next t ∧ t.mrds = rest ∧ (∃ r : Resp, t.resps = s.resps ++ [r] ∧ r.dst = m.core ∧
            r.kind = (if m.fetch then .fetch else .fill) ∧ r.addr = m.addr ∧ r.data = data ∧ r.bad = bad) ∧ coresBut [] s t ∧
            memKept s t ∧ P t
        (m.dead = false → s.mrdWaits = [] →
        (∀ data : List Byte, data.length = 64 → answers (exec (.cpl tag data) s) data false (regsBut [.mshMonFlits] s)) ∧
        (∀ st : BitVec 8, 1 ≤ st.toNat → st.toNat < 5 → answers (exec (.cple tag st) s) [] true (fun t =>
          (st = 1 → t.flag F.vclEvtStat_xlat_err = true ∧ ∃ r, t.recs = s.recs ++ [r] ∧ r.op = 0x52))) ∧
        answers (exec (.cplTimeout tag) s) [] true (fun t => t.flag F.vclEvtStat_cpl_timeout = true))) ∧
      (∀ st : BitVec 8, st.toNat = 0 ∨ 5 ≤ st.toNat → ∃ t, exec (.cple tag st) s = .next t ∧
        t.flag F.vclEvtStat_proto_err = true ∧ coresBut [] s t ∧ memKept s t ∧ t.mrds = s.mrds) ∧
      (takeFirst (fun m => m.tag == tag.toNat) s.mrds = none →
        (∀ data : List Byte, exec (.cpl tag data) s = .next s) ∧ exec (.cplTimeout tag) s = .next s ∧
        (∀ st : BitVec 8, 1 ≤ st.toNat → st.toNat < 5 → exec (.cple tag st) s = .next s)))

/-! ## The mirror (16) -/

/-- Pairing: the module that is ready asks; an equal map and another slot make the lower slot the primary and the other
the shadow, with unknown scratchpads; a differing map, an equal slot or no bundle in time ends it. Losing the peer: a
primary goes on unprotected, a shadow that is not in sync is detached, one in sync is promoted, or asks its witness
first, which promotes it only when the peer's record is older than its own frame (16 R527, R528, R546-R551). -/
def Obligations.MirrorPairsAndPromotes : Prop :=
  ∀ s : State,
    (s.flag F.mirCtl_en = true → s.flag F.mirCtl_solo = false → mirBundles s ≠ [] → mirState s = 0 →
      ∃ t, exec .pairingStart s = .next t ∧ mirState t = 1 ∧
        t.bundles = (sendPeer { kind := .mpair, tag := s.get F.mirStat_slot, addr := (s.reg .fmcMap 0).toNat % 2 ^ 32,
                                status := 1, slots := 2 } s).bundles ∧
        regElse .mirStat 0 s t ∧ regsBut [.mirStat] s t ∧
        t = { s with regs := t.regs, recs := t.recs, bundles := t.bundles, mgt := t.mgt }) ∧
    (s.flag F.mirCtl_en = true → mirState s = 0 → mirBundles s = [] →
      ∃ t, exec .pairingTimeout s = .next t ∧ mirState t = 2 ∧ regsBut [.mirStat] s t ∧
        t = { s with regs := t.regs, recs := t.recs, mgt := t.mgt }) ∧
    (∀ (slot : BitVec 2) (map : Word32) (st : BitVec 4) (t : State), mirState s = 0 → mirState t = 1 →
      exec .pairingStart s = .next t → exec (.mpair slot map st) s = exec (.mpair slot map st) t) ∧
    (∀ (slot : BitVec 2) (map : Word32) (st : BitVec 4), mirState s = 1 →
      let same := map.toNat = (s.reg .fmcMap 0).toNat % 2 ^ 32
      let goes := fun (n : Nat) (P : State → Prop) => ∃ t, exec (.mpair slot map st) s = .next t ∧ mirState t = n ∧
        t.get F.mirStat_peer_slot = slot.toNat ∧ P t
      (¬same → goes 2 (fun t => t.flag F.mirEvtStat_map_mismatch = true ∧ memKept s t ∧ coresBut [] s t)) ∧
      (same → slot.toNat = s.get F.mirStat_slot → goes 2 (fun t => t.flag F.mirEvtStat_slot_conflict = true ∧ memKept s t ∧ coresBut [] s t)) ∧
      (same → slot.toNat ≠ s.get F.mirStat_slot → st ≠ 5 → s.get F.mirStat_slot < slot.toNat → goes 4 (fun t =>
        t.flag F.mirResync_busy = true ∧ t.get F.mirResync_pct = 0 ∧ t.mirror.first = s.frame ∧ t.mirror.acked = none ∧
        memKept s t ∧ coresBut [] s t)) ∧
      (same → slot.toNat ≠ s.get F.mirStat_slot → (st = 5 ∨ slot.toNat < s.get F.mirStat_slot) → goes 6 (fun t =>
        t.mirror.journal = [] ∧ t.mirror.markers = [] ∧ t.mirror.applied = false ∧
        (∀ c, c < 1152 → t.undef.any (fun u => u.pad == c) = true) ∧ coresBut [] s t))) ∧
    (∀ (r : TickReport) (reason : BitVec 16),
      let lost := fun o : Host.Outcome State Fault Refusal => ∃ t, o = .next t ∧ mirState t = 5 ∧
        t.flag F.mirEvtStat_peer_lost = true ∧ t.mirror.lost = true ∧ t.mirror.snap = none ∧ coresBut [] s t ∧ memKept s t
      let detached := fun o : Host.Outcome State Fault Refusal => ∃ t, o = .next t ∧ mirState t = 8 ∧
        t.flag F.mirEvtStat_detached = true ∧ t.mirror.journal = [] ∧ t.mirror.markers = [] ∧ coresBut [] s t ∧ memKept s t
      let promoted := fun o : Host.Outcome State Fault Refusal => ∃ t, o = .next t ∧ mirState t = 5 ∧
        t.flag F.mirEvtStat_promoted = true ∧ t.mirror.journal = [] ∧ t.mirror.markers = [] ∧ t.get F.klnFrameCtl_src = 0 ∧
        t.frame = (s.frame + (if s.flag F.klnFrameCtl_tick_en then 1 else 0)) % 2 ^ 48
      let asks := s.mirror.waitsWitness = true
      (isPrimary s = true → lost (exec (.heartbeatTimeout r) s) ∧ lost (exec (.mgasp reason r) s)) ∧
      (mirState s = 6 → detached (exec (.heartbeatTimeout r) s) ∧ detached (exec (.mgasp reason r) s)) ∧
      (mirState s = 7 → promoted (exec (.mgasp reason r) s) ∧
        (s.flag F.mirCtl_witness_en = false → promoted (exec (.heartbeatTimeout r) s)) ∧
        (s.flag F.mirCtl_witness_en = true → ∃ t, exec (.heartbeatTimeout r) s = .next t ∧ mirState t = 9 ∧
          t.mirror.waitsWitness = true ∧ coresBut [] s t ∧ memKept s t)) ∧
      (mirState s = 9 → asks → promoted (exec (.mgasp reason r) s) ∧
        (∀ hv : HostView,
          let a := s.get F.mirPeerWitnessAddr_addr * 16
          let record := engineRead ⟨unitId 8 (35, 4) 0x200, 0⟩ a 16 hv s
          (isHostAddr a = true → ∀ x, record.2 = some x →
            (leAt x 0 6 < s.frame → promoted (exec (.witnessRead hv r) s)) ∧
            (s.frame ≤ leAt x 0 6 → detached (exec (.witnessRead hv r) s)) ∧
            x = (List.range 16).map (fun i => hostByte hv (a + i))) ∧
          (isHostAddr a = false ∨ record.2 = none → detached (exec (.witnessRead hv r) s)))))

/-- Mirror traffic: an MFWD enters the journal of a module that receives; a marker takes its bundle's entries, and a
complete one applies them, closes and acknowledges its epoch; acknowledgements at the primary end what waits for them; a
bundle with every home's close mark has its marker. SNAPSHOT and RESYNC as they run, heartbeats, and the holds of risk
inputs (16 R531-R544, R547, R553). -/
def Obligations.MirrorTrafficApplies : Prop :=
  ∀ s : State,
    let m := s.mirror
    (∀ (v : Via) (a : DevAddr) (k : BitVec 2) (data : List Byte) (poison : Bool),
      let o := firstOn v
      let e : JEntry := ⟨o, k.toNat, a.toNat, data, poison, none⟩
      (receives s = true → mirTwice s v.first = false → ∃ t, exec (.mfwd v a k data poison) s = .next t ∧
        t.mirror = { m with journal := t.mirror.journal, recvd := mput m.recvd o (mget m.recvd o 0 + 1) } ∧
        (k ≠ 1 → t.mirror.journal = m.journal ++ [e]) ∧
        (k = 1 → t.mirror.journal =
          m.journal.filter (fun x => !(x.kind == 1 && x.mark.isNone && x.addr == a.toNat)) ++ [e]) ∧
        regsBut [.mshMonFlits] s t ∧ t = { s with regs := t.regs, freeCount := t.freeCount, mirror := t.mirror }) ∧
      (receives s = false → exec (.mfwd v a k data poison) s = .next s) ∧
      (∀ p, v.first = some p → (s.bundle .mir p.1).rxAny = true → ((s.bundle .mir p.1).rxSeq + 4096 - p.2.toNat) % 4096 < 2048 →
        exec (.mfwd v a k data poison) s = .next s ∧
        (∀ (f p : BitVec 48) (n : Nat) (use : Byte), exec (.mepoch v f k n p use) s = .next s) ∧
        (∀ f : BitVec 48, exec (.mack f ⟨k, v⟩) s = .next s))) ∧
    (∀ (v : Via) (f o : BitVec 48) (n : Nat) (use : Byte), receives s = true → m.markers = [] → mirTwice s v.first = false →
      (∀ i, i < 3 → (s.bundle .mir i).hold = false) →
      let b := firstOn v
      let x : Marker := ⟨b, f.toNat, 0, o.toNat, use.toNat, mget m.recvd b 0 == n⟩
      (natBit use.toNat ((b + 1) % 3) = true → exec (.mepoch v f 0 n o use) s = .next { s with mirror := { m with
        journal := m.journal.map (fun e => if e.mark.isNone ∧ e.bundle = b then { e with mark := some (f.toNat, 0) } else e)
        recvd := mput m.recvd b 0, markers := [x] } }) ∧
      (∀ e, use.toNat = 2 ^ b → mget m.recvd b 0 = n → m.journal = [e] → e.bundle = b → e.mark = none → e.poison = false →
        MemOk s → goodRange e.addr e.data.length s →
        ∃ t, exec (.mepoch v f 0 n o use) s = .next t ∧ t.mirror.journal = [] ∧ t.mirror.markers = [] ∧
          t.mirror.openFrame = o.toNat ∧ t.mirror.applied = true ∧ t.get F.mirEpochClosed_frame = f.toNat ∧
          t.get F.mirEpochAck_frame = f.toNat ∧ t.bytes e.addr e.data.length = e.data ∧
          (∀ x, (sliced x < sliced e.addr ∨ sliced e.addr + e.data.length ≤ sliced x) → t.byte x = s.byte x) ∧
          t.bundles = (sendPeer { kind := .mack, addr := f.toNat, tag := 0 } s).bundles ∧ coresBut [] s t)) ∧
    (∀ (f : BitVec 48) (v : Via), isPrimary s = true → mirTwice s v.first = false →
      (∃ t, exec (.mack f ⟨0, v⟩) s = .next t ∧ t.get F.mirEpochAck_frame = f.toNat ∧ t.mirror = { m with acked := some f.toNat } ∧
        regsBut [.mirEpochAck] s t ∧ t = { s with regs := t.regs, mirror := t.mirror }) ∧
      (∀ (x : Snap) (l : CmdList), m.snap = some x → x.marked = true → x.cut = f.toNat → s.list x.queue x.start = some l →
        ∃ t l', exec (.mack f ⟨1, v⟩) s = .next t ∧ t.mirror.snap = none ∧ t.mirror.shipped = [] ∧
          t.get F.mirSnapLast_frame = f.toNat ∧
          t.get F.mirSnapGran_granules = (x.done ++ m.shipped).dedup.length % 2 ^ 32 ∧
          t.list x.queue x.start = some l' ∧ l'.done = l.done + 1 ∧ l'.busy = false ∧ coresBut [] s t ∧ memKept s t) ∧
      (∃ t, exec (.mack f ⟨2, v⟩) s = .next t ∧ mirState t = 3 ∧ t.flag F.mirEvtStat_resync_done = true ∧
        t.mirror.resync = none ∧ coresBut [] s t ∧ memKept s t)) ∧
    (∀ (b : BundleId) (src : Fin 1184), isPrimary s = true → m.behind = [] →
      let k := mget m.arrived (b.val, src.val) 0
      let i := max (mget m.marked b 0) m.gone
      let A := mput m.arrived (b.val, src.val) (k + 1)
      k < m.gone + m.closing.length →
      ((∃ x, x < 1184 ∧ mget A (b.val, x) 0 ≤ i) →
        exec (.closeMarkArrival b ⟨src, .clean⟩) s = .next { meter (markXY src) (bundleXY .mir b) 0 1 s with
          mirror := { m with arrived := A } }) ∧
      (∀ e, (∀ x, x < 1184 → i < mget A (b.val, x) 0) → m.closing[i - m.gone]? = some e → natBit e.2.2 b = true →
        usable s .mir b = true →
        ∃ t, exec (.closeMarkArrival b ⟨src, .clean⟩) s = .next t ∧ mget t.mirror.marked b 0 = i + 1 ∧
          mget t.mirror.sent b 0 = 0 ∧ t.bundle .mir b ≠ s.bundle .mir b ∧ coresBut [] s t ∧ memKept s t)) ∧
    (∀ (f a : BitVec 48) (st : BitVec 4) (risk : BitVec 2), isPrimary s = true ∨ receives s = true →
      exec (.mhb f st risk a) s = .next { s with mirror := { m with peerState := st.toNat } }) ∧
    (∀ (q : QueueId) (hv : HostView) (l : CmdList) (b : List Byte) (s1 : State), starts q hv l b s s1 →
      (leAt b 0 1 = 0x40 → engineOf q = 10 → leAt b 1 1 = 0 → zeroBytes b 2 64 = true → mirState s1 = 3 → m.snap = none →
        ∃ t, exec (.snapshot q hv) s = .next t ∧ t.mirror = { s1.mirror with
            snap := some { queue := q, start := l.start, cut := l.fired.getD s1.frame, todo := s1.mirror.dirty } } ∧
          t.list q l.start = some { l with idx := l.idx + 1, busy := true, cmd := [] } ∧
          t = { s1 with turn := t.turn, queues := t.queues, mirror := t.mirror }) ∧
      (leAt b 0 1 = 0x41 → engineOf q = 10 → zeroBytes b 1 64 = true → isPrimary s1 = true →
        ∃ t, exec (.resync q hv) s = .next t ∧ t.mirror = { s1.mirror with resync := some (some q.val), resyncPos := 0 } ∧
          t.flag F.mirResync_busy = true ∧ t.get F.mirResync_pct = 0 ∧
          t.list q l.start = some { l with idx := l.idx + 1, busy := true, cmd := [] } ∧ regsBut [.mirResync] s1 t ∧
          t = { s1 with regs := t.regs, turn := t.turn, queues := t.queues, mirror := t.mirror })) ∧
    (∀ (q : QueueId) (hv : HostView) (x : Snap), m.snap = some x → x.queue = q.val →
      let same := fun t : State => coresBut [] s t ∧ memKept s t ∧ regsBut [.mshMonFlits] s t
      (x.broken = false → ∀ g rest, x.todo = g :: rest → ∃ t, exec (.snapshot q hv) s = .next t ∧ g ∉ t.mirror.dirty ∧
        t.mirror.snap = some { x with todo := rest, done := x.done ++ [g] } ∧ same t) ∧
      (x.broken = false → x.todo = [] → x.marked = false → ∃ t, exec (.snapshot q hv) s = .next t ∧
        t.mirror.snap = some { x with marked := true } ∧ same t) ∧
      (x.broken = true → ∀ l, s.list x.queue x.start = some l → ∃ t l', exec (.snapshot q hv) s = .next t ∧
        t.mirror.snap = none ∧ (∀ g, g ∈ t.mirror.dirty ↔ g ∈ m.dirty ∨ g ∈ x.done) ∧
        t.list x.queue x.start = some l' ∧ l'.status = 5 ∧ l'.ended = some s.frame ∧ coresBut [] s t ∧ memKept s t)) ∧
    (isPrimary s = true → s.flag F.mirResync_busy = true →
      (s.get F.mirCtl_mode = 1 ∨ (s.get F.mirCtl_mode = 0 ∧ m.epochs = true ∧ m.lost = false)) →
      ∃ t, exec .resyncStreamEnd s = .next t ∧
      t.flag F.mirResync_busy = false ∧ t.get F.mirResync_pct = 100 ∧ regsBut [.mirResync, .mshMonFlits] s t ∧
      coresBut [] s t ∧ memKept s t ∧
      (m.closing = [] → m.behind = [] → ∀ b, b < 3 → usable s .mir b = true → mget t.mirror.sent b 0 = 0)) ∧
    (let risk := fun (i : Fin 5) (x : Mirror) => exec (.riskHoldExpiry i) s = .next { s with mirror := x }
     risk 0 { m with riskReq := s.flag F.hrtStat_req38 } ∧ risk 1 { m with riskSag := false } ∧
     risk 2 { m with riskDroop := false } ∧ risk 3 { m with riskRes := m.riskRes - 1 } ∧
     risk 4 { m with riskCeHeld := ceLevel s })

/-! ## Hearth and the cones (17, 00 R18, 01 R36, R42) -/

/-- Raising and removing the rails: cold sequencing resets everything but fuses and flash, the rails wait for the
reference clock, the sixth ends the sequence with PWR_GOOD and the sampled slot, a timeout removes the rails, and one
retry follows the first failure only. The bands of the mean of 8 samples: within 40.0-56.0 V nothing but the figures
changes, 34.0-38.0 V requests a throttle, 30.0-34.0 V halts the module, and below 30.0 V the rails go (00 R18, 01 R36, R42,
17 R559-R564, R568-R574). That the mean is taken with what samples there are, and cut to a whole number, is the model's. -/
def Obligations.PowerSequencesAndBands : Prop :=
  ∀ s : State,
    let h := s.hearth
    (h.sequencing = false → h.rails = 0 → h.failures = 0 → ∃ t, exec .coldSequencing s = .next t ∧
      t.hearth = { ({} : Hearth) with sequencing := true, samples := h.samples } ∧ t.pins.pwrGood = false ∧
      t.mem = [] ∧ t.bad = [] ∧ t.cores = [] ∧ t.queues = [] ∧ t.recs = [] ∧ t.mirror = {} ∧ t.kiln = {} ∧ t.cones = {} ∧
      (∀ (r : Reg) (i : Nat), (r = .secSvn ∨ r = .secDevid → t.reg r i = s.reg r i) ∧
        (r ≠ .secSvn → r ≠ .secDevid → r ≠ .nmcStat → t.reg r i = BitVec.ofNat 64 (coldValue r))) ∧
      t.upkeep.fuses = s.upkeep.fuses ∧ t.sec.slot = s.sec.slot ∧ t.sec.lms = s.sec.lms ∧ t.sec.keys = s.sec.keys ∧
      t.sec.debugKey = s.sec.debugKey ∧ t.ras.history = s.ras.history) ∧
    (h.sequencing = true ∨ h.rails ≠ 0 → exec .coldSequencing s = .next s) ∧
    exec .refclkPresent s = .next { s with pins := { s.pins with refclk := true } } ∧
    (h.sequencing = true → s.pins.refclk = true →
      (h.rails < 5 → exec .railRegulated s = .next { s with hearth := { h with rails := h.rails + 1 } }) ∧
      (h.rails = 5 → ∃ t, exec .railRegulated s = .next t ∧ t.pins.pwrGood = true ∧
        t.hearth = { h with rails := 6, sequencing := false, failures := 0 } ∧
        t.get F.glbSlot_slot_id = s.pins.slot.toNat ∧ t.get F.mirStat_slot = s.pins.slot.toNat ∧
        regsBut [.glbSlot, .mirStat] s t ∧ coresBut [] s t ∧ memKept s t) ∧
      (∃ t, exec .railTimeout s = .next t ∧ t.hearth.rails = 0 ∧ t.hearth.sequencing = false ∧
        t.hearth.failures = h.failures + 1 ∧ t.pins.pwrGood = false ∧ t.mem = [] ∧ t.cores = [])) ∧
    (s.pins.refclk = false → exec .railRegulated s = .next s ∧ exec .railTimeout s = .next s) ∧
    (h.sequencing = false → h.rails = 0 →
      (h.failures = 1 → exec .railSequenceRetry s = .next { s with hearth := { h with sequencing := true } }) ∧
      (h.failures = 2 → exec .railSequenceRetry s = .next s)) ∧
    (∀ (v i : BitVec 16) (a b : Nat),
      let xs := (((v, i) :: h.samples).take 8).map (fun x => x.1.toNat)
      let m := xs.sum / xs.length
      (h.rails = 6 →
        (40000 ≤ m → m ≤ 56000 → s.get F.hrtStat_band = 2 → s.flag F.hrtStat_req38 = false → h.sag = none → h.swell = none →
          s.get F.hrtEvtThr_sag_mv ≤ m → m ≤ s.get F.hrtEvtThr_swell_mv →
          ∃ t, exec (.hearthSample v i a b) s = .next t ∧ t.get F.hrtVin_v_mv = m ∧ t.get F.hrtStat_band = 2 ∧
            t.hearth.samples = ((v, i) :: h.samples).take 8 ∧ regsBut [.hrtVin, .hrtEnergy, .hrtStat] s t ∧ coresBut [] s t ∧
            memKept s t ∧ t.recs = s.recs) ∧
        (34000 ≤ m → m < 38000 → s.get F.hrtStat_band ≠ 6 → s.flag F.hrtStat_req38 = false →
          ∃ t, exec (.hearthSample v i a b) s = .next t ∧ t.get F.hrtStat_band = 5 ∧ t.flag F.hrtStat_req38 = true ∧
            t.get F.klnThrottle_hearth = 1 ∧ t.flag F.hrtEvtStat_low38 = true ∧ t.mirror.riskReq = true ∧ coresBut [] s t ∧
            memKept s t) ∧
        (30000 ≤ m → m < 34000 → s.get F.hrtStat_band ≠ 6 → mirState s ≠ 10 → s.queues = [] →
          ∃ t, exec (.hearthSample v i a b) s = .next t ∧ t.get F.hrtStat_band = 6 ∧ t.flag F.hrtEvtStat_halt = true ∧
            mirState t = 10 ∧ t.flag F.hrtStat_halted = true ∧ (∀ c, (t.core c).run ≠ .running) ∧ memKept s t) ∧
        (m < 30000 → ∃ t, exec (.hearthSample v i a b) s = .next t ∧ t.hearth.rails = 0 ∧ t.pins.pwrGood = false ∧
          t.mem = [] ∧ t.cores = [])) ∧
      (h.rails = 0 → h.sequencing = false → m < 30000 →
        ∃ t, exec (.hearthSample v i a b) s = .next t ∧ t.hearth.failures = 0 ∧ memKept s t)) ∧
    (let m := s.get F.hrtVin_v_mv
     (m ≤ 39000 → exec .req38End s = .next s) ∧
     (s.flag F.hrtStat_req38 = true → 39000 < m →
      ∃ t, exec .req38End s = .next t ∧ t.flag F.hrtStat_req38 = false ∧
        t.get F.hrtStat_band = (if s.get F.hrtStat_band ≠ 5 then s.get F.hrtStat_band else if m < 40000 then 1 else if m ≤ 56000 then 2 else if m ≤ 60000 then 3 else 4) ∧
        regsBut [.hrtStat] s t ∧ t = { s with regs := t.regs, mgt := t.mgt }))

/-- Measurement, phases and set points, temperatures and droop: the magnitudes of a ripple window, as the model computes
them (log entry 37); captures; phases shed to what the current needs, after 8 frames that fewer would have served; the trim
of a set point by 5 mV within 720-780 mV; readings below the trip only enter the
cones and one at it halts the module; a latch's readings and requests; requests that fall, and droop trips, which
abandon a protected operation and, the third time, stop the module (17 R566, R576, R579-R587, 19 R650). -/
def Obligations.SensorsMeasureAndTrip : Prop :=
  ∀ s : State,
    let h := s.hearth
    let c := s.cones
    (∀ u1 u2 u3 u4 : Bool, (h.windowDone = none → exec (.rippleWindow u1 u2 u3 u4) s = .next s) ∧
      (∀ w, h.windowDone = some w →
        let m := if s.flag F.hrtCtl_mains then 6 else 5
        ∃ t, exec (.rippleWindow u1 u2 u3 u4) s = .next t ∧ t.get F.hrtHarm0_h1 = rippleOf w m u1 ∧
          t.get F.hrtHarm0_h2 = rippleOf w (2 * m) u2 ∧ t.get F.hrtHarm1_h3 = rippleOf w (3 * m) u3 ∧
          t.get F.hrtHarm1_h4 = rippleOf w (4 * m) u4 ∧
          onlyRegs [.hrtHarm0, .hrtHarm1] { s with hearth := { h with windowDone := none } } t)) ∧
    (∀ v : Word32, natBit v.toNat 29 = false → ∃ t, exec (.waveArm v) s = .next t ∧ t.flag F.hrtWaveCtl_arm = true ∧
      t.flag F.hrtWaveCtl_done = false ∧ t.hearth = { h with capturing := true, taken := 0, trig := none, pairs := [] } ∧
      (h.capturing = false → t.get F.hrtWaveCtl_mask = natBits v.toNat 28 24 ∧ t.get F.hrtWaveCtl_pre = natBits v.toNat 13 0) ∧
      regsBut [.hrtWaveCtl] s t ∧ t = { s with regs := t.regs, hearth := t.hearth }) ∧
    (h.capturing = true → h.trig = none → ∃ t, exec .waveSwTrig s = .next t ∧ t.hearth = { h with trig := some (h.taken - 1) } ∧
      t.get F.hrtWaveTime_time_ns = s.now % 2 ^ 64 ∧ regsBut [.hrtWaveTime] s t ∧
      t = { s with regs := t.regs, hearth := t.hearth }) ∧
    (h.capturing = false → exec .waveSwTrig s = .next s) ∧
    (∀ x, h.capturing = true → h.trig = some x → x + 16384 ≤ h.taken + s.get F.hrtWaveCtl_pre →
      ∃ t, exec .waveCaptureDone s = .next t ∧ t.flag F.hrtWaveCtl_done = true ∧ t.flag F.hrtWaveCtl_arm = false ∧
        t.flag F.hrtEvtStat_wave = true ∧ t.hearth.capturing = false ∧
        t.hearth.wave = List.replicate (16384 - h.pairs.length) 0 ++ h.pairs.reverse ∧ coresBut [] s t ∧ memKept s t) ∧
    (∀ amps : Nat, s.flag F.hrtCtl_shed_en = true → h.rails = 6 → h.atTick = true → h.phases0 ≤ 24 → h.phases1 ≤ 24 →
      let need := min 24 (max 4 ((amps + 34) / 35 + 2))
      let out := fun (d : Fin 2) (x : Hearth) => ∃ t, exec (.phaseShed d amps) s = .next t ∧
        t.hearth = x ∧ t.get F.hrtStat_phases = x.phases0 + x.phases1 ∧ regsBut [.hrtStat] s t ∧
        t = { s with regs := t.regs, hearth := t.hearth }
      (8 ≤ h.fewer0 → out 0 { h with phases0 := min h.phases0 need, fewer0 := 0 }) ∧
      (8 ≤ h.fewer1 → out 1 { h with phases1 := min h.phases1 need, fewer1 := 0 }) ∧
      (h.fewer0 < 8 → exec (.phaseShed 0 amps) s = .next s) ∧ (h.fewer1 < 8 → exec (.phaseShed 1 amps) s = .next s)) ∧
    (∀ amps : Nat, s.flag F.hrtCtl_shed_en = false ∨ h.atTick = false → ∀ d, exec (.phaseShed d amps) s = .next s) ∧
    (∀ (d : Fin 2) (sum : Nat),
     let mean := if d = 0 then h.mean0 else h.mean1
     let ticks := if d = 0 then h.trimTicks0 else h.trimTicks1
     let f := Config.procFused d * 12 * 6250
     let mv := if d = 0 then s.get F.hrtVcore_die0_mv else s.get F.hrtVcore_die1_mv
     let new := if 100 * sum ≤ 99 * f then min 780 (mv + 5) else if 101 * f ≤ 100 * sum then max 720 (mv - 5) else mv
     (h.atTick = false ∨ ticks < 6250 ∨ mean = none → exec (.vcoreTrim d) s = .next s) ∧
     (h.atTick = true → 6250 ≤ ticks → mean = some sum → ∃ t, exec (.vcoreTrim d) s = .next t ∧
       t.get F.hrtVcore_die0_mv = (if d = 0 then new else s.get F.hrtVcore_die0_mv) ∧
       t.get F.hrtVcore_die1_mv = (if d = 0 then s.get F.hrtVcore_die1_mv else new) ∧
       t.hearth = (if d = 0 then { h with mean0 := none, trimTicks0 := 0 } else { h with mean1 := none, trimTicks1 := 0 }) ∧
       regsBut [.hrtVcore] s t ∧ t = { s with regs := t.regs, hearth := t.hearth })) ∧
    (∀ temps : List (BitVec 16),
      let trips := fun (o : Host.Outcome State Fault Refusal) (P : State → Prop) => ∃ t, o = .next t ∧
        t.flag F.conEvtStat_trip = true ∧ mirState t = 10 ∧ t.flag F.hrtStat_halted = true ∧ memKept s t ∧ P t
      ((∀ x, x ∈ temps.take 96 → x.toInt < 8 * (c.tripC : Int)) →
        exec (.thermalConversion temps) s = .next { s with cones := { c with therm := temps.take 96 } }) ∧
      ((∀ x, x ∈ temps.take 40 → x.toInt < 8 * ((c.dramC : Int) + 15)) →
        exec (.dramReading temps) s = .next { s with cones := { c with dram := temps.take 40 } }) ∧
      (∀ x, mirState s ≠ 10 → s.queues = [] →
        (x ∈ temps.take 96 → 8 * (c.tripC : Int) ≤ x.toInt →
          trips (exec (.thermalConversion temps) s) (fun t => t.cones = { c with therm := temps.take 96 })) ∧
        (x ∈ temps.take 40 → 8 * ((c.dramC : Int) + 15) ≤ x.toInt →
          trips (exec (.dramReading temps) s) (fun t => t.cones = { c with dram := temps.take 40 })))) ∧
    (∀ counts : List (BitVec 24),
      let hot := fun (l : List (BitVec 16)) (thr n : Nat) => ∃ x, x ∈ l ∧ 8 * ((thr : Int) + 5 * ((n : Int) - 1)) ≤ x.toInt
      let cool := fun (l : List (BitVec 16)) (thr d : Nat) => ∀ x, x ∈ l → x.toInt < 8 * ((thr : Int) + 5 * ((d : Int) - 1) - 3)
      (s.flag F.klnFrameCtl_tick_en = true → exec (.idleLatchTimer counts) s = .next s) ∧
      (s.flag F.klnFrameCtl_tick_en = false → c.dieD ≤ 3 → c.dramD ≤ 3 → c.droopD ≤ 3 →
        ∃ t, exec (.idleLatchTimer counts) s = .next t ∧
          (∀ i, i < c.therm.length → t.get F.conTherm_temp i = (c.therm.getD i 0).toNat) ∧
          (∀ i, i < c.dram.length → t.get F.conDram_temp i = (c.dram.getD i 0).toNat) ∧
          (∀ n, 1 ≤ n → n ≤ 3 →
            (n ≤ t.cones.dieD ↔ n ≤ c.dieD ∨ hot c.therm (s.get F.conThermCtl_thr_c) n) ∧
            (n ≤ t.cones.dramD ↔ n ≤ c.dramD ∨ hot c.dram (s.get F.conThermCtl_dram_c) n)) ∧
          t.cones.droopD = (if 16 ≤ c.trips then 1 else c.droopD) ∧ t.cones.trips = 0 ∧
          t.cones.droopLeft = (if 16 ≤ c.trips then 1000 else c.droopLeft - 1) ∧
          t.cones.tripC = s.get F.conThermCtl_trip_c ∧ t.cones.dramC = s.get F.conThermCtl_dram_c ∧
          t.cones.dieCool = (if t.cones.dieD = c.dieD ∧ 0 < c.dieD ∧ cool c.therm (s.get F.conThermCtl_thr_c) c.dieD
            then c.dieCool + 1 else 0) ∧
          t.cones.dramCool = (if t.cones.dramD = c.dramD ∧ 0 < c.dramD ∧ cool c.dram (s.get F.conThermCtl_dram_c) c.dramD
            then c.dramCool + 1 else 0) ∧
          t.get F.klnThrottle_cone = max t.cones.dieD (max t.cones.dramD t.cones.droopD) ∧
          t.get F.conStat_d = t.get F.klnThrottle_cone ∧ t.get F.conSnapTime_time_ns = s.now % 2 ^ 64 ∧
          coresBut [] s t ∧ memKept s t)) ∧
    (let shown := fun (x : Cones) (t : State) => t.cones = x ∧ t.get F.klnThrottle_cone = max x.dieD (max x.dramD x.droopD) ∧
       t.get F.conStat_d = max x.dieD (max x.dramD x.droopD) ∧ regsBut [.klnThrottle, .conStat] s t ∧
       t = { s with regs := t.regs, cones := t.cones }
     c.dieD ≤ 3 → c.dramD ≤ 3 → c.droopD ≤ 3 →
      (0 < c.dieD → 6250 ≤ c.dieCool →
        ∃ t, exec (.throttleRequestFall false) s = .next t ∧ shown { c with dieD := c.dieD - 1, dieCool := 0 } t) ∧
      (0 < c.dramD → 6250 ≤ c.dramCool →
        ∃ t, exec (.throttleRequestFall true) s = .next t ∧ shown { c with dramD := c.dramD - 1, dramCool := 0 } t) ∧
      (c.dieCool < 6250 → exec (.throttleRequestFall false) s = .next s) ∧
      (c.dramCool < 6250 → exec (.throttleRequestFall true) s = .next s) ∧
      (0 < c.droopLeft → exec .droopRequestEnd s = .next s) ∧
      (c.droopLeft = 0 → ∃ t, exec .droopRequestEnd s = .next t ∧ shown { c with droopD := 0 } t)) ∧
    (∀ k : Fin 64,
      (h.rails ≠ 6 → exec (.droopTrip k) s = .next s) ∧
      (h.rails = 6 → ∃ t, exec (.droopTrip k) s = .next t ∧
        t.get F.conDroopCnt_trips = min (2 ^ 32 - 1) (s.get F.conDroopCnt_trips + 1) ∧ t.flag F.conEvtStat_droop = true ∧
        t.cones = { c with trips := c.trips + 1, droopLeft := if c.droopD = 1 then 1000 else c.droopLeft } ∧ t.mirror.riskDroop = true ∧
        oneRecord 1 (unitId 11 (1 + 3 * (k.val % 16), 3 + 6 * (k.val / 16)) (0x100 + k.val)) 0x80 [] s t ∧ memKept s t ∧
        (s.sec.checking = false → s.sec.burning = false → t.sec = s.sec ∧ coresBut [] s t) ∧
        (s.sec.checking = true ∨ s.sec.burning = true →
          t.get F.secGlitchCnt_count = min (2 ^ 32 - 1) (s.get F.secGlitchCnt_count + 1) ∧ t.flag F.secEvtStat_glitch = true ∧
          t.sec.burning = false ∧
          (s.sec.glitches < 2 → t.sec = { s.sec with glitches := s.sec.glitches + 1, burning := false } ∧ coresBut [] s t) ∧
          (2 ≤ s.sec.glitches → t.get F.secBootStat_state = 7 ∧ t.sec.firmware = false ∧
            ∀ x, (t.core x).run ≠ .running))))

/-! ## RAS (18) -/

/-- Records reach the RAS block in order and are numbered, written and queued; corrected ones of a unit and op under way
only count, until their window ends with one coalesced record; the host ring takes the next record while it has room; the
history keeps its hours; a fatal record halts the module. A parity error stops a compute core with its step suspect, or
halts the module for a service core. A fallow segment leaves the core as a launch finds it, records a pass, and a confirmed
failure withholds the core and makes suspect a step of it that has no record yet (18 R593, R595, R603-R617, 20 R657). -/
def Obligations.RecordsAreNumberedAndKept : Prop :=
  ∀ s : State,
    let u := s.ras
    let out := fun (o : Host.Outcome State Fault Refusal) (r : Rec) (co : Bool) (n : Nat) (rest : List Rec) (keys : List CoalKey) =>
      ∃ t, o = .next t ∧ recordWritten r co n s t ∧ t.ras.keys = keys ∧
        (r.sev = 1 → t.flag F.rasEvtStat_corrected = true) ∧ (r.sev = 2 → t.flag F.rasEvtStat_uncorrectable = true) ∧
        (r.sev ≠ 3 → t.recs = rest ∧ coresBut [] s t ∧ memKept s t) ∧
        (r.sev = 3 → mirState s ≠ 10 → s.queues = [] → t.flag F.rasEvtStat_fatal = true ∧ mirState t = 10 ∧
          t.flag F.hrtStat_halted = true ∧ (∀ c, (t.core c).run ≠ .running) ∧ memKept s t)
    (s.recs = [] → exec .errorRecord s = .next s) ∧
    (∀ (r : Rec) (rest : List Rec), s.recs = r :: rest →
      let same := fun k : CoalKey => k.unit == r.unit && k.op == r.op
      (r.sev ≠ 1 → out (exec .errorRecord s) r false 0 rest u.keys) ∧
      (r.sev = 1 → u.keys.any same = false →
        out (exec .errorRecord s) r false 0 rest (if u.keys.length < 64 then u.keys ++ [⟨r.unit, r.op, 0, none⟩] else u.keys)) ∧
      (r.sev = 1 → u.keys.any same = true → exec .errorRecord s = .next { s with
        recs := rest
        ras := { u with keys := u.keys.map (fun k => if same k then { k with count := k.count + 1, last := some r } else k) } })) ∧
    (∀ (unit : Word32) (op : BitVec 16) (k : CoalKey),
      let same := fun k : CoalKey => k.unit == unit.toNat && k.op == op.toNat
      let keys := u.keys.filter (fun k => !same k)
      u.keys.find? same = some k →
      (k.last = none → exec (.coalesceWindowExpiry unit op) s = .next { s with ras := { u with keys := keys } }) ∧
      (∀ r, k.last = some r → out (exec (.coalesceWindowExpiry unit op) s) r true k.count s.recs keys)) ∧
    (let j := s.get F.rasHringCtl_size_log2
     let room := (u.copied + 2 ^ 32 - s.get F.rasHringHead_consumed) % 2 ^ 32 < 2 ^ j
     let a := s.get F.rasHringBase_base * 4096 + 64 * (u.copied % 2 ^ j)
     (s.flag F.rasHringCtl_en = false → exec .hostRingCopy s = .next s) ∧
     (∀ (k n : Nat) (b : List Byte), s.flag F.rasHringCtl_en = true → (k, b) ∈ u.ring → leAt b 0 8 = n → u.nextCopy ≤ n →
       b.length = 64 → (∀ p, p ∈ u.ring → u.nextCopy ≤ leAt p.2 0 8 → n ≤ leAt p.2 0 8 ∧ (leAt p.2 0 8 = n → p.2 = b)) →
       (room → ∃ t, exec .hostRingCopy s = .next t ∧ t.ras = { u with copied := u.copied + 1, nextCopy := n + 1 } ∧
         coresBut [] s t ∧
         (MemOk s → goodRange a 64 s → hostQuiet s 1333 = true →
           t.bytes a 64 = b.take 63 ++ [BitVec.ofNat 8 ((u.copied / 2 ^ j + 1) % 2 * 128)] ∧
           (∀ x, (sliced x < sliced a ∨ sliced a + 64 ≤ sliced x) → t.byte x = s.byte x))) ∧
       (¬room → ∃ t, exec .hostRingCopy s = .next t ∧ t.flag F.rasEvtStat_hring_full = true ∧ onlyAlert [.rasEvtStat] s t))) ∧
    (s.sec.firmware = true → u.history.length + u.hourRecs.length ≤ 131071 →
      let now := u.hours + 1
      let writes := fun (h : List Hist) => { u with history := u.history ++ h, hourRecs := [], hours := now }
      ((∀ h, h ∈ u.hourRecs → h.ce = 0 ∧ h.ue = 0 ∧ h.fallow = 0 ∧ h.residue = 0) →
        exec .historyWrite s = .next { s with ras := writes (u.hourRecs.map (fun h => { h with hour := now })) }) ∧
      (∀ h : Hist, u.hourRecs = [h] →
        (∀ c : Nat, coreOfUnit h.unit = some c → c < 1152 → (0 < h.fallow ∨
            0 < h.residue ∧ ∃ x, x ∈ u.history ∧ 0 < x.hour ∧ x.hour ≠ now ∧ x.unit / 65536 = h.unit / 65536 ∧ 0 < x.residue) →
          ∃ t, exec .historyWrite s = .next t ∧ natBit (t.get F.rasRetired_cores (c / 32)) (c % 32) = true ∧
            c ∉ t.ras.withheld ∧ t.ras = { writes [{ h with hour := now, action := 2 }] with withheld := t.ras.withheld } ∧
            onlyRegs [.rasRetired] { s with ras := t.ras } t) ∧
        (∀ (n : TileId) (row bank : Nat), h.unit / 2 ^ 28 = 2 → h.action = 0 → row < 1024 → bank < 16 →
          sliced h.key = 0x0200_0000_0000 + n.val * 0x200_0000 + row * 32768 + bank * 2048 → regionOf h.key = .near →
          sliceOf h.key = n.val → s.flag F.nmcRepair_go n = false →
          mget s.upkeep.spares (16 * n.val + bank) 0 < 8 → mget s.upkeep.fuses (dramDie n) 0 < 512 →
          (0 < h.ue ∧ (∃ x, x ∈ u.history ∧ 0 < x.hour ∧ x.hour ≠ now ∧ x.unit = h.unit ∧ x.key = h.key ∧ 0 < x.ue) ∨
           0 < h.ce ∧ ∃ x y, x ∈ u.history ∧ y ∈ u.history ∧ now < x.hour + 72 ∧ x.hour < y.hour ∧ y.hour < now ∧ 0 < x.hour ∧
             x.unit = h.unit ∧ y.unit = h.unit ∧ x.key = h.key ∧ y.key = h.key ∧ 0 < x.ce ∧ 0 < y.ce) →
          ∃ t, exec .historyWrite s = .next t ∧ t.flag F.nmcRepair_go n = true ∧ t.flag F.nmcRepair_hard n = true ∧
            t.get F.nmcRepair_bank n = bank ∧ t.get F.nmcRepair_row n = row ∧ regElse .nmcRepair n s t ∧
            t.ras = writes [{ h with hour := now, action := 1 }] ∧ onlyRegs [.nmcRepair] { s with ras := t.ras } t))) ∧
    (∀ c : CoreId,
      (1152 ≤ c.val → mirState s ≠ 10 → s.queues = [] → ∃ t, exec (.parityHalt c) s = .next t ∧ mirState t = 10 ∧
        t.flag F.hrtStat_halted = true ∧ (∀ k, (t.core k).run ≠ .running) ∧ memKept s t) ∧
      (c.val < 1152 → (s.core c).run ≠ .running → exec (.parityHalt c) s = .next s) ∧
      (c.val < 1152 → (s.core c).run = .running → ∃ t, exec (.parityHalt c) s = .next t ∧ (t.core c).run = .parity ∧
        (t.core c).matq = [] ∧
        (let n := s.freeCount + if (s.core c).wait.midway then 1 else 0
         (s.core c).kernel = none → (∀ i, i < 32 → vreg t c i = Config.freeVec (n + 128 + i)) ∧
          (∀ d i, d < 2 → i < 1024 →
            mget (mget (t.core c).accs d {}).words i 0 = (Config.freeWord (n + 256 + 1024 * d + i)).setWidth 32)) ∧
        ((s.core c).wait.midway = true → t.undef.any (fun u => u.pad == c.val) = true) ∧
        ((s.core c).kernel = none → (s.core c).wait.midway = false → coresBut [c.val] s t ∧ memKept s t ∧ t.regs = s.regs) ∧
        (∀ (l : Launch), (s.core c).kernel = some (l.queue, l.start) → s.launches = [l] → c.val ∈ l.left → l.pairs = [] →
          replayOn s (l.queue % 16) = true → (s.list l.queue l.start).any (fun x => x.cut) = false →
          ∃ l', t.launches = [l'] ∧ fieldOf c ∈ l'.suspect ∧
            ∀ d, d ∈ l.left → (s.core d).ending = none → (t.core d).run ≠ .running))) ∧
    (∀ (c : TileId) (judged ok : Bool) (n : Fin 4),
      let f := fieldOf c
      let i := localOf c
      let k := mget u.segs c 0 + 1
      let recs := fun (l : List Rec) => l.map (fun r => (r.sev, r.unit, r.op, r.details))
      let done := fun (v : Ras) (t : State) =>
        (k < s.get F.rasFallowCtl_segs → t.ras = { v with segs := mput u.segs c k }) ∧
        (s.get F.rasFallowCtl_segs ≤ k → mget t.ras.passed c 0 = s.frame ∧ mget t.ras.segs c 0 = 0 ∧ c.val ∉ t.ras.failedCores ∧
          mget t.ras.next f 0 = (if (fallowNext { s with ras := v } f (i + 1)).isSome then i + 1 else 0))
      let left := fun t : State => coresBut [c.val] s t ∧ memKept s t ∧ (t.core c).v = [] ∧ (t.core c).tiles = [] ∧
        (scalar t c).g = [] ∧ (t.core c).accs = [] ∧ (t.core c).tprog = 0
      let fit := s.flag F.rasFallowCtl_en = true ∧ s.sec.firmware = true ∧ fallowIdle s c = true ∧ fallowCore s f = some i
      (c.val ∉ u.retesting → ¬fit → exec (.fallowSegment c judged ok n) s = .next s) ∧
      (c.val ∉ u.retesting → fit →
        (ok = true → ∃ t, exec (.fallowSegment c judged ok n) s = .next t ∧ t.get F.rasFallowStat_core f = i ∧ t.recs = s.recs ∧
          done u t ∧ left t) ∧
        (ok = false → judged = false → ∃ t, exec (.fallowSegment c judged ok n) s = .next t ∧ t.get F.rasFallowStat_core f = i ∧
          t.get F.rasFallowStat_state f = 2 ∧ t.recs = s.recs ∧ left t ∧ t.ras = { u with
            withheld := u.withheld.filter (· != c.val) ++ [c.val], retesting := u.retesting ++ [c.val] }) ∧
        (ok = false → ∀ t p, exec (.fallowSegment c false false n) s = .next t →
          exec (.fallowSegment c true false n) s = exec (.fallowSegment c true p n) t)) ∧
      (c.val ∈ u.retesting → n = 0 → ∃ t, exec (.fallowSegment c judged ok n) s = .next t ∧ t.get F.rasFallowStat_state f = 0 ∧
        recs t.recs = recs s.recs ++ [(1, unitId 0 (c.val % 48, c.val / 48) 0, 0x21, [])] ∧ left t ∧
        done { u with retesting := u.retesting.filter (· != c.val), withheld := u.withheld.filter (· != c.val) } t) ∧
      (c.val ∈ u.retesting → n ≠ 0 → s.launches = [] →
        (∀ (q start : Nat) (l : Launch), (s.list q start).isSome = true →
          pastSteps s c (mget u.passedAt c 0) = [(q, start, l)] → l.pairs = [] → replayOn s (ctxOf q) = true →
          ∃ t, exec (.fallowSegment c judged ok n) s = .next t ∧
            t.launches = [{ l with suspect := [f], suspectOp := 0x20, suspectCore := c.val, suspectEpc := 0 }]) ∧
        (pastSteps s c (mget u.passedAt c 0) = [] → ∃ t, exec (.fallowSegment c judged ok n) s = .next t ∧
          t.get F.rasFallowStat_state f = 0 ∧ t.ras.withheld = u.withheld ∧ c.val ∈ t.ras.failedCores ∧
          c.val ∉ t.ras.retesting ∧ mget t.ras.segs c 0 = 0 ∧
          mget t.ras.next f 0 = (if (fallowNext s f (i + 1)).isSome then i + 1 else 0) ∧
          oneRecord 2 (unitId 0 (c.val % 48, c.val / 48) 0) 0x20 (leBytes 6 (mget u.passed c 0) ++ leBytes 6 s.frame) s t ∧
          left t)))

/-! ## Boot, recovery and debug (19) -/

/-- The ROM starts, or enters recovery when it was asked to; the lowest failing check of an image decides its reason,
and an image without one runs from its sections; ready, or failed with the far memory; fuse bits and reservations of
leaves one at a time; a recovery stream, its check, its reflash and its end; the nonce, the token and the unlock of
debug, which holds the cores whose halt was asked for (19 R627-R638, R644, R647-R649, R651). The verdicts of signatures
are the sender's, and the form of a reservation's record is the model's (log entry 8). -/
def Obligations.BootChecksImages : Prop :=
  ∀ s : State,
    let b := s.sec
    let st := s.get F.secBootStat_state
    (s.hearth.rails = 6 → s.hearth.onDieFilled = true → s.resets.warm = false → s.pins.modResetN = true → st = 0 →
      (s.flag F.secBootCtl_rcv_next = false → ∃ t, exec .romStart s = .next t ∧ t.get F.secBootStat_state = 1 ∧
        t.sec = { b with checking := true } ∧ regsBut [.secBootStat] s t ∧ coresBut [] s t ∧ memKept s t) ∧
      (s.flag F.secBootCtl_rcv_next = true → ∃ t, exec .romStart s = .next t ∧ t.get F.secBootStat_state = 5 ∧
        t.get F.secBootStat_reason = 10 ∧ t.flag F.secBootCtl_rcv_next = false ∧ t.sec.checking = false ∧
        regsBut [.secBootStat, .secBootCtl] s t ∧ coresBut [] s t ∧ memKept s t)) ∧
    (s.pins.modResetN = false ∨ s.hearth.rails ≠ 6 → exec .romStart s = .next s) ∧
    (∀ r : ImageReport,
      (s.hearth.nearFilled = false → exec (.imageCheckDone r) s = .next s) ∧
      (s.hearth.nearFilled = true → st = 5 → b.checkWaits = true →
        ∃ t, exec (.imageCheckDone r) s = .next t ∧ streamChecked r (s.flag F.secRcvCtl_reflash) s t) ∧
      (b.checking = true → st = 1 → s.hearth.nearFilled = true →
        let m := slotImage b.slot
        let n := imageFault r m s
        (n = 0 → ∃ t, exec (.imageCheckDone r) s = .next t ∧ imageRuns m r.idOk false s t ∧
          (∀ x : Section, m.sections = [x] → s.bad = [] → MemOk s →
            let base := if x.target < 4 then 0x300_0000_0000 + (1152 + x.target) * 0x20_0000 + 0x1_0000
              else 0x200_0000_0000 + (if x.target = 4 then 0 else if x.target = 5 then 47 else if x.target = 6 then 1104 else 1151)
                * 0x200_0000 + 0x1F0_0000
            t.bytes (base + x.load) x.size = (b.slot.drop x.off).take x.size)) ∧
        (n ≠ 0 → ∃ t, exec (.imageCheckDone r) s = .next t ∧ t.get F.secBootStat_state = 5 ∧
          t.get F.secBootStat_reason = n ∧ t.sec.checking = false ∧ t.sec.firmware = b.firmware ∧ coresBut [] s t))) ∧
    (s.pins.modResetN = true → b.firmware = true → (st = 2 ∨ st = 3) → s.hearth.nearFilled = true →
      (s.get F.fmcGlbStat_fill = 2 → segmentsIn s = false ∨ b.distSet = false → exec .ready s = .next s) ∧
      (s.get F.fmcGlbStat_fill = 2 → segmentsIn s = true → b.distSet = true →
        ∃ t, exec .ready s = .next t ∧ t.get F.secBootStat_state = 4 ∧
        t.flag F.secEvtStat_ready = true ∧ t.sec = { b with burning := b.commit && decide (s.get F.secSvn_fused < s.get F.secBootStat_svn) } ∧
        coresBut [] s t ∧ memKept s t) ∧
      (s.get F.fmcGlbStat_fill = 3 → ∃ t, exec .ready s = .next t ∧ t.get F.secBootStat_state = 6 ∧
        t.get F.secBootStat_reason = 8 ∧ t.sec = b ∧ regsBut [.secBootStat] s t ∧ coresBut [] s t ∧ memKept s t)) ∧
    (b.firmware = false ∨ s.get F.fmcGlbStat_fill < 2 → exec .ready s = .next s) ∧
    (let n := s.get F.secSvn_fused
     let v := s.get F.secBootStat_svn
     (b.burning = true → n < v → v ≤ 64 → ∃ t, exec .fuseBurn s = .next t ∧ t.get F.secSvn_fused = n + 1 ∧
       t.sec = { b with burning := decide (n + 1 < v) } ∧ regsBut [.secSvn] s t ∧ t = { s with regs := t.regs, sec := t.sec }) ∧
     (b.burning = false ∨ v ≤ n → exec .fuseBurn s = .next s)) ∧
    (let lim := s.get F.secLmsLimit_limit
     (b.firmware = true → lim ≤ s.get F.secLms_q → ∃ t, exec .lmsReservation s = .next t ∧
       t.get F.secLmsLimit_limit = min (2 ^ 40 - 1) (lim + 1024) ∧ t.sec = { b with lms := t.sec.lms } ∧
       (∃ (p : Nat) (x : List Byte), p < 2048 ∧ (p, x) ∈ t.sec.lms ∧ lmsValid x = true ∧
         leAt x 0 8 = min (2 ^ 40 - 1) (lim + 1024) ∧
         (∀ o, lmsNewest s = some o → o.1 < 2048 → (o ∈ b.lms → o ∈ t.sec.lms) ∧ p = (o.1 + 1) % 2048 ∧
           leAt x 8 4 = (leAt o.2 8 4 + 1) % 2 ^ 32) ∧
         (lmsNewest s = none → p = 0 ∧ leAt x 8 4 = 1)) ∧
       regsBut [.secLmsLimit] s t ∧ t = { s with regs := t.regs, sec := t.sec }) ∧
     (s.get F.secLms_q < lim → exec .lmsReservation s = .next s)) ∧
    (∀ (v : Word32) (r : ImageReport), natBit v.toNat 28 = false →
      let len := natBits v.toNat 16 0
      let taken : Sec := { b with
        holder := some false, stream := b.stream ++ (List.range len).map (fun i => mget b.rcvBuf i 0) }
      let bytes := min (2 ^ 24 - 1) (s.get F.secRcvStat_bytes + len)
      (len = 0 ∨ 65536 < len → ∃ t, exec (.rcvGo v r) s = .next t ∧ t.get F.secRcvStat_state = 3 ∧
        t.get F.secRcvCtl_len = s.get F.secRcvCtl_len ∧ regsBut [.secRcvCtl, .secRcvStat] s t ∧ t = { s with regs := t.regs }) ∧
      (1 ≤ len → len ≤ 65536 →
        (st ≠ 5 ∨ b.holder = some true → ∃ t, exec (.rcvGo v r) s = .next t ∧ t.get F.secRcvStat_state = 3 ∧
          regsBut [.secRcvCtl, .secRcvStat] s t ∧ t = { s with regs := t.regs }) ∧
        (st = 5 → b.holder ≠ some true → s.get F.secRcvStat_state ≠ 1 → ∃ t, exec (.rcvGo v r) s = .next t ∧
          (natBit v.toNat 30 = false → t.get F.secRcvStat_state = 2 ∧ t.sec = taken ∧ t.get F.secRcvStat_bytes = bytes ∧
            regsBut [.secRcvCtl, .secRcvStat] s t ∧ t = { s with regs := t.regs, sec := t.sec }) ∧
          (natBit v.toNat 30 = true → s.hearth.nearFilled = false → t.get F.secRcvStat_state = 1 ∧
            t.sec = { taken with checkWaits := true } ∧ t.get F.secRcvStat_bytes = bytes ∧
            regsBut [.secRcvCtl, .secRcvStat] s t ∧ t = { s with regs := t.regs, sec := t.sec }) ∧
          (natBit v.toNat 30 = true → s.hearth.nearFilled = true →
            streamChecked r (natBit v.toNat 29) { s with sec := taken } t)))) ∧
    ((b.holder = none ∨ b.reflashing = true → exec .rcvAbort s = .next s) ∧
     (b.holder ≠ none → b.reflashing = false → ∃ t, exec .rcvAbort s = .next t ∧ t.get F.secRcvStat_state = 0 ∧
       t.get F.secRcvStat_bytes = 0 ∧ t.sec = { b with holder := none, staged := none, stream := [], checkWaits := false } ∧
       regsBut [.secRcvStat] s t ∧ t = { s with regs := t.regs, sec := t.sec })) ∧
    ((b.staged = none ∨ b.reflashing = false → exec .reflashDone s = .next s) ∧
     (∀ (m : Image) (id : Bool), b.staged = some (m, id) → b.reflashing = true →
       let slot := m.body ++ m.sig
       (b.firmware = true → ∃ t, exec .reflashDone s = .next t ∧
         t.sec = { b with slot := slot, reflashing := false, staged := none, stream := [] } ∧
         t.mgt.pendingActivation = true ∧ t.mgt.updating = false ∧ t.mgt.replies = s.mgt.replies ++ [⟨1, 0x18, 0, []⟩] ∧
         t.regs = s.regs ∧ coresBut [] s t) ∧
       (b.firmware = false → b.holder = some true →
         exec .reflashDone s = .next (replies 1 0x18 0 [] { s with sec := { b with slot := slot, reflashing := false } })) ∧
       (b.firmware = false → b.holder ≠ some true → m.svn ≤ 64 → ∃ t, exec .reflashDone s = .next t ∧ imageRuns m id true s t ∧
         t.sec.slot = slot ∧ t.sec.reflashing = false))) ∧
    (∃ t, exec .newNonce s = .next t ∧ t.sec = { b with nonceFresh := true } ∧ regsBut [.secDbgNonce] s t ∧
      t = { s with regs := t.regs, sec := t.sec, freeCount := t.freeCount }) ∧
    (let d := s.get F.secDbgStat_state
     let n := min 15 (s.get F.secDbgStat_fails + 1)
     let scope := s.get F.secDbgStat_scope
     let fails := fun (o : Host.Outcome State Fault Refusal) (x : Sec) => ∃ t, o = .next t ∧ t.get F.secDbgStat_fails = n ∧
       t.get F.secDbgStat_state = (if 8 ≤ n then 3 else if scope = 0 then 0 else 2) ∧ t.get F.secDbgStat_scope = scope ∧
       t.flag F.secEvtStat_dbg_fail = true ∧ t.sec = x ∧ coresBut [] s t ∧ memKept s t
     let T := fun lo k : Nat => ofLeBytes ((nats k lo 1).map (fun i => mget b.token i 0))
     let form := T 0 4 = 0x4B544244 ∧ T 4 2 = 1 ∧ T 6 2 = 0 ∧ (∀ w, w < 4 → T (8 + 4 * w) 4 = s.get F.secDevid_id w) ∧
       (∀ w, w < 8 → T (24 + 4 * w) 4 = s.get F.secDbgNonce_nonce w) ∧ T 56 4 < 4 ∧ T 60 4 = 0
     (d = 1 ∨ d = 3 → exec .submit s = .next s) ∧
     (d = 0 ∨ d = 2 →
       (b.nonceFresh = true → ∃ t, exec .submit s = .next t ∧ t.get F.secDbgStat_state = 1 ∧ t.get F.secDbgStat_scope = scope ∧
         t.sec = { b with nonceFresh := false } ∧ regsBut [.secDbgStat] s t ∧ t = { s with regs := t.regs, sec := t.sec }) ∧
       (b.nonceFresh = false → fails (exec .submit s) b)) ∧
     (∀ ecdsa hss : Bool,
       let B := fun lo k : Nat => (List.range k).map (fun i => mget b.token (lo + i) 0)
       let keys := b.debugKey.revoked = false ∧ sha384 (B 64 96) = b.debugKey.ecdsa ∧ sha256 (B 160 60) = b.debugKey.hss
       (d ≠ 1 → exec (.tokenCheckDone ecdsa hss) s = .next s) ∧
       (d = 1 → keys → ecdsa = true → hss = true → form → ∃ t, exec (.tokenCheckDone ecdsa hss) s = .next t ∧
         t.get F.secDbgStat_state = 2 ∧ t.get F.secDbgStat_scope = scope ||| T 56 4 ∧ t.flag F.secEvtStat_unlock = true ∧
         (∀ c : Nat, t.core c = if c < 1156 then
           { s.core c with halted := (s.core c).halted || (dbgAttached t && s.flag F.dbgCtl_halt c) } else s.core c) ∧
         memKept s t) ∧
       (d = 1 → (¬keys ∨ ecdsa = false ∨ hss = false ∨ ¬form) → fails (exec (.tokenCheckDone ecdsa hss) s) b)) ∧
     (∃ t, exec .relock s = .next t ∧ t.get F.secDbgStat_state = (if d = 3 then 3 else 0) ∧ t.get F.secDbgStat_scope = 0 ∧
       (∀ c, (t.core c).halted = false ∧ (t.core c).run = (s.core c).run ∧ scalar t c = scalar s c) ∧
       regsBut [.secDbgStat] s t ∧ t = { s with regs := t.regs, cores := t.cores }))

/-! ## The management port (19 R641-R644, 20 R652-R658) -/

/-- While the rails are up: addresses are taken once and given up; MCTP control and PLDM requests are answered with what
20 R654 and R655 say, records and events are acknowledged, and a firmware update and a recovery take their blocks, write
and start; a request that firmware alone serves is answered not ready before it runs. Commands and codes of the cited
standards are the model's (log entry 44). -/
def Obligations.ManagementPortAnswers : Prop :=
  ∀ s : State, s.pins.pwrGood = true →
    let m := s.mgt
    let fw := s.sec.firmware
    let answers := fun (i : Instr) (p c k : Nat) (d : List Byte) => exec i s = .next (replies p c k d s)
    (∀ a : BitVec 7, s.flag F.mgtStat_i3c = true → exec (.entdaa a) s = .next s ∧ exec (.setdasa a) s = .next s ∧ exec .setaasa s = .next s) ∧
    (let takes := fun (i : Instr) (a : Nat) => ∃ t, exec i s = .next t ∧ t.flag F.mgtStat_i3c = true ∧
       t.get F.mgtStat_dyn_addr = a ∧ onlyRegs [.mgtStat] s t
     s.flag F.mgtStat_i3c = false →
      (∀ a : BitVec 7, takes (.setdasa a) a.toNat ∧
        (∃ t, exec (.entdaa a) s = .next t ∧ t.flag F.mgtStat_i3c = true ∧ t.get F.mgtStat_dyn_addr = a.toNat ∧
          t.mgt = { m with replies := m.replies ++
            [⟨3, 7, 0, (leBytes 6 (s.get F.glbId_mfr * 2 ^ 33 + 2 ^ 32 + s.get F.secDevid_id)).reverse⟩] } ∧
          regsBut [.mgtStat] s t ∧ t = { s with regs := t.regs, mgt := t.mgt })) ∧
      takes .setaasa (0x60 + s.get F.glbSlot_slot_id)) ∧
    (∃ t, exec .rstdaa s = .next t ∧ t.flag F.mgtStat_i3c = false ∧ t.get F.mgtStat_dyn_addr = 0 ∧
      t.get F.mgtStat_eid = s.get F.mgtStat_eid ∧ onlyRegs [.mgtStat] s t) ∧
    (∀ e : Byte, (e = 0 ∨ e = 255 → answers (.setEndpointId e) 0 1 2 []) ∧
      (e ≠ 0 → e ≠ 255 → ∃ t, exec (.setEndpointId e) s = .next t ∧ t.get F.mgtStat_eid = e.toNat ∧
        t.mgt = { m with replies := m.replies ++ [⟨0, 1, 0, [0, e]⟩] } ∧ regsBut [.mgtStat] s t ∧
        t = { s with regs := t.regs, mgt := t.mgt })) ∧
    answers .getEndpointId 0 2 0 [BitVec.ofNat 8 (s.get F.mgtStat_eid)] ∧
    answers .getEndpointUuid 0 3 0 (arr (Config.uuid (devId s))) ∧
    answers .getMessageTypeSupport 0 5 0 [2, 1, 5] ∧
    (∀ t : Byte, (t = 255 ∨ t = 0 → answers (.getMctpVersionSupport t) 0 4 0 [1, 0xF1, 0xF3, 0xFF, 0]) ∧
      (t = 1 ∨ t = 5 → answers (.getMctpVersionSupport t) 0 4 0 (1 :: Config.pldmVersion (256 + t.toNat))) ∧
      (t ≠ 255 → t ≠ 0 → t ≠ 1 → t ≠ 5 → answers (.getMctpVersionSupport t) 0 4 0x80 [])) ∧
    answers .gettid 1 2 0 [Config.pldmTid] ∧
    (fw = true → answers .getpldmtypes 1 4 0 [0x25, 0, 0, 0, 0, 0, 0, 0]) ∧
    (fw = false → s.get F.secBootStat_state = 5 → answers .getpldmtypes 1 4 0 [0x21, 0, 0, 0, 0, 0, 0, 0]) ∧
    (fw = false → s.get F.secBootStat_state ≠ 5 → answers .getpldmtypes 1 4 0 [1, 0, 0, 0, 0, 0, 0, 0]) ∧
    (∀ t : Byte, (fw = true ∧ (t = 0 ∨ t = 2 ∨ t = 5) →
        answers (.getpldmversion t) 1 3 0 (Config.pldmVersion t.toNat) ∧
        answers (.getpldmcommands t) 1 5 0 (bitField 32 (pldmCommands t.toNat))) ∧
      (t ≠ 0 → t ≠ 2 → t ≠ 5 → answers (.getpldmversion t) 1 3 0x83 [] ∧ answers (.getpldmcommands t) 1 5 0x83 [])) ∧
    (fw = false → (∀ e, answers (.seteventreceiver e) 1 4 4 []) ∧ answers .pollforplatformeventmessage 1 0x0B 4 [] ∧
      (∀ a, answers (.platformeventmessageAck a) 1 0x0A 4 []) ∧ (∀ n, answers (.getpdr n) 1 0x51 4 []) ∧
      (∀ n, answers (.sensorReading n) 1 0x11 4 [])) ∧
    (fw = true →
      (∀ e : Byte, exec (.seteventreceiver e) s = .next { s with mgt := { m with
        receiver := some e.toNat, replies := m.replies ++ [⟨1, 4, 0, []⟩] ++ m.fifo.map (fun r => ⟨1, 0x0A, 0, r.bytes⟩) } }) ∧
      (m.fifo = [] → answers .pollforplatformeventmessage 1 0x0B 0 []) ∧
      (∀ r rest, m.fifo = r :: rest → answers .pollforplatformeventmessage 1 0x0B 0 r.bytes) ∧
      (∀ n : Word64, m.fifo.length ≤ 256 → ∃ t, exec (.platformeventmessageAck (.record n)) s = .next t ∧
        t.mgt.fifo = m.fifo.filter (fun r => r.seq != n.toNat) ∧ t.get F.mgtStat_fifo = t.mgt.fifo.length ∧
        t.mgt.events = m.events ∧ regsBut [.mgtStat] s t ∧ t = { s with regs := t.regs, mgt := t.mgt, pins := t.pins }) ∧
      (∀ b : Fin 6, ∃ t, exec (.platformeventmessageAck (.event b)) s = .next t ∧ t.mgt.events = m.events.filter (· != b.val) ∧
        t.mgt.fifo = m.fifo ∧ t = { s with mgt := t.mgt, pins := t.pins }) ∧
      (∀ n, answers (.getpdr n) 1 0x51 0 (Config.pldmPdr n)) ∧
      (∀ (v i e q : Nat), m.latch = [v, i, e, q] →
        answers (.sensorReading 1) 1 0x11 0 (leBytes 2 v) ∧ answers (.sensorReading 2) 1 0x11 0 (leBytes 2 i) ∧
        answers (.sensorReading 3) 1 0x11 0 (leBytes 4 (v * i / 1000000)) ∧ answers (.sensorReading 4) 1 0x11 0 (leBytes 8 e) ∧
        answers (.sensorReading 7) 1 0x11 0 (leBytes 1 q)) ∧
      (∀ n : BitVec 16, (0x100 ≤ n.toNat → n.toNat < 0x160 →
          answers (.sensorReading n) 1 0x11 0 (leBytes 2 (s.get F.conTherm_temp (n.toNat - 0x100)))) ∧
        (0x200 ≤ n.toNat → n.toNat < 0x228 → answers (.sensorReading n) 1 0x11 0 (leBytes 2 (s.get F.conDram_temp (n.toNat - 0x200)))) ∧
        (7 < n.toNat → n.toNat < 0x100 → answers (.sensorReading n) 1 0x11 0x80 [])) ∧
      answers (.sensorReading 0x300) 1 0x21 0 (leBytes 1 (s.get F.secBootStat_state)) ∧
      answers (.sensorReading 0x301) 1 0x21 0 (leBytes 1 (s.get F.mirStat_state)) ∧
      answers (.sensorReading 0x302) 1 0x21 0 (leBytes 1 (s.get F.hrtStat_band))) ∧
    (∀ (data : List Byte) (last : Bool) (r : ImageReport),
      let goes := fun (P : State → Prop) => ∃ t, exec (.firmwareDataReceive data last r) s = .next t ∧ P t
      let stream := s.sec.stream ++ data
      (4096 < data.length → answers (.firmwareDataReceive data last r) 1 0x15 1 []) ∧
      (data.length ≤ 4096 → fw = false → s.get F.secBootStat_state ≠ 5 → answers (.firmwareDataReceive data last r) 1 0x15 4 []) ∧
      (data.length ≤ 4096 → fw = true → s.sec.reflashing = false →
        let x := streamImage stream
        let n := imageFault { r with flashOk := true } x s
        let u := { m with updating := true, updBytes := m.updBytes + data.length }
        (last = false → goes (fun t => t = { s with mgt := u, sec := { s.sec with stream := stream } })) ∧
        (last = true → n ≠ 0 → goes (fun t => t = { s with
          mgt := { u with updating := false, updBytes := 0, replies := m.replies ++ [⟨1, 0x17, n, []⟩] }
          sec := { s.sec with stream := [] } })) ∧
        (last = true → n = 0 → goes (fun t => t = { s with
          mgt := { u with replies := m.replies ++ [⟨1, 0x17, 0, []⟩] }
          sec := { s.sec with stream := stream, slot := [], reflashing := true, staged := some (x, r.idOk) } }))) ∧
      (data.length ≤ 4096 → fw = false → s.get F.secBootStat_state = 5 →
        let taken : Sec := { s.sec with holder := some true, stream := stream }
        let bytes := min (2 ^ 24 - 1) (s.get F.secRcvStat_bytes + data.length)
        (s.sec.holder = some false → goes (fun t => t.get F.secRcvStat_state = 3 ∧ onlyRegs [.secRcvStat] s t)) ∧
        (s.sec.holder ≠ some false → s.sec.reflashing = true ∨ s.sec.checkWaits = true → goes (fun t => t = s)) ∧
        (s.sec.holder ≠ some false → s.sec.reflashing = false → s.sec.checkWaits = false →
          (last = false → goes (fun t => t.sec = taken ∧ t.get F.secRcvStat_bytes = bytes ∧ regsBut [.secRcvStat] s t ∧
            t = { s with regs := t.regs, sec := t.sec })) ∧
          (last = true → s.hearth.nearFilled = true → goes (streamChecked r false { s with sec := taken })) ∧
          (last = true → s.hearth.nearFilled = false → goes (fun t => t.sec = { taken with checkWaits := true } ∧
            t.get F.secRcvStat_state = 1 ∧ t.get F.secRcvStat_bytes = bytes ∧ regsBut [.secRcvStat] s t ∧
            t = { s with regs := t.regs, sec := t.sec }))))) ∧
    (fw = true → answers .activatefirmware 1 0x1A (if m.pendingActivation then 0 else 1) []) ∧
    (∀ (x : Image) (id : Bool), fw = false → s.get F.secBootStat_state = 5 → s.sec.holder = some true →
      s.sec.staged = some (x, id) → x.svn ≤ 64 → s.sec.reflashing = false →
      ∃ t, exec .activatefirmware s = .next t ∧ imageRuns x id true s t ∧
        t.mgt.replies = m.replies ++ [⟨1, 0x1A, 0, []⟩]) ∧
    (fw = true → exec .updateCancel s = .next { s with
      mgt := { m with updating := false, updBytes := 0, replies := m.replies ++ [⟨1, 0x1D, if m.updating || s.sec.reflashing then 0 else 1, []⟩] }
      sec := { s.sec with reflashing := false, staged := none, stream := [] } }) ∧
    (fw = false → s.sec.holder = some true → ∃ t, exec .updateCancel s = .next t ∧
      t.sec = { s.sec with holder := none, staged := none, reflashing := false, stream := [], checkWaits := false } ∧ t.get F.secRcvStat_bytes = 0 ∧
      t.mgt.replies = m.replies ++ [⟨1, 0x1D, 0, []⟩] ∧ coresBut [] s t ∧ memKept s t)

/-- SPDM: Busy before firmware runs; negotiation in its order; attestation refused before it has ended, without an
identity, and while debug is unlocked; digests, certificates, challenges and measurements; each envelope spends a leaf of
the reserved block, and there is none without a leaf or past 16 a second; nothing answers while the rails are down
(19 R641-R644, R649, 20 R653). Codes of the cited standard are the model's (log entry 44). -/
def Obligations.SpdmAnswersInOrder : Prop :=
  ∀ s : State,
    let m := s.mgt
    let requests : List (Nat × Instr) := [(0x84, .getVersion), (0xE1, .getCapabilities), (0xE3, .negotiateAlgorithms true true),
      (0x81, .getDigests), (0x82, .getCertificate 0 0 0), (0x83, .challenge 0), (0xE0, .getMeasurements 1),
      (0xFE, .vendorDefinedRequest .hssCert), (0xFE, .vendorDefinedRequest (.envelope false)), (0xFF, .spdmUnsupportedRequest 0xFF)]
    (∀ x, x ∈ requests →
      (s.pins.pwrGood = false → exec x.2 s = .next s) ∧
      (s.pins.pwrGood = true → s.sec.firmware = false → exec x.2 s = .next (replies 2 x.1 3 [] s))) ∧
    (s.pins.pwrGood = true → s.sec.firmware = true →
      let answers := fun (i : Instr) (c k : Nat) (d : List Byte) => exec i s = .next (replies 2 c k d s)
      let step := fun (i : Instr) (c n : Nat) (d : List Byte) =>
        (m.spdm + 1 < n → answers i c 4 []) ∧
        (n ≤ m.spdm + 1 → exec i s = .next { s with mgt := { m with
          replies := m.replies ++ [⟨2, c, 0, d⟩], spdm := n, signed := if n = 1 then none else m.signed } })
      step .getVersion 0x84 1 [0x13] ∧
      step .getCapabilities 0xE1 2 [0x16, 0, 0, 0] ∧
      step (.negotiateAlgorithms true true) 0xE3 3 [4, 0, 0, 0, 0x80, 0, 0, 0, 2, 0, 0, 0] ∧
      (∀ p h, (p && h) = false → answers (.negotiateAlgorithms p h) 0xE3 1 []) ∧
      (∀ code : Byte, answers (.spdmUnsupportedRequest code) code.toNat 7 []) ∧
      (∀ x, x ∈ (requests.drop 3).take 6 →
        (m.spdm < 3 → answers x.2 x.1 4 []) ∧
        (m.spdm = 3 → s.flag F.secBootStat_id_valid = false ∨ s.get F.secDbgStat_state = 2 ∨ s.get F.secDbgStat_scope ≠ 0 →
          answers x.2 x.1 5 [])) ∧
      (m.spdm = 3 → s.flag F.secBootStat_id_valid = true → s.get F.secDbgStat_state ≠ 2 → s.get F.secDbgStat_scope = 0 →
        let signs := fun (i : Instr) (c : Nat) (d : List Byte) => ∃ (nonce sig : List Byte) (t : State), exec i s = .next t ∧
          nonce.length = 32 ∧ sig.length = 96 ∧ t.mgt.replies = m.replies ++ [⟨2, c, 0, d ++ nonce ++ sig⟩] ∧
          t.mgt.signed = some (s.freeCount, d) ∧ t.freeCount = s.freeCount + 1 ∧
          t = { s with mgt := { m with replies := t.mgt.replies, signed := t.mgt.signed }, freeCount := t.freeCount }
        answers .getDigests 0x81 0 (1 :: sha384 Config.certChain) ∧
        (∀ off n : Nat, answers (.getCertificate 0 off n) 0x82 0 ((Config.certChain.drop off).take n)) ∧
        (∀ k : Byte, k ≠ 0 → (∀ off n : Nat, answers (.getCertificate k off n) 0x82 1 []) ∧ answers (.challenge k) 0x83 1 []) ∧
        signs (.challenge 0) 0x83 (sha384 Config.certChain) ∧
        signs (.getMeasurements 1) 0xE0 (arr Config.romDigest) ∧
        signs (.getMeasurements 2) 0xE0 (s.sec.digest) ∧
        signs (.getMeasurements 3) 0xE0 [BitVec.ofNat 8 (s.get F.secBootStat_svn), BitVec.ofNat 8 (s.get F.secSvn_fused)] ∧
        signs (.getMeasurements 4) 0xE0 [BitVec.ofNat 8 (s.get F.secDbgStat_state),
          BitVec.ofNat 8 (s.get F.secBootStat_recovered), BitVec.ofNat 8 (s.get F.secBootStat_id_valid)] ∧
        signs (.getMeasurements 255) 0xE0 (arr Config.romDigest ++ s.sec.digest ++
          [BitVec.ofNat 8 (s.get F.secBootStat_svn), BitVec.ofNat 8 (s.get F.secSvn_fused),
           BitVec.ofNat 8 (s.get F.secDbgStat_state), BitVec.ofNat 8 (s.get F.secBootStat_recovered),
           BitVec.ofNat 8 (s.get F.secBootStat_id_valid)]) ∧
        (∀ i : Byte, i.toNat = 0 ∨ (4 < i.toNat ∧ i ≠ 255) → answers (.getMeasurements i) 0xE0 1 []) ∧
        answers (.vendorDefinedRequest .hssCert) 0xFE 0 Config.hssCert ∧
        (let sec := s.now / 1000000000
         let n := if m.envelopeSecond = sec then m.envelopes else 0
         let q := s.get F.secLms_q
         let leaf := fun t : State => t.get F.secLms_q = q + 1 ∧ t.mgt.envelopes = n + 1 ∧ t.mgt.envelopeSecond = sec
         ∀ droop : Bool,
         (m.signed = none → answers (.vendorDefinedRequest (.envelope droop)) 0xFE 4 []) ∧
         (m.signed ≠ none → 16 ≤ n ∨ s.get F.secLmsLimit_limit ≤ q →
           answers (.vendorDefinedRequest (.envelope droop)) 0xFE 3 []) ∧
         (∀ (k : Nat) (data : List Byte), m.signed = some (k, data) → n < 16 → q < s.get F.secLmsLimit_limit →
           (droop = false → ∃ (b : List Byte) (t : State), exec (.vendorDefinedRequest (.envelope droop)) s = .next t ∧
             b.length = 3824 ∧ leAt b 0 4 = 0x56454C45 ∧ leAt b 4 2 = 1 ∧ leAt b 8 8 = q ∧
             (b.drop 16).take 48 = sha384 (Config.transcript k ++ data ++ freeBytes k 0 32) ∧
             (b.drop 64).take 96 = freeBytes k 32 96 ∧ (b.drop 160).take 60 = arr Config.hssKey ∧
             t.mgt.replies = m.replies ++ [⟨2, 0xFE, 0, b⟩] ∧ leaf t ∧ regsBut [.secLms] s t ∧
             t = { s with regs := t.regs, mgt := t.mgt, freeCount := t.freeCount }) ∧
           (droop = true → ∃ t : State, exec (.vendorDefinedRequest (.envelope droop)) s = .next t ∧
             t.mgt.replies = m.replies ++ [⟨2, 0xFE, 3, []⟩] ∧ leaf t ∧ t.flag F.secEvtStat_glitch = true ∧
             t.get F.secGlitchCnt_count = min (2 ^ 32 - 1) (s.get F.secGlitchCnt_count + 1) ∧
             t.sec.glitches = s.sec.glitches + 1)))))

/-! ## Resets (00 R16-R19, 01 R40, R41, 15 R520, 21 R674) -/

/-- A warm reset, by the pin or by RST, keeps memory and the fields that 00 R16 keeps, takes every other field to its
warm value and every core, queue and request away, and lasts while its cause holds; RST is answered, and runs a delay
after its answer is acknowledged. An engine's or a context's reset empties its queues and returns their registers,
unless a wider reset is requested in its cycle, and its bit falls when what it sent is accepted; a write that sets the
bit in the cycle in which it falls leaves it 1 (00 R15, R17-R19, 01 R40, R41, 15 R520, 02 R97, 08 R313, 21 R674). -/
def Obligations.ResetsClearAndKeep : Prop :=
  ∀ s : State,
    let warmed := fun (o : Host.Outcome State Fault Refusal) (pin : Bool) => ∃ t, o = .next t ∧ t.resets.warm = true ∧
      t.resets.byPin = pin ∧ (∀ c, t.core c = { ({} : Core) with
        dcache := { lfsr := (s.core c).dcache.lfsr }, icache := { lfsr := (s.core c).icache.lfsr } }) ∧ t.queues = [] ∧ t.rings = [] ∧ t.launches = [] ∧ t.reqs = [] ∧ t.msgs = [] ∧
      t.recs = [] ∧ t.bundles = [] ∧ t.sec.firmware = false ∧ t.clk = s.clk ∧
      t.upkeep.fuses = s.upkeep.fuses ∧ t.hearth.rails = s.hearth.rails ∧ t.sec.slot = s.sec.slot ∧ t.sec.lms = s.sec.lms ∧ memKept s t ∧
      (∀ (r : Reg) (i : Nat), r ∉ [.klnUsable, .secBootStat, .fmcStat, .fmcGlbStat] → ∀ f, f ∈ (regRow r).rows →
        fieldAt t r i f = (match f.warm with | .kept => fieldAt s r i f | .to w => w % 2 ^ (f.hi + 1 - f.lo)))
    let low : State := { s with pins := { s.pins with modResetN := false } }
    (s.pins.modResetN = false → exec .modResetAssert s = .next s) ∧
    (s.pins.modResetN = true →
      (s.hearth.rails ≠ 6 → exec .modResetAssert s = .next low) ∧
      (s.hearth.rails = 6 → s.resets.warm = true → exec .modResetAssert s = .next { low with resets := { s.resets with byPin := true } }) ∧
      (s.hearth.rails = 6 → s.resets.warm = false → warmed (exec .modResetAssert s) true)) ∧
    (let ends := fun (o : Host.Outcome State Fault Refusal) (s : State) => ∃ t, o = .next t ∧
       t.flag F.hrtStat_halted = false ∧ t.flag F.hrtStat_parked = false ∧ regsBut [.hrtStat] s t ∧
       t.get F.hrtStat_band = s.get F.hrtStat_band ∧ t = { s with
         regs := t.regs, resets := { s.resets with warm := false, byPin := false }
         upkeep := { s.upkeep with selfRefresh := false } }
     let high : State := { s with pins := { s.pins with modResetN := true } }
     (s.resets.byPin = true → ends (exec .modResetRelease s) high) ∧
     (s.resets.byPin = false → exec .modResetRelease s = .next high) ∧
     (s.resets.warm = true → s.resets.byPin = false → ends (exec .rstResetEnd s) s)) ∧
    (∀ (b : BundleId) (x : BitVec 4) (tag : BitVec 12) (v : Word64), s.resets.warm = false →
      (s.flag F.vclCtl_rst_en = true → v.toNat = 0xA55A → ∃ t, exec (.rst ⟨b, none, x⟩ tag v) s = .next t ∧
        t.resets.rstWaits = some b.val ∧
        t.bundles = (answerHost ⟨b, none, x⟩ tag.toNat 0 [] 1335 s).bundles ∧ t = { s with bundles := t.bundles, resets := t.resets }) ∧
      (s.flag F.vclCtl_rst_en = false ∨ v.toNat ≠ 0xA55A →
        exec (.rst ⟨b, none, x⟩ tag v) s = .next (answerHost ⟨b, none, x⟩ tag.toNat 5 [] 1332 s))) ∧
    (s.resets.warm = false → s.resets.rstWaits = none → exec .rstDelayExpiry s = .next s) ∧
    (s.resets.warm = false → s.resets.rstWaits ≠ none → rstAcked s = true → warmed (exec .rstDelayExpiry s) (!s.pins.modResetN)) ∧
    (s.resets.warm = true → s.resets.byPin = true → exec .rstResetEnd s = .next s) ∧
    (let empties := fun (q : Nat) (t : State) => (t.queue q).lists = [] ∧ t.flag F.klnQctl_en q = false ∧ t.get F.engDbTail_tail q = 0 ∧
       t.get F.klnQbase_base q = 0 ∧ t.get F.klnQstat_state q = 0
     (∀ mask : BitVec 11, exec (.engineReset ⟨mask, true⟩) s = .next s ∧
       ∃ t, exec (.engineReset ⟨mask, false⟩) s = .next t ∧ t.get F.glbEngRst_eng = s.get F.glbEngRst_eng ||| mask.toNat ∧
       (∀ e q, natBit mask.toNat e = true → natBit (s.get F.glbEngRst_eng) e = false → q / 16 = e → empties q t)) ∧
     (∀ mask : BitVec 16, exec (.contextReset ⟨mask, true⟩) s = .next s ∧
       ∃ t, exec (.contextReset ⟨mask, false⟩) s = .next t ∧ t.get F.glbCtxRst_ctx = s.get F.glbCtxRst_ctx ||| mask.toNat ∧
       (∀ x q, natBit mask.toNat x = true → natBit (s.get F.glbCtxRst_ctx) x = false → q < 176 →
         q % 16 = x → empties q t ∧ (∀ h, h < 64 → t.reg .klnHtabW0 (64 * x + h) = 0 ∧ t.reg .klnHtabW1 (64 * x + h) = 0) ∧
           (∀ i, i < 1024 → t.reg .synVtab (1024 * x + i) = 0)))) ∧
    (∀ i : Fin 16, s.bundles = [] → s.syncAns = [] → s.syncOps = [] → s.cores = [] → s.upkeep.late = [] → s.clash = [] →
      (natBit (s.get F.glbCtxRst_ctx) i = true → ∃ t, exec (.engineResetDone true i) s = .next t ∧
        natBit (t.get F.glbCtxRst_ctx) i = false ∧ (∀ k, k ≠ i.val → natBit (t.get F.glbCtxRst_ctx) k = natBit (s.get F.glbCtxRst_ctx) k) ∧
        onlyRegs [.glbCtxRst] s t) ∧
      (i.val < 11 → natBit (s.get F.glbEngRst_eng) i = true → ∃ t, exec (.engineResetDone false i) s = .next t ∧
        natBit (t.get F.glbEngRst_eng) i = false ∧ (∀ k, k ≠ i.val → natBit (t.get F.glbEngRst_eng) k = natBit (s.get F.glbEngRst_eng) k) ∧
        onlyRegs [.glbEngRst] s t)) ∧
    (∀ (ctx : Bool) (off : BitVec 26) (v hit : Word64) (i : Fin 16),
      let r := if ctx then Reg.glbCtxRst else .glbEngRst
      let bits := fun t : State => if ctx then t.get F.glbCtxRst_ctx else t.get F.glbEngRst_eng
      resolve off.toNat = some (r, 0, 0) → off.toNat % 4 = 0 → natBit v.toNat i = true → natBit hit.toNat i = true →
      (ctx = false → i.val < 11) → ∃ t t', exec (.registerWrite .service off false ⟨v, hit⟩) s = .next t ∧ natBit (bits t) i = true ∧
        exec (.engineResetDone ctx i) t = .next t' ∧ natBit (bits t') i = true)
end

