-- ==== Sys2Proof/Laws/Maps.lean ====
section
/-! SUPPORT. What sparse tables, the first element of a kind, little-endian bytes and bit fields do. -/

namespace Sys2Proof.Machine

/-! ## Sparse tables -/

@[simp] theorem mget_nil {α β : Type} [DecidableEq α] (k : α) (d : β) : mget [] k d = d := rfl

@[simp] theorem mget_mput_self {α β : Type} [DecidableEq α] (m : List (α × β)) (k : α) (v d : β) :
    mget (mput m k v) k d = v := by
  induction m with
  | nil => simp [mput, mget]
  | cons p t ih =>
    simp only [mput]
    split
    · simp [mget]
    · rename_i h; simp [mget, h, ih]

theorem mget_mput_of_ne {α β : Type} [DecidableEq α] (m : List (α × β)) {k j : α} (v d : β) (h : j ≠ k) :
    mget (mput m k v) j d = mget m j d := by
  induction m with
  | nil => simp [mput, mget, Ne.symm h]
  | cons p t ih =>
    simp only [mput]
    split
    · rename_i e; subst e; simp [mget, Ne.symm h]
    · simp [mget, ih]

theorem mget_mput {α β : Type} [DecidableEq α] (m : List (α × β)) (k j : α) (v d : β) :
    mget (mput m k v) j d = if j = k then v else mget m j d := by
  split
  · rename_i h; subst h; exact mget_mput_self ..
  · rename_i h; exact mget_mput_of_ne _ _ _ h

/-- Every value of a table is a listed one or the default. -/
theorem mget_mem_or {α β : Type} [DecidableEq α] (m : List (α × β)) (k : α) (d : β) :
    (k, mget m k d) ∈ m ∨ mget m k d = d := by
  induction m with
  | nil => exact .inr rfl
  | cons p t ih =>
    simp only [mget]
    split
    · rename_i h; subst h; exact .inl List.mem_cons_self
    · exact ih.imp (List.mem_cons_of_mem _) id

/-- A table whose keys are given by a list holds the list's value for each of them. -/
theorem mget_map_const {α β γ : Type} [DecidableEq α] (f : γ → α) (l : List γ) (x : γ) (v d : β) (h : x ∈ l) :
    mget (l.map (fun y => (f y, v))) (f x) d = v := by
  induction l with
  | nil => cases h
  | cons y t ih =>
    simp only [List.map_cons, mget]
    split
    · rfl
    · rename_i e
      rcases List.mem_cons.mp h with rfl | h
      · exact absurd rfl e
      · exact ih h

/-! ## The first of a kind -/

theorem takeFirst_spec {α : Type} {p : α → Bool} {l rest : List α} {x : α} (h : takeFirst p l = some (x, rest)) :
    ∃ a b, l = a ++ x :: b ∧ rest = a ++ b ∧ p x = true ∧ ∀ y ∈ a, p y = false := by
  induction l generalizing rest with
  | nil => cases h
  | cons z t ih =>
    simp only [takeFirst] at h
    split at h
    · rename_i hz; cases h; exact ⟨[], t, rfl, rfl, hz, by simp⟩
    · rename_i hz
      split at h
      · rename_i y r hr
        cases h
        obtain ⟨a, b, rfl, rfl, hp, ha⟩ := ih hr
        exact ⟨z :: a, b, rfl, rfl, hp, by simpa [hz] using ha⟩
      · cases h

theorem takeFirst_none {α : Type} {p : α → Bool} {l : List α} : takeFirst p l = none ↔ ∀ x ∈ l, p x = false := by
  induction l with
  | nil => simp [takeFirst]
  | cons z t ih =>
    simp only [takeFirst]
    split
    · rename_i hz; simp [hz]
    · rename_i hz
      cases ht : takeFirst p t with
      | none => simpa [hz] using ih.mp ht
      | some y => simp [hz]; by_contra hc; push Not at hc; exact absurd (ih.mpr (by simpa using hc)) (by simp [ht])

/-! ## Bytes -/

@[simp] theorem leBytes_length (n v : Nat) : (leBytes n v).length = n := by
  induction n generalizing v with
  | zero => rfl
  | succ n ih => simp [leBytes, ih]

theorem ofLeBytes_lt (bs : List Byte) : ofLeBytes bs < 256 ^ bs.length := by
  induction bs with
  | nil => simp [ofLeBytes]
  | cons b t ih =>
    have hb : b.toNat < 256 := b.isLt
    have h : (256 : Nat) ^ (t.length + 1) = 256 * 256 ^ t.length := by rw [Nat.pow_succ, Nat.mul_comm]
    simp only [ofLeBytes, List.length_cons, h]
    omega

theorem ofLeBytes_leBytes (n v : Nat) : ofLeBytes (leBytes n v) = v % 256 ^ n := by
  induction n generalizing v with
  | zero => simp [leBytes, ofLeBytes, Nat.mod_one]
  | succ n ih =>
    have h : (256 : Nat) ^ (n + 1) = 256 * 256 ^ n := by rw [Nat.pow_succ, Nat.mul_comm]
    simp only [leBytes, ofLeBytes, ih, h, BitVec.toNat_ofNat, Nat.mod_mul]

theorem leBytes_ofLeBytes (bs : List Byte) : leBytes bs.length (ofLeBytes bs) = bs := by
  induction bs with
  | nil => rfl
  | cons b t ih =>
    have hb : b.toNat < 256 := b.isLt
    have h1 : (b.toNat + 256 * ofLeBytes t) / 256 = ofLeBytes t := by omega
    have h2 : BitVec.ofNat 8 (b.toNat + 256 * ofLeBytes t) = b := by
      apply BitVec.eq_of_toNat_eq
      simp only [BitVec.toNat_ofNat]
      omega
    simp only [List.length_cons, ofLeBytes, leBytes, h1, h2, ih]

@[simp] theorem nats_length (n a k : Nat) : (nats n a k).length = n := by
  induction n generalizing a with
  | zero => rfl
  | succ n ih => simp [nats, ih]

theorem mem_nats_one {n a x : Nat} : x ∈ nats n a 1 ↔ a ≤ x ∧ x < a + n := by
  induction n generalizing a with
  | zero => simp [nats]
  | succ n ih => simp only [nats, List.mem_cons, ih]; omega

theorem nats_eq_range (n : Nat) : nats n 0 1 = List.range n := by
  have h : ∀ n a, nats n a 1 = List.range' a n := by
    intro n
    induction n with
    | zero => intro a; rfl
    | succ n ih => intro a; simp [nats, ih, List.range'_succ]
  rw [h, List.range_eq_range']

/-! ## Bit fields -/

theorem natBits_lt (x hi lo : Nat) : natBits x hi lo < 2 ^ (hi + 1 - lo) := Nat.mod_lt _ (Nat.two_pow_pos _)

/-- A field written reads as the value's low bits. -/
theorem natBits_natSetBits (x hi lo v : Nat) (h : lo ≤ hi) :
    natBits (natSetBits x hi lo v) hi lo = v % 2 ^ (hi + 1 - lo) := by
  have hp : (2 : Nat) ^ (hi + 1) = 2 ^ lo * 2 ^ (hi + 1 - lo) := by rw [← Nat.pow_add]; congr 1; omega
  unfold natBits natSetBits
  rw [hp]
  generalize 2 ^ (hi + 1 - lo) = w
  have hlo := Nat.two_pow_pos lo
  generalize 2 ^ lo = l at hlo ⊢
  have e : x / (l * w) * (l * w) + v % w * l + x % l = l * (w * (x / (l * w)) + v % w) + x % l := by ring
  rw [e, Nat.mul_add_div hlo, Nat.div_eq_of_lt (Nat.mod_lt _ hlo), Nat.add_zero, Nat.mul_add_mod, Nat.mod_mod]

end Sys2Proof.Machine
end

