-- ==== Sys2Proof/Laws/State.lean ====
section
/-! SUPPORT. Each update of State beside each of its fields, and registers, cores, bundles, queues and rings as they read
after one is written. -/

namespace Sys2Proof.Machine

variable (s : State)

/-! ## setReg -/

@[simp] theorem State.setReg_pending (r : Reg) (i : Nat) (v : Word64) : (s.setReg r i v).pending = s.pending := rfl
@[simp] theorem State.setReg_freeCount (r : Reg) (i : Nat) (v : Word64) : (s.setReg r i v).freeCount = s.freeCount := rfl
@[simp] theorem State.setReg_clk (r : Reg) (i : Nat) (v : Word64) : (s.setReg r i v).clk = s.clk := rfl
@[simp] theorem State.setReg_pins (r : Reg) (i : Nat) (v : Word64) : (s.setReg r i v).pins = s.pins := rfl
@[simp] theorem State.setReg_regs (r : Reg) (i : Nat) (v : Word64) : (s.setReg r i v).regs = mput s.regs (r, i) v := rfl
@[simp] theorem State.setReg_clash (r : Reg) (i : Nat) (v : Word64) : (s.setReg r i v).clash = s.clash := rfl
@[simp] theorem State.setReg_mem (r : Reg) (i : Nat) (v : Word64) : (s.setReg r i v).mem = s.mem := rfl
@[simp] theorem State.setReg_bad (r : Reg) (i : Nat) (v : Word64) : (s.setReg r i v).bad = s.bad := rfl
@[simp] theorem State.setReg_undef (r : Reg) (i : Nat) (v : Word64) : (s.setReg r i v).undef = s.undef := rfl
@[simp] theorem State.setReg_zeroed (r : Reg) (i : Nat) (v : Word64) : (s.setReg r i v).zeroed = s.zeroed := rfl
@[simp] theorem State.setReg_cores (r : Reg) (i : Nat) (v : Word64) : (s.setReg r i v).cores = s.cores := rfl
@[simp] theorem State.setReg_kiln (r : Reg) (i : Nat) (v : Word64) : (s.setReg r i v).kiln = s.kiln := rfl
@[simp] theorem State.setReg_queues (r : Reg) (i : Nat) (v : Word64) : (s.setReg r i v).queues = s.queues := rfl
@[simp] theorem State.setReg_rings (r : Reg) (i : Nat) (v : Word64) : (s.setReg r i v).rings = s.rings := rfl
@[simp] theorem State.setReg_launches (r : Reg) (i : Nat) (v : Word64) : (s.setReg r i v).launches = s.launches := rfl
@[simp] theorem State.setReg_turn (r : Reg) (i : Nat) (v : Word64) : (s.setReg r i v).turn = s.turn := rfl
@[simp] theorem State.setReg_xlfsr (r : Reg) (i : Nat) (v : Word64) : (s.setReg r i v).xlfsr = s.xlfsr := rfl
@[simp] theorem State.setReg_pubs (r : Reg) (i : Nat) (v : Word64) : (s.setReg r i v).pubs = s.pubs := rfl
@[simp] theorem State.setReg_swath (r : Reg) (i : Nat) (v : Word64) : (s.setReg r i v).swath = s.swath := rfl
@[simp] theorem State.setReg_sieveRes (r : Reg) (i : Nat) (v : Word64) : (s.setReg r i v).sieveRes = s.sieveRes := rfl
@[simp] theorem State.setReg_hearth (r : Reg) (i : Nat) (v : Word64) : (s.setReg r i v).hearth = s.hearth := rfl
@[simp] theorem State.setReg_cones (r : Reg) (i : Nat) (v : Word64) : (s.setReg r i v).cones = s.cones := rfl
@[simp] theorem State.setReg_upkeep (r : Reg) (i : Nat) (v : Word64) : (s.setReg r i v).upkeep = s.upkeep := rfl
@[simp] theorem State.setReg_ras (r : Reg) (i : Nat) (v : Word64) : (s.setReg r i v).ras = s.ras := rfl
@[simp] theorem State.setReg_sec (r : Reg) (i : Nat) (v : Word64) : (s.setReg r i v).sec = s.sec := rfl
@[simp] theorem State.setReg_mgt (r : Reg) (i : Nat) (v : Word64) : (s.setReg r i v).mgt = s.mgt := rfl
@[simp] theorem State.setReg_resets (r : Reg) (i : Nat) (v : Word64) : (s.setReg r i v).resets = s.resets := rfl
@[simp] theorem State.setReg_reqs (r : Reg) (i : Nat) (v : Word64) : (s.setReg r i v).reqs = s.reqs := rfl
@[simp] theorem State.setReg_resps (r : Reg) (i : Nat) (v : Word64) : (s.setReg r i v).resps = s.resps := rfl
@[simp] theorem State.setReg_acks (r : Reg) (i : Nat) (v : Word64) : (s.setReg r i v).acks = s.acks := rfl
@[simp] theorem State.setReg_msgs (r : Reg) (i : Nat) (v : Word64) : (s.setReg r i v).msgs = s.msgs := rfl
@[simp] theorem State.setReg_mcs (r : Reg) (i : Nat) (v : Word64) : (s.setReg r i v).mcs = s.mcs := rfl
@[simp] theorem State.setReg_combs (r : Reg) (i : Nat) (v : Word64) : (s.setReg r i v).combs = s.combs := rfl
@[simp] theorem State.setReg_rounds (r : Reg) (i : Nat) (v : Word64) : (s.setReg r i v).rounds = s.rounds := rfl
@[simp] theorem State.setReg_combEntries (r : Reg) (i : Nat) (v : Word64) : (s.setReg r i v).combEntries = s.combEntries := rfl
@[simp] theorem State.setReg_waiters (r : Reg) (i : Nat) (v : Word64) : (s.setReg r i v).waiters = s.waiters := rfl
@[simp] theorem State.setReg_sweep (r : Reg) (i : Nat) (v : Word64) : (s.setReg r i v).sweep = s.sweep := rfl
@[simp] theorem State.setReg_syncOps (r : Reg) (i : Nat) (v : Word64) : (s.setReg r i v).syncOps = s.syncOps := rfl
@[simp] theorem State.setReg_syncAns (r : Reg) (i : Nat) (v : Word64) : (s.setReg r i v).syncAns = s.syncAns := rfl
@[simp] theorem State.setReg_mrds (r : Reg) (i : Nat) (v : Word64) : (s.setReg r i v).mrds = s.mrds := rfl
@[simp] theorem State.setReg_mrdWaits (r : Reg) (i : Nat) (v : Word64) : (s.setReg r i v).mrdWaits = s.mrdWaits := rfl
@[simp] theorem State.setReg_mirror (r : Reg) (i : Nat) (v : Word64) : (s.setReg r i v).mirror = s.mirror := rfl
@[simp] theorem State.setReg_recs (r : Reg) (i : Nat) (v : Word64) : (s.setReg r i v).recs = s.recs := rfl
@[simp] theorem State.setReg_bundles (r : Reg) (i : Nat) (v : Word64) : (s.setReg r i v).bundles = s.bundles := rfl

/-! ## set -/

@[simp] theorem State.set_pending (f : Fld) (v i : Nat) : (s.set f v i).pending = s.pending := rfl
@[simp] theorem State.set_freeCount (f : Fld) (v i : Nat) : (s.set f v i).freeCount = s.freeCount := rfl
@[simp] theorem State.set_clk (f : Fld) (v i : Nat) : (s.set f v i).clk = s.clk := rfl
@[simp] theorem State.set_pins (f : Fld) (v i : Nat) : (s.set f v i).pins = s.pins := rfl
@[simp] theorem State.set_clash (f : Fld) (v i : Nat) : (s.set f v i).clash = s.clash := rfl
@[simp] theorem State.set_mem (f : Fld) (v i : Nat) : (s.set f v i).mem = s.mem := rfl
@[simp] theorem State.set_bad (f : Fld) (v i : Nat) : (s.set f v i).bad = s.bad := rfl
@[simp] theorem State.set_undef (f : Fld) (v i : Nat) : (s.set f v i).undef = s.undef := rfl
@[simp] theorem State.set_zeroed (f : Fld) (v i : Nat) : (s.set f v i).zeroed = s.zeroed := rfl
@[simp] theorem State.set_cores (f : Fld) (v i : Nat) : (s.set f v i).cores = s.cores := rfl
@[simp] theorem State.set_kiln (f : Fld) (v i : Nat) : (s.set f v i).kiln = s.kiln := rfl
@[simp] theorem State.set_queues (f : Fld) (v i : Nat) : (s.set f v i).queues = s.queues := rfl
@[simp] theorem State.set_rings (f : Fld) (v i : Nat) : (s.set f v i).rings = s.rings := rfl
@[simp] theorem State.set_launches (f : Fld) (v i : Nat) : (s.set f v i).launches = s.launches := rfl
@[simp] theorem State.set_turn (f : Fld) (v i : Nat) : (s.set f v i).turn = s.turn := rfl
@[simp] theorem State.set_xlfsr (f : Fld) (v i : Nat) : (s.set f v i).xlfsr = s.xlfsr := rfl
@[simp] theorem State.set_pubs (f : Fld) (v i : Nat) : (s.set f v i).pubs = s.pubs := rfl
@[simp] theorem State.set_swath (f : Fld) (v i : Nat) : (s.set f v i).swath = s.swath := rfl
@[simp] theorem State.set_sieveRes (f : Fld) (v i : Nat) : (s.set f v i).sieveRes = s.sieveRes := rfl
@[simp] theorem State.set_hearth (f : Fld) (v i : Nat) : (s.set f v i).hearth = s.hearth := rfl
@[simp] theorem State.set_cones (f : Fld) (v i : Nat) : (s.set f v i).cones = s.cones := rfl
@[simp] theorem State.set_upkeep (f : Fld) (v i : Nat) : (s.set f v i).upkeep = s.upkeep := rfl
@[simp] theorem State.set_ras (f : Fld) (v i : Nat) : (s.set f v i).ras = s.ras := rfl
@[simp] theorem State.set_sec (f : Fld) (v i : Nat) : (s.set f v i).sec = s.sec := rfl
@[simp] theorem State.set_mgt (f : Fld) (v i : Nat) : (s.set f v i).mgt = s.mgt := rfl
@[simp] theorem State.set_resets (f : Fld) (v i : Nat) : (s.set f v i).resets = s.resets := rfl
@[simp] theorem State.set_reqs (f : Fld) (v i : Nat) : (s.set f v i).reqs = s.reqs := rfl
@[simp] theorem State.set_resps (f : Fld) (v i : Nat) : (s.set f v i).resps = s.resps := rfl
@[simp] theorem State.set_acks (f : Fld) (v i : Nat) : (s.set f v i).acks = s.acks := rfl
@[simp] theorem State.set_msgs (f : Fld) (v i : Nat) : (s.set f v i).msgs = s.msgs := rfl
@[simp] theorem State.set_mcs (f : Fld) (v i : Nat) : (s.set f v i).mcs = s.mcs := rfl
@[simp] theorem State.set_combs (f : Fld) (v i : Nat) : (s.set f v i).combs = s.combs := rfl
@[simp] theorem State.set_rounds (f : Fld) (v i : Nat) : (s.set f v i).rounds = s.rounds := rfl
@[simp] theorem State.set_combEntries (f : Fld) (v i : Nat) : (s.set f v i).combEntries = s.combEntries := rfl
@[simp] theorem State.set_waiters (f : Fld) (v i : Nat) : (s.set f v i).waiters = s.waiters := rfl
@[simp] theorem State.set_sweep (f : Fld) (v i : Nat) : (s.set f v i).sweep = s.sweep := rfl
@[simp] theorem State.set_syncOps (f : Fld) (v i : Nat) : (s.set f v i).syncOps = s.syncOps := rfl
@[simp] theorem State.set_syncAns (f : Fld) (v i : Nat) : (s.set f v i).syncAns = s.syncAns := rfl
@[simp] theorem State.set_mrds (f : Fld) (v i : Nat) : (s.set f v i).mrds = s.mrds := rfl
@[simp] theorem State.set_mrdWaits (f : Fld) (v i : Nat) : (s.set f v i).mrdWaits = s.mrdWaits := rfl
@[simp] theorem State.set_mirror (f : Fld) (v i : Nat) : (s.set f v i).mirror = s.mirror := rfl
@[simp] theorem State.set_recs (f : Fld) (v i : Nat) : (s.set f v i).recs = s.recs := rfl
@[simp] theorem State.set_bundles (f : Fld) (v i : Nat) : (s.set f v i).bundles = s.bundles := rfl

/-! ## setCore -/

@[simp] theorem State.setCore_pending (c : Nat) (k : Core) : (s.setCore c k).pending = s.pending := rfl
@[simp] theorem State.setCore_freeCount (c : Nat) (k : Core) : (s.setCore c k).freeCount = s.freeCount := rfl
@[simp] theorem State.setCore_clk (c : Nat) (k : Core) : (s.setCore c k).clk = s.clk := rfl
@[simp] theorem State.setCore_pins (c : Nat) (k : Core) : (s.setCore c k).pins = s.pins := rfl
@[simp] theorem State.setCore_regs (c : Nat) (k : Core) : (s.setCore c k).regs = s.regs := rfl
@[simp] theorem State.setCore_clash (c : Nat) (k : Core) : (s.setCore c k).clash = s.clash := rfl
@[simp] theorem State.setCore_mem (c : Nat) (k : Core) : (s.setCore c k).mem = s.mem := rfl
@[simp] theorem State.setCore_bad (c : Nat) (k : Core) : (s.setCore c k).bad = s.bad := rfl
@[simp] theorem State.setCore_undef (c : Nat) (k : Core) : (s.setCore c k).undef = s.undef := rfl
@[simp] theorem State.setCore_zeroed (c : Nat) (k : Core) : (s.setCore c k).zeroed = s.zeroed := rfl
@[simp] theorem State.setCore_cores (c : Nat) (k : Core) : (s.setCore c k).cores = mput s.cores c k := rfl
@[simp] theorem State.setCore_kiln (c : Nat) (k : Core) : (s.setCore c k).kiln = s.kiln := rfl
@[simp] theorem State.setCore_queues (c : Nat) (k : Core) : (s.setCore c k).queues = s.queues := rfl
@[simp] theorem State.setCore_rings (c : Nat) (k : Core) : (s.setCore c k).rings = s.rings := rfl
@[simp] theorem State.setCore_launches (c : Nat) (k : Core) : (s.setCore c k).launches = s.launches := rfl
@[simp] theorem State.setCore_turn (c : Nat) (k : Core) : (s.setCore c k).turn = s.turn := rfl
@[simp] theorem State.setCore_xlfsr (c : Nat) (k : Core) : (s.setCore c k).xlfsr = s.xlfsr := rfl
@[simp] theorem State.setCore_pubs (c : Nat) (k : Core) : (s.setCore c k).pubs = s.pubs := rfl
@[simp] theorem State.setCore_swath (c : Nat) (k : Core) : (s.setCore c k).swath = s.swath := rfl
@[simp] theorem State.setCore_sieveRes (c : Nat) (k : Core) : (s.setCore c k).sieveRes = s.sieveRes := rfl
@[simp] theorem State.setCore_hearth (c : Nat) (k : Core) : (s.setCore c k).hearth = s.hearth := rfl
@[simp] theorem State.setCore_cones (c : Nat) (k : Core) : (s.setCore c k).cones = s.cones := rfl
@[simp] theorem State.setCore_upkeep (c : Nat) (k : Core) : (s.setCore c k).upkeep = s.upkeep := rfl
@[simp] theorem State.setCore_ras (c : Nat) (k : Core) : (s.setCore c k).ras = s.ras := rfl
@[simp] theorem State.setCore_sec (c : Nat) (k : Core) : (s.setCore c k).sec = s.sec := rfl
@[simp] theorem State.setCore_mgt (c : Nat) (k : Core) : (s.setCore c k).mgt = s.mgt := rfl
@[simp] theorem State.setCore_resets (c : Nat) (k : Core) : (s.setCore c k).resets = s.resets := rfl
@[simp] theorem State.setCore_reqs (c : Nat) (k : Core) : (s.setCore c k).reqs = s.reqs := rfl
@[simp] theorem State.setCore_resps (c : Nat) (k : Core) : (s.setCore c k).resps = s.resps := rfl
@[simp] theorem State.setCore_acks (c : Nat) (k : Core) : (s.setCore c k).acks = s.acks := rfl
@[simp] theorem State.setCore_msgs (c : Nat) (k : Core) : (s.setCore c k).msgs = s.msgs := rfl
@[simp] theorem State.setCore_mcs (c : Nat) (k : Core) : (s.setCore c k).mcs = s.mcs := rfl
@[simp] theorem State.setCore_combs (c : Nat) (k : Core) : (s.setCore c k).combs = s.combs := rfl
@[simp] theorem State.setCore_rounds (c : Nat) (k : Core) : (s.setCore c k).rounds = s.rounds := rfl
@[simp] theorem State.setCore_combEntries (c : Nat) (k : Core) : (s.setCore c k).combEntries = s.combEntries := rfl
@[simp] theorem State.setCore_waiters (c : Nat) (k : Core) : (s.setCore c k).waiters = s.waiters := rfl
@[simp] theorem State.setCore_sweep (c : Nat) (k : Core) : (s.setCore c k).sweep = s.sweep := rfl
@[simp] theorem State.setCore_syncOps (c : Nat) (k : Core) : (s.setCore c k).syncOps = s.syncOps := rfl
@[simp] theorem State.setCore_syncAns (c : Nat) (k : Core) : (s.setCore c k).syncAns = s.syncAns := rfl
@[simp] theorem State.setCore_mrds (c : Nat) (k : Core) : (s.setCore c k).mrds = s.mrds := rfl
@[simp] theorem State.setCore_mrdWaits (c : Nat) (k : Core) : (s.setCore c k).mrdWaits = s.mrdWaits := rfl
@[simp] theorem State.setCore_mirror (c : Nat) (k : Core) : (s.setCore c k).mirror = s.mirror := rfl
@[simp] theorem State.setCore_recs (c : Nat) (k : Core) : (s.setCore c k).recs = s.recs := rfl
@[simp] theorem State.setCore_bundles (c : Nat) (k : Core) : (s.setCore c k).bundles = s.bundles := rfl

/-! ## updCore -/

@[simp] theorem State.updCore_pending (c : Nat) (f : Core → Core) : (s.updCore c f).pending = s.pending := rfl
@[simp] theorem State.updCore_freeCount (c : Nat) (f : Core → Core) : (s.updCore c f).freeCount = s.freeCount := rfl
@[simp] theorem State.updCore_clk (c : Nat) (f : Core → Core) : (s.updCore c f).clk = s.clk := rfl
@[simp] theorem State.updCore_pins (c : Nat) (f : Core → Core) : (s.updCore c f).pins = s.pins := rfl
@[simp] theorem State.updCore_regs (c : Nat) (f : Core → Core) : (s.updCore c f).regs = s.regs := rfl
@[simp] theorem State.updCore_clash (c : Nat) (f : Core → Core) : (s.updCore c f).clash = s.clash := rfl
@[simp] theorem State.updCore_mem (c : Nat) (f : Core → Core) : (s.updCore c f).mem = s.mem := rfl
@[simp] theorem State.updCore_bad (c : Nat) (f : Core → Core) : (s.updCore c f).bad = s.bad := rfl
@[simp] theorem State.updCore_undef (c : Nat) (f : Core → Core) : (s.updCore c f).undef = s.undef := rfl
@[simp] theorem State.updCore_zeroed (c : Nat) (f : Core → Core) : (s.updCore c f).zeroed = s.zeroed := rfl
@[simp] theorem State.updCore_cores (c : Nat) (f : Core → Core) : (s.updCore c f).cores = mput s.cores c (f (s.core c)) := rfl
@[simp] theorem State.updCore_kiln (c : Nat) (f : Core → Core) : (s.updCore c f).kiln = s.kiln := rfl
@[simp] theorem State.updCore_queues (c : Nat) (f : Core → Core) : (s.updCore c f).queues = s.queues := rfl
@[simp] theorem State.updCore_rings (c : Nat) (f : Core → Core) : (s.updCore c f).rings = s.rings := rfl
@[simp] theorem State.updCore_launches (c : Nat) (f : Core → Core) : (s.updCore c f).launches = s.launches := rfl
@[simp] theorem State.updCore_turn (c : Nat) (f : Core → Core) : (s.updCore c f).turn = s.turn := rfl
@[simp] theorem State.updCore_xlfsr (c : Nat) (f : Core → Core) : (s.updCore c f).xlfsr = s.xlfsr := rfl
@[simp] theorem State.updCore_pubs (c : Nat) (f : Core → Core) : (s.updCore c f).pubs = s.pubs := rfl
@[simp] theorem State.updCore_swath (c : Nat) (f : Core → Core) : (s.updCore c f).swath = s.swath := rfl
@[simp] theorem State.updCore_sieveRes (c : Nat) (f : Core → Core) : (s.updCore c f).sieveRes = s.sieveRes := rfl
@[simp] theorem State.updCore_hearth (c : Nat) (f : Core → Core) : (s.updCore c f).hearth = s.hearth := rfl
@[simp] theorem State.updCore_cones (c : Nat) (f : Core → Core) : (s.updCore c f).cones = s.cones := rfl
@[simp] theorem State.updCore_upkeep (c : Nat) (f : Core → Core) : (s.updCore c f).upkeep = s.upkeep := rfl
@[simp] theorem State.updCore_ras (c : Nat) (f : Core → Core) : (s.updCore c f).ras = s.ras := rfl
@[simp] theorem State.updCore_sec (c : Nat) (f : Core → Core) : (s.updCore c f).sec = s.sec := rfl
@[simp] theorem State.updCore_mgt (c : Nat) (f : Core → Core) : (s.updCore c f).mgt = s.mgt := rfl
@[simp] theorem State.updCore_resets (c : Nat) (f : Core → Core) : (s.updCore c f).resets = s.resets := rfl
@[simp] theorem State.updCore_reqs (c : Nat) (f : Core → Core) : (s.updCore c f).reqs = s.reqs := rfl
@[simp] theorem State.updCore_resps (c : Nat) (f : Core → Core) : (s.updCore c f).resps = s.resps := rfl
@[simp] theorem State.updCore_acks (c : Nat) (f : Core → Core) : (s.updCore c f).acks = s.acks := rfl
@[simp] theorem State.updCore_msgs (c : Nat) (f : Core → Core) : (s.updCore c f).msgs = s.msgs := rfl
@[simp] theorem State.updCore_mcs (c : Nat) (f : Core → Core) : (s.updCore c f).mcs = s.mcs := rfl
@[simp] theorem State.updCore_combs (c : Nat) (f : Core → Core) : (s.updCore c f).combs = s.combs := rfl
@[simp] theorem State.updCore_rounds (c : Nat) (f : Core → Core) : (s.updCore c f).rounds = s.rounds := rfl
@[simp] theorem State.updCore_combEntries (c : Nat) (f : Core → Core) : (s.updCore c f).combEntries = s.combEntries := rfl
@[simp] theorem State.updCore_waiters (c : Nat) (f : Core → Core) : (s.updCore c f).waiters = s.waiters := rfl
@[simp] theorem State.updCore_sweep (c : Nat) (f : Core → Core) : (s.updCore c f).sweep = s.sweep := rfl
@[simp] theorem State.updCore_syncOps (c : Nat) (f : Core → Core) : (s.updCore c f).syncOps = s.syncOps := rfl
@[simp] theorem State.updCore_syncAns (c : Nat) (f : Core → Core) : (s.updCore c f).syncAns = s.syncAns := rfl
@[simp] theorem State.updCore_mrds (c : Nat) (f : Core → Core) : (s.updCore c f).mrds = s.mrds := rfl
@[simp] theorem State.updCore_mrdWaits (c : Nat) (f : Core → Core) : (s.updCore c f).mrdWaits = s.mrdWaits := rfl
@[simp] theorem State.updCore_mirror (c : Nat) (f : Core → Core) : (s.updCore c f).mirror = s.mirror := rfl
@[simp] theorem State.updCore_recs (c : Nat) (f : Core → Core) : (s.updCore c f).recs = s.recs := rfl
@[simp] theorem State.updCore_bundles (c : Nat) (f : Core → Core) : (s.updCore c f).bundles = s.bundles := rfl

/-! ## updSc -/

@[simp] theorem State.updSc_pending (c : Nat) (f : Scalar → Scalar) : (s.updSc c f).pending = s.pending := rfl
@[simp] theorem State.updSc_freeCount (c : Nat) (f : Scalar → Scalar) : (s.updSc c f).freeCount = s.freeCount := rfl
@[simp] theorem State.updSc_clk (c : Nat) (f : Scalar → Scalar) : (s.updSc c f).clk = s.clk := rfl
@[simp] theorem State.updSc_pins (c : Nat) (f : Scalar → Scalar) : (s.updSc c f).pins = s.pins := rfl
@[simp] theorem State.updSc_regs (c : Nat) (f : Scalar → Scalar) : (s.updSc c f).regs = s.regs := rfl
@[simp] theorem State.updSc_clash (c : Nat) (f : Scalar → Scalar) : (s.updSc c f).clash = s.clash := rfl
@[simp] theorem State.updSc_mem (c : Nat) (f : Scalar → Scalar) : (s.updSc c f).mem = s.mem := rfl
@[simp] theorem State.updSc_bad (c : Nat) (f : Scalar → Scalar) : (s.updSc c f).bad = s.bad := rfl
@[simp] theorem State.updSc_undef (c : Nat) (f : Scalar → Scalar) : (s.updSc c f).undef = s.undef := rfl
@[simp] theorem State.updSc_zeroed (c : Nat) (f : Scalar → Scalar) : (s.updSc c f).zeroed = s.zeroed := rfl
@[simp] theorem State.updSc_cores (c : Nat) (f : Scalar → Scalar) : (s.updSc c f).cores = mput s.cores c { s.core c with sc := f (s.core c).sc } := rfl
@[simp] theorem State.updSc_kiln (c : Nat) (f : Scalar → Scalar) : (s.updSc c f).kiln = s.kiln := rfl
@[simp] theorem State.updSc_queues (c : Nat) (f : Scalar → Scalar) : (s.updSc c f).queues = s.queues := rfl
@[simp] theorem State.updSc_rings (c : Nat) (f : Scalar → Scalar) : (s.updSc c f).rings = s.rings := rfl
@[simp] theorem State.updSc_launches (c : Nat) (f : Scalar → Scalar) : (s.updSc c f).launches = s.launches := rfl
@[simp] theorem State.updSc_turn (c : Nat) (f : Scalar → Scalar) : (s.updSc c f).turn = s.turn := rfl
@[simp] theorem State.updSc_xlfsr (c : Nat) (f : Scalar → Scalar) : (s.updSc c f).xlfsr = s.xlfsr := rfl
@[simp] theorem State.updSc_pubs (c : Nat) (f : Scalar → Scalar) : (s.updSc c f).pubs = s.pubs := rfl
@[simp] theorem State.updSc_swath (c : Nat) (f : Scalar → Scalar) : (s.updSc c f).swath = s.swath := rfl
@[simp] theorem State.updSc_sieveRes (c : Nat) (f : Scalar → Scalar) : (s.updSc c f).sieveRes = s.sieveRes := rfl
@[simp] theorem State.updSc_hearth (c : Nat) (f : Scalar → Scalar) : (s.updSc c f).hearth = s.hearth := rfl
@[simp] theorem State.updSc_cones (c : Nat) (f : Scalar → Scalar) : (s.updSc c f).cones = s.cones := rfl
@[simp] theorem State.updSc_upkeep (c : Nat) (f : Scalar → Scalar) : (s.updSc c f).upkeep = s.upkeep := rfl
@[simp] theorem State.updSc_ras (c : Nat) (f : Scalar → Scalar) : (s.updSc c f).ras = s.ras := rfl
@[simp] theorem State.updSc_sec (c : Nat) (f : Scalar → Scalar) : (s.updSc c f).sec = s.sec := rfl
@[simp] theorem State.updSc_mgt (c : Nat) (f : Scalar → Scalar) : (s.updSc c f).mgt = s.mgt := rfl
@[simp] theorem State.updSc_resets (c : Nat) (f : Scalar → Scalar) : (s.updSc c f).resets = s.resets := rfl
@[simp] theorem State.updSc_reqs (c : Nat) (f : Scalar → Scalar) : (s.updSc c f).reqs = s.reqs := rfl
@[simp] theorem State.updSc_resps (c : Nat) (f : Scalar → Scalar) : (s.updSc c f).resps = s.resps := rfl
@[simp] theorem State.updSc_acks (c : Nat) (f : Scalar → Scalar) : (s.updSc c f).acks = s.acks := rfl
@[simp] theorem State.updSc_msgs (c : Nat) (f : Scalar → Scalar) : (s.updSc c f).msgs = s.msgs := rfl
@[simp] theorem State.updSc_mcs (c : Nat) (f : Scalar → Scalar) : (s.updSc c f).mcs = s.mcs := rfl
@[simp] theorem State.updSc_combs (c : Nat) (f : Scalar → Scalar) : (s.updSc c f).combs = s.combs := rfl
@[simp] theorem State.updSc_rounds (c : Nat) (f : Scalar → Scalar) : (s.updSc c f).rounds = s.rounds := rfl
@[simp] theorem State.updSc_combEntries (c : Nat) (f : Scalar → Scalar) : (s.updSc c f).combEntries = s.combEntries := rfl
@[simp] theorem State.updSc_waiters (c : Nat) (f : Scalar → Scalar) : (s.updSc c f).waiters = s.waiters := rfl
@[simp] theorem State.updSc_sweep (c : Nat) (f : Scalar → Scalar) : (s.updSc c f).sweep = s.sweep := rfl
@[simp] theorem State.updSc_syncOps (c : Nat) (f : Scalar → Scalar) : (s.updSc c f).syncOps = s.syncOps := rfl
@[simp] theorem State.updSc_syncAns (c : Nat) (f : Scalar → Scalar) : (s.updSc c f).syncAns = s.syncAns := rfl
@[simp] theorem State.updSc_mrds (c : Nat) (f : Scalar → Scalar) : (s.updSc c f).mrds = s.mrds := rfl
@[simp] theorem State.updSc_mrdWaits (c : Nat) (f : Scalar → Scalar) : (s.updSc c f).mrdWaits = s.mrdWaits := rfl
@[simp] theorem State.updSc_mirror (c : Nat) (f : Scalar → Scalar) : (s.updSc c f).mirror = s.mirror := rfl
@[simp] theorem State.updSc_recs (c : Nat) (f : Scalar → Scalar) : (s.updSc c f).recs = s.recs := rfl
@[simp] theorem State.updSc_bundles (c : Nat) (f : Scalar → Scalar) : (s.updSc c f).bundles = s.bundles := rfl

/-! ## setBundle -/

@[simp] theorem State.setBundle_pending (l : LinkId) (b : Nat) (v : Bundle) : (s.setBundle l b v).pending = s.pending := rfl
@[simp] theorem State.setBundle_freeCount (l : LinkId) (b : Nat) (v : Bundle) : (s.setBundle l b v).freeCount = s.freeCount := rfl
@[simp] theorem State.setBundle_clk (l : LinkId) (b : Nat) (v : Bundle) : (s.setBundle l b v).clk = s.clk := rfl
@[simp] theorem State.setBundle_pins (l : LinkId) (b : Nat) (v : Bundle) : (s.setBundle l b v).pins = s.pins := rfl
@[simp] theorem State.setBundle_regs (l : LinkId) (b : Nat) (v : Bundle) : (s.setBundle l b v).regs = s.regs := rfl
@[simp] theorem State.setBundle_clash (l : LinkId) (b : Nat) (v : Bundle) : (s.setBundle l b v).clash = s.clash := rfl
@[simp] theorem State.setBundle_mem (l : LinkId) (b : Nat) (v : Bundle) : (s.setBundle l b v).mem = s.mem := rfl
@[simp] theorem State.setBundle_bad (l : LinkId) (b : Nat) (v : Bundle) : (s.setBundle l b v).bad = s.bad := rfl
@[simp] theorem State.setBundle_undef (l : LinkId) (b : Nat) (v : Bundle) : (s.setBundle l b v).undef = s.undef := rfl
@[simp] theorem State.setBundle_zeroed (l : LinkId) (b : Nat) (v : Bundle) : (s.setBundle l b v).zeroed = s.zeroed := rfl
@[simp] theorem State.setBundle_cores (l : LinkId) (b : Nat) (v : Bundle) : (s.setBundle l b v).cores = s.cores := rfl
@[simp] theorem State.setBundle_kiln (l : LinkId) (b : Nat) (v : Bundle) : (s.setBundle l b v).kiln = s.kiln := rfl
@[simp] theorem State.setBundle_queues (l : LinkId) (b : Nat) (v : Bundle) : (s.setBundle l b v).queues = s.queues := rfl
@[simp] theorem State.setBundle_rings (l : LinkId) (b : Nat) (v : Bundle) : (s.setBundle l b v).rings = s.rings := rfl
@[simp] theorem State.setBundle_launches (l : LinkId) (b : Nat) (v : Bundle) : (s.setBundle l b v).launches = s.launches := rfl
@[simp] theorem State.setBundle_turn (l : LinkId) (b : Nat) (v : Bundle) : (s.setBundle l b v).turn = s.turn := rfl
@[simp] theorem State.setBundle_xlfsr (l : LinkId) (b : Nat) (v : Bundle) : (s.setBundle l b v).xlfsr = s.xlfsr := rfl
@[simp] theorem State.setBundle_pubs (l : LinkId) (b : Nat) (v : Bundle) : (s.setBundle l b v).pubs = s.pubs := rfl
@[simp] theorem State.setBundle_swath (l : LinkId) (b : Nat) (v : Bundle) : (s.setBundle l b v).swath = s.swath := rfl
@[simp] theorem State.setBundle_sieveRes (l : LinkId) (b : Nat) (v : Bundle) : (s.setBundle l b v).sieveRes = s.sieveRes := rfl
@[simp] theorem State.setBundle_hearth (l : LinkId) (b : Nat) (v : Bundle) : (s.setBundle l b v).hearth = s.hearth := rfl
@[simp] theorem State.setBundle_cones (l : LinkId) (b : Nat) (v : Bundle) : (s.setBundle l b v).cones = s.cones := rfl
@[simp] theorem State.setBundle_upkeep (l : LinkId) (b : Nat) (v : Bundle) : (s.setBundle l b v).upkeep = s.upkeep := rfl
@[simp] theorem State.setBundle_ras (l : LinkId) (b : Nat) (v : Bundle) : (s.setBundle l b v).ras = s.ras := rfl
@[simp] theorem State.setBundle_sec (l : LinkId) (b : Nat) (v : Bundle) : (s.setBundle l b v).sec = s.sec := rfl
@[simp] theorem State.setBundle_mgt (l : LinkId) (b : Nat) (v : Bundle) : (s.setBundle l b v).mgt = s.mgt := rfl
@[simp] theorem State.setBundle_resets (l : LinkId) (b : Nat) (v : Bundle) : (s.setBundle l b v).resets = s.resets := rfl
@[simp] theorem State.setBundle_reqs (l : LinkId) (b : Nat) (v : Bundle) : (s.setBundle l b v).reqs = s.reqs := rfl
@[simp] theorem State.setBundle_resps (l : LinkId) (b : Nat) (v : Bundle) : (s.setBundle l b v).resps = s.resps := rfl
@[simp] theorem State.setBundle_acks (l : LinkId) (b : Nat) (v : Bundle) : (s.setBundle l b v).acks = s.acks := rfl
@[simp] theorem State.setBundle_msgs (l : LinkId) (b : Nat) (v : Bundle) : (s.setBundle l b v).msgs = s.msgs := rfl
@[simp] theorem State.setBundle_mcs (l : LinkId) (b : Nat) (v : Bundle) : (s.setBundle l b v).mcs = s.mcs := rfl
@[simp] theorem State.setBundle_combs (l : LinkId) (b : Nat) (v : Bundle) : (s.setBundle l b v).combs = s.combs := rfl
@[simp] theorem State.setBundle_rounds (l : LinkId) (b : Nat) (v : Bundle) : (s.setBundle l b v).rounds = s.rounds := rfl
@[simp] theorem State.setBundle_combEntries (l : LinkId) (b : Nat) (v : Bundle) : (s.setBundle l b v).combEntries = s.combEntries := rfl
@[simp] theorem State.setBundle_waiters (l : LinkId) (b : Nat) (v : Bundle) : (s.setBundle l b v).waiters = s.waiters := rfl
@[simp] theorem State.setBundle_sweep (l : LinkId) (b : Nat) (v : Bundle) : (s.setBundle l b v).sweep = s.sweep := rfl
@[simp] theorem State.setBundle_syncOps (l : LinkId) (b : Nat) (v : Bundle) : (s.setBundle l b v).syncOps = s.syncOps := rfl
@[simp] theorem State.setBundle_syncAns (l : LinkId) (b : Nat) (v : Bundle) : (s.setBundle l b v).syncAns = s.syncAns := rfl
@[simp] theorem State.setBundle_mrds (l : LinkId) (b : Nat) (v : Bundle) : (s.setBundle l b v).mrds = s.mrds := rfl
@[simp] theorem State.setBundle_mrdWaits (l : LinkId) (b : Nat) (v : Bundle) : (s.setBundle l b v).mrdWaits = s.mrdWaits := rfl
@[simp] theorem State.setBundle_mirror (l : LinkId) (b : Nat) (v : Bundle) : (s.setBundle l b v).mirror = s.mirror := rfl
@[simp] theorem State.setBundle_recs (l : LinkId) (b : Nat) (v : Bundle) : (s.setBundle l b v).recs = s.recs := rfl
@[simp] theorem State.setBundle_bundles (l : LinkId) (b : Nat) (v : Bundle) : (s.setBundle l b v).bundles = mput s.bundles (l, b) v := rfl

/-! ## setQueue -/

@[simp] theorem State.setQueue_pending (q : Nat) (v : Queue) : (s.setQueue q v).pending = s.pending := rfl
@[simp] theorem State.setQueue_freeCount (q : Nat) (v : Queue) : (s.setQueue q v).freeCount = s.freeCount := rfl
@[simp] theorem State.setQueue_clk (q : Nat) (v : Queue) : (s.setQueue q v).clk = s.clk := rfl
@[simp] theorem State.setQueue_pins (q : Nat) (v : Queue) : (s.setQueue q v).pins = s.pins := rfl
@[simp] theorem State.setQueue_regs (q : Nat) (v : Queue) : (s.setQueue q v).regs = s.regs := rfl
@[simp] theorem State.setQueue_clash (q : Nat) (v : Queue) : (s.setQueue q v).clash = s.clash := rfl
@[simp] theorem State.setQueue_mem (q : Nat) (v : Queue) : (s.setQueue q v).mem = s.mem := rfl
@[simp] theorem State.setQueue_bad (q : Nat) (v : Queue) : (s.setQueue q v).bad = s.bad := rfl
@[simp] theorem State.setQueue_undef (q : Nat) (v : Queue) : (s.setQueue q v).undef = s.undef := rfl
@[simp] theorem State.setQueue_zeroed (q : Nat) (v : Queue) : (s.setQueue q v).zeroed = s.zeroed := rfl
@[simp] theorem State.setQueue_cores (q : Nat) (v : Queue) : (s.setQueue q v).cores = s.cores := rfl
@[simp] theorem State.setQueue_kiln (q : Nat) (v : Queue) : (s.setQueue q v).kiln = s.kiln := rfl
@[simp] theorem State.setQueue_queues (q : Nat) (v : Queue) : (s.setQueue q v).queues = mput s.queues q v := rfl
@[simp] theorem State.setQueue_rings (q : Nat) (v : Queue) : (s.setQueue q v).rings = s.rings := rfl
@[simp] theorem State.setQueue_launches (q : Nat) (v : Queue) : (s.setQueue q v).launches = s.launches := rfl
@[simp] theorem State.setQueue_turn (q : Nat) (v : Queue) : (s.setQueue q v).turn = s.turn := rfl
@[simp] theorem State.setQueue_xlfsr (q : Nat) (v : Queue) : (s.setQueue q v).xlfsr = s.xlfsr := rfl
@[simp] theorem State.setQueue_pubs (q : Nat) (v : Queue) : (s.setQueue q v).pubs = s.pubs := rfl
@[simp] theorem State.setQueue_swath (q : Nat) (v : Queue) : (s.setQueue q v).swath = s.swath := rfl
@[simp] theorem State.setQueue_sieveRes (q : Nat) (v : Queue) : (s.setQueue q v).sieveRes = s.sieveRes := rfl
@[simp] theorem State.setQueue_hearth (q : Nat) (v : Queue) : (s.setQueue q v).hearth = s.hearth := rfl
@[simp] theorem State.setQueue_cones (q : Nat) (v : Queue) : (s.setQueue q v).cones = s.cones := rfl
@[simp] theorem State.setQueue_upkeep (q : Nat) (v : Queue) : (s.setQueue q v).upkeep = s.upkeep := rfl
@[simp] theorem State.setQueue_ras (q : Nat) (v : Queue) : (s.setQueue q v).ras = s.ras := rfl
@[simp] theorem State.setQueue_sec (q : Nat) (v : Queue) : (s.setQueue q v).sec = s.sec := rfl
@[simp] theorem State.setQueue_mgt (q : Nat) (v : Queue) : (s.setQueue q v).mgt = s.mgt := rfl
@[simp] theorem State.setQueue_resets (q : Nat) (v : Queue) : (s.setQueue q v).resets = s.resets := rfl
@[simp] theorem State.setQueue_reqs (q : Nat) (v : Queue) : (s.setQueue q v).reqs = s.reqs := rfl
@[simp] theorem State.setQueue_resps (q : Nat) (v : Queue) : (s.setQueue q v).resps = s.resps := rfl
@[simp] theorem State.setQueue_acks (q : Nat) (v : Queue) : (s.setQueue q v).acks = s.acks := rfl
@[simp] theorem State.setQueue_msgs (q : Nat) (v : Queue) : (s.setQueue q v).msgs = s.msgs := rfl
@[simp] theorem State.setQueue_mcs (q : Nat) (v : Queue) : (s.setQueue q v).mcs = s.mcs := rfl
@[simp] theorem State.setQueue_combs (q : Nat) (v : Queue) : (s.setQueue q v).combs = s.combs := rfl
@[simp] theorem State.setQueue_rounds (q : Nat) (v : Queue) : (s.setQueue q v).rounds = s.rounds := rfl
@[simp] theorem State.setQueue_combEntries (q : Nat) (v : Queue) : (s.setQueue q v).combEntries = s.combEntries := rfl
@[simp] theorem State.setQueue_waiters (q : Nat) (v : Queue) : (s.setQueue q v).waiters = s.waiters := rfl
@[simp] theorem State.setQueue_sweep (q : Nat) (v : Queue) : (s.setQueue q v).sweep = s.sweep := rfl
@[simp] theorem State.setQueue_syncOps (q : Nat) (v : Queue) : (s.setQueue q v).syncOps = s.syncOps := rfl
@[simp] theorem State.setQueue_syncAns (q : Nat) (v : Queue) : (s.setQueue q v).syncAns = s.syncAns := rfl
@[simp] theorem State.setQueue_mrds (q : Nat) (v : Queue) : (s.setQueue q v).mrds = s.mrds := rfl
@[simp] theorem State.setQueue_mrdWaits (q : Nat) (v : Queue) : (s.setQueue q v).mrdWaits = s.mrdWaits := rfl
@[simp] theorem State.setQueue_mirror (q : Nat) (v : Queue) : (s.setQueue q v).mirror = s.mirror := rfl
@[simp] theorem State.setQueue_recs (q : Nat) (v : Queue) : (s.setQueue q v).recs = s.recs := rfl
@[simp] theorem State.setQueue_bundles (q : Nat) (v : Queue) : (s.setQueue q v).bundles = s.bundles := rfl

/-! ## setRing -/

@[simp] theorem State.setRing_pending (m : Nat) (v : Ring) : (s.setRing m v).pending = s.pending := rfl
@[simp] theorem State.setRing_freeCount (m : Nat) (v : Ring) : (s.setRing m v).freeCount = s.freeCount := rfl
@[simp] theorem State.setRing_clk (m : Nat) (v : Ring) : (s.setRing m v).clk = s.clk := rfl
@[simp] theorem State.setRing_pins (m : Nat) (v : Ring) : (s.setRing m v).pins = s.pins := rfl
@[simp] theorem State.setRing_regs (m : Nat) (v : Ring) : (s.setRing m v).regs = s.regs := rfl
@[simp] theorem State.setRing_clash (m : Nat) (v : Ring) : (s.setRing m v).clash = s.clash := rfl
@[simp] theorem State.setRing_mem (m : Nat) (v : Ring) : (s.setRing m v).mem = s.mem := rfl
@[simp] theorem State.setRing_bad (m : Nat) (v : Ring) : (s.setRing m v).bad = s.bad := rfl
@[simp] theorem State.setRing_undef (m : Nat) (v : Ring) : (s.setRing m v).undef = s.undef := rfl
@[simp] theorem State.setRing_zeroed (m : Nat) (v : Ring) : (s.setRing m v).zeroed = s.zeroed := rfl
@[simp] theorem State.setRing_cores (m : Nat) (v : Ring) : (s.setRing m v).cores = s.cores := rfl
@[simp] theorem State.setRing_kiln (m : Nat) (v : Ring) : (s.setRing m v).kiln = s.kiln := rfl
@[simp] theorem State.setRing_queues (m : Nat) (v : Ring) : (s.setRing m v).queues = s.queues := rfl
@[simp] theorem State.setRing_rings (m : Nat) (v : Ring) : (s.setRing m v).rings = mput s.rings m v := rfl
@[simp] theorem State.setRing_launches (m : Nat) (v : Ring) : (s.setRing m v).launches = s.launches := rfl
@[simp] theorem State.setRing_turn (m : Nat) (v : Ring) : (s.setRing m v).turn = s.turn := rfl
@[simp] theorem State.setRing_xlfsr (m : Nat) (v : Ring) : (s.setRing m v).xlfsr = s.xlfsr := rfl
@[simp] theorem State.setRing_pubs (m : Nat) (v : Ring) : (s.setRing m v).pubs = s.pubs := rfl
@[simp] theorem State.setRing_swath (m : Nat) (v : Ring) : (s.setRing m v).swath = s.swath := rfl
@[simp] theorem State.setRing_sieveRes (m : Nat) (v : Ring) : (s.setRing m v).sieveRes = s.sieveRes := rfl
@[simp] theorem State.setRing_hearth (m : Nat) (v : Ring) : (s.setRing m v).hearth = s.hearth := rfl
@[simp] theorem State.setRing_cones (m : Nat) (v : Ring) : (s.setRing m v).cones = s.cones := rfl
@[simp] theorem State.setRing_upkeep (m : Nat) (v : Ring) : (s.setRing m v).upkeep = s.upkeep := rfl
@[simp] theorem State.setRing_ras (m : Nat) (v : Ring) : (s.setRing m v).ras = s.ras := rfl
@[simp] theorem State.setRing_sec (m : Nat) (v : Ring) : (s.setRing m v).sec = s.sec := rfl
@[simp] theorem State.setRing_mgt (m : Nat) (v : Ring) : (s.setRing m v).mgt = s.mgt := rfl
@[simp] theorem State.setRing_resets (m : Nat) (v : Ring) : (s.setRing m v).resets = s.resets := rfl
@[simp] theorem State.setRing_reqs (m : Nat) (v : Ring) : (s.setRing m v).reqs = s.reqs := rfl
@[simp] theorem State.setRing_resps (m : Nat) (v : Ring) : (s.setRing m v).resps = s.resps := rfl
@[simp] theorem State.setRing_acks (m : Nat) (v : Ring) : (s.setRing m v).acks = s.acks := rfl
@[simp] theorem State.setRing_msgs (m : Nat) (v : Ring) : (s.setRing m v).msgs = s.msgs := rfl
@[simp] theorem State.setRing_mcs (m : Nat) (v : Ring) : (s.setRing m v).mcs = s.mcs := rfl
@[simp] theorem State.setRing_combs (m : Nat) (v : Ring) : (s.setRing m v).combs = s.combs := rfl
@[simp] theorem State.setRing_rounds (m : Nat) (v : Ring) : (s.setRing m v).rounds = s.rounds := rfl
@[simp] theorem State.setRing_combEntries (m : Nat) (v : Ring) : (s.setRing m v).combEntries = s.combEntries := rfl
@[simp] theorem State.setRing_waiters (m : Nat) (v : Ring) : (s.setRing m v).waiters = s.waiters := rfl
@[simp] theorem State.setRing_sweep (m : Nat) (v : Ring) : (s.setRing m v).sweep = s.sweep := rfl
@[simp] theorem State.setRing_syncOps (m : Nat) (v : Ring) : (s.setRing m v).syncOps = s.syncOps := rfl
@[simp] theorem State.setRing_syncAns (m : Nat) (v : Ring) : (s.setRing m v).syncAns = s.syncAns := rfl
@[simp] theorem State.setRing_mrds (m : Nat) (v : Ring) : (s.setRing m v).mrds = s.mrds := rfl
@[simp] theorem State.setRing_mrdWaits (m : Nat) (v : Ring) : (s.setRing m v).mrdWaits = s.mrdWaits := rfl
@[simp] theorem State.setRing_mirror (m : Nat) (v : Ring) : (s.setRing m v).mirror = s.mirror := rfl
@[simp] theorem State.setRing_recs (m : Nat) (v : Ring) : (s.setRing m v).recs = s.recs := rfl
@[simp] theorem State.setRing_bundles (m : Nat) (v : Ring) : (s.setRing m v).bundles = s.bundles := rfl

/-! ## updKiln -/

@[simp] theorem State.updKiln_pending (f : Kiln → Kiln) : (s.updKiln f).pending = s.pending := rfl
@[simp] theorem State.updKiln_freeCount (f : Kiln → Kiln) : (s.updKiln f).freeCount = s.freeCount := rfl
@[simp] theorem State.updKiln_clk (f : Kiln → Kiln) : (s.updKiln f).clk = s.clk := rfl
@[simp] theorem State.updKiln_pins (f : Kiln → Kiln) : (s.updKiln f).pins = s.pins := rfl
@[simp] theorem State.updKiln_regs (f : Kiln → Kiln) : (s.updKiln f).regs = s.regs := rfl
@[simp] theorem State.updKiln_clash (f : Kiln → Kiln) : (s.updKiln f).clash = s.clash := rfl
@[simp] theorem State.updKiln_mem (f : Kiln → Kiln) : (s.updKiln f).mem = s.mem := rfl
@[simp] theorem State.updKiln_bad (f : Kiln → Kiln) : (s.updKiln f).bad = s.bad := rfl
@[simp] theorem State.updKiln_undef (f : Kiln → Kiln) : (s.updKiln f).undef = s.undef := rfl
@[simp] theorem State.updKiln_zeroed (f : Kiln → Kiln) : (s.updKiln f).zeroed = s.zeroed := rfl
@[simp] theorem State.updKiln_cores (f : Kiln → Kiln) : (s.updKiln f).cores = s.cores := rfl
@[simp] theorem State.updKiln_kiln (f : Kiln → Kiln) : (s.updKiln f).kiln = f s.kiln := rfl
@[simp] theorem State.updKiln_queues (f : Kiln → Kiln) : (s.updKiln f).queues = s.queues := rfl
@[simp] theorem State.updKiln_rings (f : Kiln → Kiln) : (s.updKiln f).rings = s.rings := rfl
@[simp] theorem State.updKiln_launches (f : Kiln → Kiln) : (s.updKiln f).launches = s.launches := rfl
@[simp] theorem State.updKiln_turn (f : Kiln → Kiln) : (s.updKiln f).turn = s.turn := rfl
@[simp] theorem State.updKiln_xlfsr (f : Kiln → Kiln) : (s.updKiln f).xlfsr = s.xlfsr := rfl
@[simp] theorem State.updKiln_pubs (f : Kiln → Kiln) : (s.updKiln f).pubs = s.pubs := rfl
@[simp] theorem State.updKiln_swath (f : Kiln → Kiln) : (s.updKiln f).swath = s.swath := rfl
@[simp] theorem State.updKiln_sieveRes (f : Kiln → Kiln) : (s.updKiln f).sieveRes = s.sieveRes := rfl
@[simp] theorem State.updKiln_hearth (f : Kiln → Kiln) : (s.updKiln f).hearth = s.hearth := rfl
@[simp] theorem State.updKiln_cones (f : Kiln → Kiln) : (s.updKiln f).cones = s.cones := rfl
@[simp] theorem State.updKiln_upkeep (f : Kiln → Kiln) : (s.updKiln f).upkeep = s.upkeep := rfl
@[simp] theorem State.updKiln_ras (f : Kiln → Kiln) : (s.updKiln f).ras = s.ras := rfl
@[simp] theorem State.updKiln_sec (f : Kiln → Kiln) : (s.updKiln f).sec = s.sec := rfl
@[simp] theorem State.updKiln_mgt (f : Kiln → Kiln) : (s.updKiln f).mgt = s.mgt := rfl
@[simp] theorem State.updKiln_resets (f : Kiln → Kiln) : (s.updKiln f).resets = s.resets := rfl
@[simp] theorem State.updKiln_reqs (f : Kiln → Kiln) : (s.updKiln f).reqs = s.reqs := rfl
@[simp] theorem State.updKiln_resps (f : Kiln → Kiln) : (s.updKiln f).resps = s.resps := rfl
@[simp] theorem State.updKiln_acks (f : Kiln → Kiln) : (s.updKiln f).acks = s.acks := rfl
@[simp] theorem State.updKiln_msgs (f : Kiln → Kiln) : (s.updKiln f).msgs = s.msgs := rfl
@[simp] theorem State.updKiln_mcs (f : Kiln → Kiln) : (s.updKiln f).mcs = s.mcs := rfl
@[simp] theorem State.updKiln_combs (f : Kiln → Kiln) : (s.updKiln f).combs = s.combs := rfl
@[simp] theorem State.updKiln_rounds (f : Kiln → Kiln) : (s.updKiln f).rounds = s.rounds := rfl
@[simp] theorem State.updKiln_combEntries (f : Kiln → Kiln) : (s.updKiln f).combEntries = s.combEntries := rfl
@[simp] theorem State.updKiln_waiters (f : Kiln → Kiln) : (s.updKiln f).waiters = s.waiters := rfl
@[simp] theorem State.updKiln_sweep (f : Kiln → Kiln) : (s.updKiln f).sweep = s.sweep := rfl
@[simp] theorem State.updKiln_syncOps (f : Kiln → Kiln) : (s.updKiln f).syncOps = s.syncOps := rfl
@[simp] theorem State.updKiln_syncAns (f : Kiln → Kiln) : (s.updKiln f).syncAns = s.syncAns := rfl
@[simp] theorem State.updKiln_mrds (f : Kiln → Kiln) : (s.updKiln f).mrds = s.mrds := rfl
@[simp] theorem State.updKiln_mrdWaits (f : Kiln → Kiln) : (s.updKiln f).mrdWaits = s.mrdWaits := rfl
@[simp] theorem State.updKiln_mirror (f : Kiln → Kiln) : (s.updKiln f).mirror = s.mirror := rfl
@[simp] theorem State.updKiln_recs (f : Kiln → Kiln) : (s.updKiln f).recs = s.recs := rfl
@[simp] theorem State.updKiln_bundles (f : Kiln → Kiln) : (s.updKiln f).bundles = s.bundles := rfl

/-! ## updHearth -/

@[simp] theorem State.updHearth_pending (f : Hearth → Hearth) : (s.updHearth f).pending = s.pending := rfl
@[simp] theorem State.updHearth_freeCount (f : Hearth → Hearth) : (s.updHearth f).freeCount = s.freeCount := rfl
@[simp] theorem State.updHearth_clk (f : Hearth → Hearth) : (s.updHearth f).clk = s.clk := rfl
@[simp] theorem State.updHearth_pins (f : Hearth → Hearth) : (s.updHearth f).pins = s.pins := rfl
@[simp] theorem State.updHearth_regs (f : Hearth → Hearth) : (s.updHearth f).regs = s.regs := rfl
@[simp] theorem State.updHearth_clash (f : Hearth → Hearth) : (s.updHearth f).clash = s.clash := rfl
@[simp] theorem State.updHearth_mem (f : Hearth → Hearth) : (s.updHearth f).mem = s.mem := rfl
@[simp] theorem State.updHearth_bad (f : Hearth → Hearth) : (s.updHearth f).bad = s.bad := rfl
@[simp] theorem State.updHearth_undef (f : Hearth → Hearth) : (s.updHearth f).undef = s.undef := rfl
@[simp] theorem State.updHearth_zeroed (f : Hearth → Hearth) : (s.updHearth f).zeroed = s.zeroed := rfl
@[simp] theorem State.updHearth_cores (f : Hearth → Hearth) : (s.updHearth f).cores = s.cores := rfl
@[simp] theorem State.updHearth_kiln (f : Hearth → Hearth) : (s.updHearth f).kiln = s.kiln := rfl
@[simp] theorem State.updHearth_queues (f : Hearth → Hearth) : (s.updHearth f).queues = s.queues := rfl
@[simp] theorem State.updHearth_rings (f : Hearth → Hearth) : (s.updHearth f).rings = s.rings := rfl
@[simp] theorem State.updHearth_launches (f : Hearth → Hearth) : (s.updHearth f).launches = s.launches := rfl
@[simp] theorem State.updHearth_turn (f : Hearth → Hearth) : (s.updHearth f).turn = s.turn := rfl
@[simp] theorem State.updHearth_xlfsr (f : Hearth → Hearth) : (s.updHearth f).xlfsr = s.xlfsr := rfl
@[simp] theorem State.updHearth_pubs (f : Hearth → Hearth) : (s.updHearth f).pubs = s.pubs := rfl
@[simp] theorem State.updHearth_swath (f : Hearth → Hearth) : (s.updHearth f).swath = s.swath := rfl
@[simp] theorem State.updHearth_sieveRes (f : Hearth → Hearth) : (s.updHearth f).sieveRes = s.sieveRes := rfl
@[simp] theorem State.updHearth_hearth (f : Hearth → Hearth) : (s.updHearth f).hearth = f s.hearth := rfl
@[simp] theorem State.updHearth_cones (f : Hearth → Hearth) : (s.updHearth f).cones = s.cones := rfl
@[simp] theorem State.updHearth_upkeep (f : Hearth → Hearth) : (s.updHearth f).upkeep = s.upkeep := rfl
@[simp] theorem State.updHearth_ras (f : Hearth → Hearth) : (s.updHearth f).ras = s.ras := rfl
@[simp] theorem State.updHearth_sec (f : Hearth → Hearth) : (s.updHearth f).sec = s.sec := rfl
@[simp] theorem State.updHearth_mgt (f : Hearth → Hearth) : (s.updHearth f).mgt = s.mgt := rfl
@[simp] theorem State.updHearth_resets (f : Hearth → Hearth) : (s.updHearth f).resets = s.resets := rfl
@[simp] theorem State.updHearth_reqs (f : Hearth → Hearth) : (s.updHearth f).reqs = s.reqs := rfl
@[simp] theorem State.updHearth_resps (f : Hearth → Hearth) : (s.updHearth f).resps = s.resps := rfl
@[simp] theorem State.updHearth_acks (f : Hearth → Hearth) : (s.updHearth f).acks = s.acks := rfl
@[simp] theorem State.updHearth_msgs (f : Hearth → Hearth) : (s.updHearth f).msgs = s.msgs := rfl
@[simp] theorem State.updHearth_mcs (f : Hearth → Hearth) : (s.updHearth f).mcs = s.mcs := rfl
@[simp] theorem State.updHearth_combs (f : Hearth → Hearth) : (s.updHearth f).combs = s.combs := rfl
@[simp] theorem State.updHearth_rounds (f : Hearth → Hearth) : (s.updHearth f).rounds = s.rounds := rfl
@[simp] theorem State.updHearth_combEntries (f : Hearth → Hearth) : (s.updHearth f).combEntries = s.combEntries := rfl
@[simp] theorem State.updHearth_waiters (f : Hearth → Hearth) : (s.updHearth f).waiters = s.waiters := rfl
@[simp] theorem State.updHearth_sweep (f : Hearth → Hearth) : (s.updHearth f).sweep = s.sweep := rfl
@[simp] theorem State.updHearth_syncOps (f : Hearth → Hearth) : (s.updHearth f).syncOps = s.syncOps := rfl
@[simp] theorem State.updHearth_syncAns (f : Hearth → Hearth) : (s.updHearth f).syncAns = s.syncAns := rfl
@[simp] theorem State.updHearth_mrds (f : Hearth → Hearth) : (s.updHearth f).mrds = s.mrds := rfl
@[simp] theorem State.updHearth_mrdWaits (f : Hearth → Hearth) : (s.updHearth f).mrdWaits = s.mrdWaits := rfl
@[simp] theorem State.updHearth_mirror (f : Hearth → Hearth) : (s.updHearth f).mirror = s.mirror := rfl
@[simp] theorem State.updHearth_recs (f : Hearth → Hearth) : (s.updHearth f).recs = s.recs := rfl
@[simp] theorem State.updHearth_bundles (f : Hearth → Hearth) : (s.updHearth f).bundles = s.bundles := rfl

/-! ## updCones -/

@[simp] theorem State.updCones_pending (f : Cones → Cones) : (s.updCones f).pending = s.pending := rfl
@[simp] theorem State.updCones_freeCount (f : Cones → Cones) : (s.updCones f).freeCount = s.freeCount := rfl
@[simp] theorem State.updCones_clk (f : Cones → Cones) : (s.updCones f).clk = s.clk := rfl
@[simp] theorem State.updCones_pins (f : Cones → Cones) : (s.updCones f).pins = s.pins := rfl
@[simp] theorem State.updCones_regs (f : Cones → Cones) : (s.updCones f).regs = s.regs := rfl
@[simp] theorem State.updCones_clash (f : Cones → Cones) : (s.updCones f).clash = s.clash := rfl
@[simp] theorem State.updCones_mem (f : Cones → Cones) : (s.updCones f).mem = s.mem := rfl
@[simp] theorem State.updCones_bad (f : Cones → Cones) : (s.updCones f).bad = s.bad := rfl
@[simp] theorem State.updCones_undef (f : Cones → Cones) : (s.updCones f).undef = s.undef := rfl
@[simp] theorem State.updCones_zeroed (f : Cones → Cones) : (s.updCones f).zeroed = s.zeroed := rfl
@[simp] theorem State.updCones_cores (f : Cones → Cones) : (s.updCones f).cores = s.cores := rfl
@[simp] theorem State.updCones_kiln (f : Cones → Cones) : (s.updCones f).kiln = s.kiln := rfl
@[simp] theorem State.updCones_queues (f : Cones → Cones) : (s.updCones f).queues = s.queues := rfl
@[simp] theorem State.updCones_rings (f : Cones → Cones) : (s.updCones f).rings = s.rings := rfl
@[simp] theorem State.updCones_launches (f : Cones → Cones) : (s.updCones f).launches = s.launches := rfl
@[simp] theorem State.updCones_turn (f : Cones → Cones) : (s.updCones f).turn = s.turn := rfl
@[simp] theorem State.updCones_xlfsr (f : Cones → Cones) : (s.updCones f).xlfsr = s.xlfsr := rfl
@[simp] theorem State.updCones_pubs (f : Cones → Cones) : (s.updCones f).pubs = s.pubs := rfl
@[simp] theorem State.updCones_swath (f : Cones → Cones) : (s.updCones f).swath = s.swath := rfl
@[simp] theorem State.updCones_sieveRes (f : Cones → Cones) : (s.updCones f).sieveRes = s.sieveRes := rfl
@[simp] theorem State.updCones_hearth (f : Cones → Cones) : (s.updCones f).hearth = s.hearth := rfl
@[simp] theorem State.updCones_cones (f : Cones → Cones) : (s.updCones f).cones = f s.cones := rfl
@[simp] theorem State.updCones_upkeep (f : Cones → Cones) : (s.updCones f).upkeep = s.upkeep := rfl
@[simp] theorem State.updCones_ras (f : Cones → Cones) : (s.updCones f).ras = s.ras := rfl
@[simp] theorem State.updCones_sec (f : Cones → Cones) : (s.updCones f).sec = s.sec := rfl
@[simp] theorem State.updCones_mgt (f : Cones → Cones) : (s.updCones f).mgt = s.mgt := rfl
@[simp] theorem State.updCones_resets (f : Cones → Cones) : (s.updCones f).resets = s.resets := rfl
@[simp] theorem State.updCones_reqs (f : Cones → Cones) : (s.updCones f).reqs = s.reqs := rfl
@[simp] theorem State.updCones_resps (f : Cones → Cones) : (s.updCones f).resps = s.resps := rfl
@[simp] theorem State.updCones_acks (f : Cones → Cones) : (s.updCones f).acks = s.acks := rfl
@[simp] theorem State.updCones_msgs (f : Cones → Cones) : (s.updCones f).msgs = s.msgs := rfl
@[simp] theorem State.updCones_mcs (f : Cones → Cones) : (s.updCones f).mcs = s.mcs := rfl
@[simp] theorem State.updCones_combs (f : Cones → Cones) : (s.updCones f).combs = s.combs := rfl
@[simp] theorem State.updCones_rounds (f : Cones → Cones) : (s.updCones f).rounds = s.rounds := rfl
@[simp] theorem State.updCones_combEntries (f : Cones → Cones) : (s.updCones f).combEntries = s.combEntries := rfl
@[simp] theorem State.updCones_waiters (f : Cones → Cones) : (s.updCones f).waiters = s.waiters := rfl
@[simp] theorem State.updCones_sweep (f : Cones → Cones) : (s.updCones f).sweep = s.sweep := rfl
@[simp] theorem State.updCones_syncOps (f : Cones → Cones) : (s.updCones f).syncOps = s.syncOps := rfl
@[simp] theorem State.updCones_syncAns (f : Cones → Cones) : (s.updCones f).syncAns = s.syncAns := rfl
@[simp] theorem State.updCones_mrds (f : Cones → Cones) : (s.updCones f).mrds = s.mrds := rfl
@[simp] theorem State.updCones_mrdWaits (f : Cones → Cones) : (s.updCones f).mrdWaits = s.mrdWaits := rfl
@[simp] theorem State.updCones_mirror (f : Cones → Cones) : (s.updCones f).mirror = s.mirror := rfl
@[simp] theorem State.updCones_recs (f : Cones → Cones) : (s.updCones f).recs = s.recs := rfl
@[simp] theorem State.updCones_bundles (f : Cones → Cones) : (s.updCones f).bundles = s.bundles := rfl

/-! ## updUpkeep -/

@[simp] theorem State.updUpkeep_pending (f : Upkeep → Upkeep) : (s.updUpkeep f).pending = s.pending := rfl
@[simp] theorem State.updUpkeep_freeCount (f : Upkeep → Upkeep) : (s.updUpkeep f).freeCount = s.freeCount := rfl
@[simp] theorem State.updUpkeep_clk (f : Upkeep → Upkeep) : (s.updUpkeep f).clk = s.clk := rfl
@[simp] theorem State.updUpkeep_pins (f : Upkeep → Upkeep) : (s.updUpkeep f).pins = s.pins := rfl
@[simp] theorem State.updUpkeep_regs (f : Upkeep → Upkeep) : (s.updUpkeep f).regs = s.regs := rfl
@[simp] theorem State.updUpkeep_clash (f : Upkeep → Upkeep) : (s.updUpkeep f).clash = s.clash := rfl
@[simp] theorem State.updUpkeep_mem (f : Upkeep → Upkeep) : (s.updUpkeep f).mem = s.mem := rfl
@[simp] theorem State.updUpkeep_bad (f : Upkeep → Upkeep) : (s.updUpkeep f).bad = s.bad := rfl
@[simp] theorem State.updUpkeep_undef (f : Upkeep → Upkeep) : (s.updUpkeep f).undef = s.undef := rfl
@[simp] theorem State.updUpkeep_zeroed (f : Upkeep → Upkeep) : (s.updUpkeep f).zeroed = s.zeroed := rfl
@[simp] theorem State.updUpkeep_cores (f : Upkeep → Upkeep) : (s.updUpkeep f).cores = s.cores := rfl
@[simp] theorem State.updUpkeep_kiln (f : Upkeep → Upkeep) : (s.updUpkeep f).kiln = s.kiln := rfl
@[simp] theorem State.updUpkeep_queues (f : Upkeep → Upkeep) : (s.updUpkeep f).queues = s.queues := rfl
@[simp] theorem State.updUpkeep_rings (f : Upkeep → Upkeep) : (s.updUpkeep f).rings = s.rings := rfl
@[simp] theorem State.updUpkeep_launches (f : Upkeep → Upkeep) : (s.updUpkeep f).launches = s.launches := rfl
@[simp] theorem State.updUpkeep_turn (f : Upkeep → Upkeep) : (s.updUpkeep f).turn = s.turn := rfl
@[simp] theorem State.updUpkeep_xlfsr (f : Upkeep → Upkeep) : (s.updUpkeep f).xlfsr = s.xlfsr := rfl
@[simp] theorem State.updUpkeep_pubs (f : Upkeep → Upkeep) : (s.updUpkeep f).pubs = s.pubs := rfl
@[simp] theorem State.updUpkeep_swath (f : Upkeep → Upkeep) : (s.updUpkeep f).swath = s.swath := rfl
@[simp] theorem State.updUpkeep_sieveRes (f : Upkeep → Upkeep) : (s.updUpkeep f).sieveRes = s.sieveRes := rfl
@[simp] theorem State.updUpkeep_hearth (f : Upkeep → Upkeep) : (s.updUpkeep f).hearth = s.hearth := rfl
@[simp] theorem State.updUpkeep_cones (f : Upkeep → Upkeep) : (s.updUpkeep f).cones = s.cones := rfl
@[simp] theorem State.updUpkeep_upkeep (f : Upkeep → Upkeep) : (s.updUpkeep f).upkeep = f s.upkeep := rfl
@[simp] theorem State.updUpkeep_ras (f : Upkeep → Upkeep) : (s.updUpkeep f).ras = s.ras := rfl
@[simp] theorem State.updUpkeep_sec (f : Upkeep → Upkeep) : (s.updUpkeep f).sec = s.sec := rfl
@[simp] theorem State.updUpkeep_mgt (f : Upkeep → Upkeep) : (s.updUpkeep f).mgt = s.mgt := rfl
@[simp] theorem State.updUpkeep_resets (f : Upkeep → Upkeep) : (s.updUpkeep f).resets = s.resets := rfl
@[simp] theorem State.updUpkeep_reqs (f : Upkeep → Upkeep) : (s.updUpkeep f).reqs = s.reqs := rfl
@[simp] theorem State.updUpkeep_resps (f : Upkeep → Upkeep) : (s.updUpkeep f).resps = s.resps := rfl
@[simp] theorem State.updUpkeep_acks (f : Upkeep → Upkeep) : (s.updUpkeep f).acks = s.acks := rfl
@[simp] theorem State.updUpkeep_msgs (f : Upkeep → Upkeep) : (s.updUpkeep f).msgs = s.msgs := rfl
@[simp] theorem State.updUpkeep_mcs (f : Upkeep → Upkeep) : (s.updUpkeep f).mcs = s.mcs := rfl
@[simp] theorem State.updUpkeep_combs (f : Upkeep → Upkeep) : (s.updUpkeep f).combs = s.combs := rfl
@[simp] theorem State.updUpkeep_rounds (f : Upkeep → Upkeep) : (s.updUpkeep f).rounds = s.rounds := rfl
@[simp] theorem State.updUpkeep_combEntries (f : Upkeep → Upkeep) : (s.updUpkeep f).combEntries = s.combEntries := rfl
@[simp] theorem State.updUpkeep_waiters (f : Upkeep → Upkeep) : (s.updUpkeep f).waiters = s.waiters := rfl
@[simp] theorem State.updUpkeep_sweep (f : Upkeep → Upkeep) : (s.updUpkeep f).sweep = s.sweep := rfl
@[simp] theorem State.updUpkeep_syncOps (f : Upkeep → Upkeep) : (s.updUpkeep f).syncOps = s.syncOps := rfl
@[simp] theorem State.updUpkeep_syncAns (f : Upkeep → Upkeep) : (s.updUpkeep f).syncAns = s.syncAns := rfl
@[simp] theorem State.updUpkeep_mrds (f : Upkeep → Upkeep) : (s.updUpkeep f).mrds = s.mrds := rfl
@[simp] theorem State.updUpkeep_mrdWaits (f : Upkeep → Upkeep) : (s.updUpkeep f).mrdWaits = s.mrdWaits := rfl
@[simp] theorem State.updUpkeep_mirror (f : Upkeep → Upkeep) : (s.updUpkeep f).mirror = s.mirror := rfl
@[simp] theorem State.updUpkeep_recs (f : Upkeep → Upkeep) : (s.updUpkeep f).recs = s.recs := rfl
@[simp] theorem State.updUpkeep_bundles (f : Upkeep → Upkeep) : (s.updUpkeep f).bundles = s.bundles := rfl

/-! ## updMir -/

@[simp] theorem State.updMir_pending (f : Mirror → Mirror) : (s.updMir f).pending = s.pending := rfl
@[simp] theorem State.updMir_freeCount (f : Mirror → Mirror) : (s.updMir f).freeCount = s.freeCount := rfl
@[simp] theorem State.updMir_clk (f : Mirror → Mirror) : (s.updMir f).clk = s.clk := rfl
@[simp] theorem State.updMir_pins (f : Mirror → Mirror) : (s.updMir f).pins = s.pins := rfl
@[simp] theorem State.updMir_regs (f : Mirror → Mirror) : (s.updMir f).regs = s.regs := rfl
@[simp] theorem State.updMir_clash (f : Mirror → Mirror) : (s.updMir f).clash = s.clash := rfl
@[simp] theorem State.updMir_mem (f : Mirror → Mirror) : (s.updMir f).mem = s.mem := rfl
@[simp] theorem State.updMir_bad (f : Mirror → Mirror) : (s.updMir f).bad = s.bad := rfl
@[simp] theorem State.updMir_undef (f : Mirror → Mirror) : (s.updMir f).undef = s.undef := rfl
@[simp] theorem State.updMir_zeroed (f : Mirror → Mirror) : (s.updMir f).zeroed = s.zeroed := rfl
@[simp] theorem State.updMir_cores (f : Mirror → Mirror) : (s.updMir f).cores = s.cores := rfl
@[simp] theorem State.updMir_kiln (f : Mirror → Mirror) : (s.updMir f).kiln = s.kiln := rfl
@[simp] theorem State.updMir_queues (f : Mirror → Mirror) : (s.updMir f).queues = s.queues := rfl
@[simp] theorem State.updMir_rings (f : Mirror → Mirror) : (s.updMir f).rings = s.rings := rfl
@[simp] theorem State.updMir_launches (f : Mirror → Mirror) : (s.updMir f).launches = s.launches := rfl
@[simp] theorem State.updMir_turn (f : Mirror → Mirror) : (s.updMir f).turn = s.turn := rfl
@[simp] theorem State.updMir_xlfsr (f : Mirror → Mirror) : (s.updMir f).xlfsr = s.xlfsr := rfl
@[simp] theorem State.updMir_pubs (f : Mirror → Mirror) : (s.updMir f).pubs = s.pubs := rfl
@[simp] theorem State.updMir_swath (f : Mirror → Mirror) : (s.updMir f).swath = s.swath := rfl
@[simp] theorem State.updMir_sieveRes (f : Mirror → Mirror) : (s.updMir f).sieveRes = s.sieveRes := rfl
@[simp] theorem State.updMir_hearth (f : Mirror → Mirror) : (s.updMir f).hearth = s.hearth := rfl
@[simp] theorem State.updMir_cones (f : Mirror → Mirror) : (s.updMir f).cones = s.cones := rfl
@[simp] theorem State.updMir_upkeep (f : Mirror → Mirror) : (s.updMir f).upkeep = s.upkeep := rfl
@[simp] theorem State.updMir_ras (f : Mirror → Mirror) : (s.updMir f).ras = s.ras := rfl
@[simp] theorem State.updMir_sec (f : Mirror → Mirror) : (s.updMir f).sec = s.sec := rfl
@[simp] theorem State.updMir_mgt (f : Mirror → Mirror) : (s.updMir f).mgt = s.mgt := rfl
@[simp] theorem State.updMir_resets (f : Mirror → Mirror) : (s.updMir f).resets = s.resets := rfl
@[simp] theorem State.updMir_reqs (f : Mirror → Mirror) : (s.updMir f).reqs = s.reqs := rfl
@[simp] theorem State.updMir_resps (f : Mirror → Mirror) : (s.updMir f).resps = s.resps := rfl
@[simp] theorem State.updMir_acks (f : Mirror → Mirror) : (s.updMir f).acks = s.acks := rfl
@[simp] theorem State.updMir_msgs (f : Mirror → Mirror) : (s.updMir f).msgs = s.msgs := rfl
@[simp] theorem State.updMir_mcs (f : Mirror → Mirror) : (s.updMir f).mcs = s.mcs := rfl
@[simp] theorem State.updMir_combs (f : Mirror → Mirror) : (s.updMir f).combs = s.combs := rfl
@[simp] theorem State.updMir_rounds (f : Mirror → Mirror) : (s.updMir f).rounds = s.rounds := rfl
@[simp] theorem State.updMir_combEntries (f : Mirror → Mirror) : (s.updMir f).combEntries = s.combEntries := rfl
@[simp] theorem State.updMir_waiters (f : Mirror → Mirror) : (s.updMir f).waiters = s.waiters := rfl
@[simp] theorem State.updMir_sweep (f : Mirror → Mirror) : (s.updMir f).sweep = s.sweep := rfl
@[simp] theorem State.updMir_syncOps (f : Mirror → Mirror) : (s.updMir f).syncOps = s.syncOps := rfl
@[simp] theorem State.updMir_syncAns (f : Mirror → Mirror) : (s.updMir f).syncAns = s.syncAns := rfl
@[simp] theorem State.updMir_mrds (f : Mirror → Mirror) : (s.updMir f).mrds = s.mrds := rfl
@[simp] theorem State.updMir_mrdWaits (f : Mirror → Mirror) : (s.updMir f).mrdWaits = s.mrdWaits := rfl
@[simp] theorem State.updMir_mirror (f : Mirror → Mirror) : (s.updMir f).mirror = f s.mirror := rfl
@[simp] theorem State.updMir_recs (f : Mirror → Mirror) : (s.updMir f).recs = s.recs := rfl
@[simp] theorem State.updMir_bundles (f : Mirror → Mirror) : (s.updMir f).bundles = s.bundles := rfl

/-! ## updMgt -/

@[simp] theorem State.updMgt_pending (f : Mgt → Mgt) : (s.updMgt f).pending = s.pending := rfl
@[simp] theorem State.updMgt_freeCount (f : Mgt → Mgt) : (s.updMgt f).freeCount = s.freeCount := rfl
@[simp] theorem State.updMgt_clk (f : Mgt → Mgt) : (s.updMgt f).clk = s.clk := rfl
@[simp] theorem State.updMgt_pins (f : Mgt → Mgt) : (s.updMgt f).pins = s.pins := rfl
@[simp] theorem State.updMgt_regs (f : Mgt → Mgt) : (s.updMgt f).regs = s.regs := rfl
@[simp] theorem State.updMgt_clash (f : Mgt → Mgt) : (s.updMgt f).clash = s.clash := rfl
@[simp] theorem State.updMgt_mem (f : Mgt → Mgt) : (s.updMgt f).mem = s.mem := rfl
@[simp] theorem State.updMgt_bad (f : Mgt → Mgt) : (s.updMgt f).bad = s.bad := rfl
@[simp] theorem State.updMgt_undef (f : Mgt → Mgt) : (s.updMgt f).undef = s.undef := rfl
@[simp] theorem State.updMgt_zeroed (f : Mgt → Mgt) : (s.updMgt f).zeroed = s.zeroed := rfl
@[simp] theorem State.updMgt_cores (f : Mgt → Mgt) : (s.updMgt f).cores = s.cores := rfl
@[simp] theorem State.updMgt_kiln (f : Mgt → Mgt) : (s.updMgt f).kiln = s.kiln := rfl
@[simp] theorem State.updMgt_queues (f : Mgt → Mgt) : (s.updMgt f).queues = s.queues := rfl
@[simp] theorem State.updMgt_rings (f : Mgt → Mgt) : (s.updMgt f).rings = s.rings := rfl
@[simp] theorem State.updMgt_launches (f : Mgt → Mgt) : (s.updMgt f).launches = s.launches := rfl
@[simp] theorem State.updMgt_turn (f : Mgt → Mgt) : (s.updMgt f).turn = s.turn := rfl
@[simp] theorem State.updMgt_xlfsr (f : Mgt → Mgt) : (s.updMgt f).xlfsr = s.xlfsr := rfl
@[simp] theorem State.updMgt_pubs (f : Mgt → Mgt) : (s.updMgt f).pubs = s.pubs := rfl
@[simp] theorem State.updMgt_swath (f : Mgt → Mgt) : (s.updMgt f).swath = s.swath := rfl
@[simp] theorem State.updMgt_sieveRes (f : Mgt → Mgt) : (s.updMgt f).sieveRes = s.sieveRes := rfl
@[simp] theorem State.updMgt_hearth (f : Mgt → Mgt) : (s.updMgt f).hearth = s.hearth := rfl
@[simp] theorem State.updMgt_cones (f : Mgt → Mgt) : (s.updMgt f).cones = s.cones := rfl
@[simp] theorem State.updMgt_upkeep (f : Mgt → Mgt) : (s.updMgt f).upkeep = s.upkeep := rfl
@[simp] theorem State.updMgt_ras (f : Mgt → Mgt) : (s.updMgt f).ras = s.ras := rfl
@[simp] theorem State.updMgt_sec (f : Mgt → Mgt) : (s.updMgt f).sec = s.sec := rfl
@[simp] theorem State.updMgt_mgt (f : Mgt → Mgt) : (s.updMgt f).mgt = f s.mgt := rfl
@[simp] theorem State.updMgt_resets (f : Mgt → Mgt) : (s.updMgt f).resets = s.resets := rfl
@[simp] theorem State.updMgt_reqs (f : Mgt → Mgt) : (s.updMgt f).reqs = s.reqs := rfl
@[simp] theorem State.updMgt_resps (f : Mgt → Mgt) : (s.updMgt f).resps = s.resps := rfl
@[simp] theorem State.updMgt_acks (f : Mgt → Mgt) : (s.updMgt f).acks = s.acks := rfl
@[simp] theorem State.updMgt_msgs (f : Mgt → Mgt) : (s.updMgt f).msgs = s.msgs := rfl
@[simp] theorem State.updMgt_mcs (f : Mgt → Mgt) : (s.updMgt f).mcs = s.mcs := rfl
@[simp] theorem State.updMgt_combs (f : Mgt → Mgt) : (s.updMgt f).combs = s.combs := rfl
@[simp] theorem State.updMgt_rounds (f : Mgt → Mgt) : (s.updMgt f).rounds = s.rounds := rfl
@[simp] theorem State.updMgt_combEntries (f : Mgt → Mgt) : (s.updMgt f).combEntries = s.combEntries := rfl
@[simp] theorem State.updMgt_waiters (f : Mgt → Mgt) : (s.updMgt f).waiters = s.waiters := rfl
@[simp] theorem State.updMgt_sweep (f : Mgt → Mgt) : (s.updMgt f).sweep = s.sweep := rfl
@[simp] theorem State.updMgt_syncOps (f : Mgt → Mgt) : (s.updMgt f).syncOps = s.syncOps := rfl
@[simp] theorem State.updMgt_syncAns (f : Mgt → Mgt) : (s.updMgt f).syncAns = s.syncAns := rfl
@[simp] theorem State.updMgt_mrds (f : Mgt → Mgt) : (s.updMgt f).mrds = s.mrds := rfl
@[simp] theorem State.updMgt_mrdWaits (f : Mgt → Mgt) : (s.updMgt f).mrdWaits = s.mrdWaits := rfl
@[simp] theorem State.updMgt_mirror (f : Mgt → Mgt) : (s.updMgt f).mirror = s.mirror := rfl
@[simp] theorem State.updMgt_recs (f : Mgt → Mgt) : (s.updMgt f).recs = s.recs := rfl
@[simp] theorem State.updMgt_bundles (f : Mgt → Mgt) : (s.updMgt f).bundles = s.bundles := rfl

/-! ## updSec -/

@[simp] theorem State.updSec_pending (f : Sec → Sec) : (s.updSec f).pending = s.pending := rfl
@[simp] theorem State.updSec_freeCount (f : Sec → Sec) : (s.updSec f).freeCount = s.freeCount := rfl
@[simp] theorem State.updSec_clk (f : Sec → Sec) : (s.updSec f).clk = s.clk := rfl
@[simp] theorem State.updSec_pins (f : Sec → Sec) : (s.updSec f).pins = s.pins := rfl
@[simp] theorem State.updSec_regs (f : Sec → Sec) : (s.updSec f).regs = s.regs := rfl
@[simp] theorem State.updSec_clash (f : Sec → Sec) : (s.updSec f).clash = s.clash := rfl
@[simp] theorem State.updSec_mem (f : Sec → Sec) : (s.updSec f).mem = s.mem := rfl
@[simp] theorem State.updSec_bad (f : Sec → Sec) : (s.updSec f).bad = s.bad := rfl
@[simp] theorem State.updSec_undef (f : Sec → Sec) : (s.updSec f).undef = s.undef := rfl
@[simp] theorem State.updSec_zeroed (f : Sec → Sec) : (s.updSec f).zeroed = s.zeroed := rfl
@[simp] theorem State.updSec_cores (f : Sec → Sec) : (s.updSec f).cores = s.cores := rfl
@[simp] theorem State.updSec_kiln (f : Sec → Sec) : (s.updSec f).kiln = s.kiln := rfl
@[simp] theorem State.updSec_queues (f : Sec → Sec) : (s.updSec f).queues = s.queues := rfl
@[simp] theorem State.updSec_rings (f : Sec → Sec) : (s.updSec f).rings = s.rings := rfl
@[simp] theorem State.updSec_launches (f : Sec → Sec) : (s.updSec f).launches = s.launches := rfl
@[simp] theorem State.updSec_turn (f : Sec → Sec) : (s.updSec f).turn = s.turn := rfl
@[simp] theorem State.updSec_xlfsr (f : Sec → Sec) : (s.updSec f).xlfsr = s.xlfsr := rfl
@[simp] theorem State.updSec_pubs (f : Sec → Sec) : (s.updSec f).pubs = s.pubs := rfl
@[simp] theorem State.updSec_swath (f : Sec → Sec) : (s.updSec f).swath = s.swath := rfl
@[simp] theorem State.updSec_sieveRes (f : Sec → Sec) : (s.updSec f).sieveRes = s.sieveRes := rfl
@[simp] theorem State.updSec_hearth (f : Sec → Sec) : (s.updSec f).hearth = s.hearth := rfl
@[simp] theorem State.updSec_cones (f : Sec → Sec) : (s.updSec f).cones = s.cones := rfl
@[simp] theorem State.updSec_upkeep (f : Sec → Sec) : (s.updSec f).upkeep = s.upkeep := rfl
@[simp] theorem State.updSec_ras (f : Sec → Sec) : (s.updSec f).ras = s.ras := rfl
@[simp] theorem State.updSec_sec (f : Sec → Sec) : (s.updSec f).sec = f s.sec := rfl
@[simp] theorem State.updSec_mgt (f : Sec → Sec) : (s.updSec f).mgt = s.mgt := rfl
@[simp] theorem State.updSec_resets (f : Sec → Sec) : (s.updSec f).resets = s.resets := rfl
@[simp] theorem State.updSec_reqs (f : Sec → Sec) : (s.updSec f).reqs = s.reqs := rfl
@[simp] theorem State.updSec_resps (f : Sec → Sec) : (s.updSec f).resps = s.resps := rfl
@[simp] theorem State.updSec_acks (f : Sec → Sec) : (s.updSec f).acks = s.acks := rfl
@[simp] theorem State.updSec_msgs (f : Sec → Sec) : (s.updSec f).msgs = s.msgs := rfl
@[simp] theorem State.updSec_mcs (f : Sec → Sec) : (s.updSec f).mcs = s.mcs := rfl
@[simp] theorem State.updSec_combs (f : Sec → Sec) : (s.updSec f).combs = s.combs := rfl
@[simp] theorem State.updSec_rounds (f : Sec → Sec) : (s.updSec f).rounds = s.rounds := rfl
@[simp] theorem State.updSec_combEntries (f : Sec → Sec) : (s.updSec f).combEntries = s.combEntries := rfl
@[simp] theorem State.updSec_waiters (f : Sec → Sec) : (s.updSec f).waiters = s.waiters := rfl
@[simp] theorem State.updSec_sweep (f : Sec → Sec) : (s.updSec f).sweep = s.sweep := rfl
@[simp] theorem State.updSec_syncOps (f : Sec → Sec) : (s.updSec f).syncOps = s.syncOps := rfl
@[simp] theorem State.updSec_syncAns (f : Sec → Sec) : (s.updSec f).syncAns = s.syncAns := rfl
@[simp] theorem State.updSec_mrds (f : Sec → Sec) : (s.updSec f).mrds = s.mrds := rfl
@[simp] theorem State.updSec_mrdWaits (f : Sec → Sec) : (s.updSec f).mrdWaits = s.mrdWaits := rfl
@[simp] theorem State.updSec_mirror (f : Sec → Sec) : (s.updSec f).mirror = s.mirror := rfl
@[simp] theorem State.updSec_recs (f : Sec → Sec) : (s.updSec f).recs = s.recs := rfl
@[simp] theorem State.updSec_bundles (f : Sec → Sec) : (s.updSec f).bundles = s.bundles := rfl

/-! ## What reads after a write -/

@[simp] theorem State.reg_setReg_self (r : Reg) (i : Nat) (v : Word64) : (s.setReg r i v).reg r i = v := mget_mput_self ..

theorem State.reg_setReg (r q : Reg) (i j : Nat) (v : Word64) :
    (s.setReg r i v).reg q j = if q = r ∧ j = i then v else s.reg q j := by
  by_cases h : q = r ∧ j = i
  · obtain ⟨rfl, rfl⟩ := h; simp
  · rw [if_neg h]; exact mget_mput_of_ne _ _ _ (by simpa using h)

theorem State.reg_set_of_ne (f : Fld) (v i : Nat) (r : Reg) (j : Nat) (h : r ≠ f.reg ∨ j ≠ i) :
    (s.set f v i).reg r j = s.reg r j := by
  rw [State.set, State.reg_setReg, if_neg (by tauto)]

/-- A field written reads as the value's low bits. -/
theorem State.get_set_self (f : Fld) (v i : Nat) (h : f.lo ≤ f.hi) (w : f.hi < 64) :
    (s.set f v i).get f i = v % 2 ^ (f.hi + 1 - f.lo) := by
  unfold State.get State.set
  rw [State.reg_setReg_self, BitVec.toNat_ofNat]
  have hx := (s.reg f.reg i).isLt
  have e : natSetBits (s.reg f.reg i).toNat f.hi f.lo v < 2 ^ 64 := by
    generalize (s.reg f.reg i).toNat = x at hx
    have h1 : x / 2 ^ (f.hi + 1) < 2 ^ (64 - (f.hi + 1)) := by
      apply Nat.div_lt_of_lt_mul
      rw [← Nat.pow_add]; exact lt_of_lt_of_le hx (Nat.pow_le_pow_right (by norm_num) (by omega))
    have h2 : v % 2 ^ (f.hi + 1 - f.lo) < 2 ^ (f.hi + 1 - f.lo) := Nat.mod_lt _ (Nat.two_pow_pos _)
    have h3 : x % 2 ^ f.lo < 2 ^ f.lo := Nat.mod_lt _ (Nat.two_pow_pos _)
    have p1 : (2 : Nat) ^ 64 = 2 ^ (64 - (f.hi + 1)) * 2 ^ (f.hi + 1) := by rw [← Nat.pow_add]; congr 1; omega
    have p2 : (2 : Nat) ^ (f.hi + 1) = 2 ^ (f.hi + 1 - f.lo) * 2 ^ f.lo := by rw [← Nat.pow_add]; congr 1; omega
    unfold natSetBits
    have a1 : (x / 2 ^ (f.hi + 1) + 1) * 2 ^ (f.hi + 1) ≤ 2 ^ (64 - (f.hi + 1)) * 2 ^ (f.hi + 1) := Nat.mul_le_mul_right _ h1
    have a2 : (v % 2 ^ (f.hi + 1 - f.lo) + 1) * 2 ^ f.lo ≤ 2 ^ (f.hi + 1 - f.lo) * 2 ^ f.lo := Nat.mul_le_mul_right _ h2
    rw [← p1] at a1; rw [← p2] at a2
    rw [Nat.add_mul, Nat.one_mul] at a1 a2
    omega
  rw [Nat.mod_eq_of_lt e, natBits_natSetBits _ _ _ _ h]

@[simp] theorem State.get_set_of_reg_ne (f g : Fld) (v i j : Nat) (h : g.reg ≠ f.reg) : (s.set f v i).get g j = s.get g j := by
  simp [State.get, State.reg_set_of_ne s f v i g.reg j (.inl h)]

@[simp] theorem State.core_setCore_self (c : Nat) (k : Core) : (s.setCore c k).core c = k := mget_mput_self ..

theorem State.core_setCore (c d : Nat) (k : Core) : (s.setCore c k).core d = if d = c then k else s.core d := mget_mput ..

@[simp] theorem State.core_updCore_self (c : Nat) (f : Core → Core) : (s.updCore c f).core c = f (s.core c) := mget_mput_self ..

theorem State.core_updCore (c d : Nat) (f : Core → Core) :
    (s.updCore c f).core d = if d = c then f (s.core c) else s.core d := mget_mput ..

@[simp] theorem State.core_updSc_self (c : Nat) (f : Scalar → Scalar) :
    (s.updSc c f).core c = { s.core c with sc := f (s.core c).sc } := mget_mput_self ..

theorem State.core_updSc (c d : Nat) (f : Scalar → Scalar) :
    (s.updSc c f).core d = if d = c then { s.core c with sc := f (s.core c).sc } else s.core d := mget_mput ..

@[simp] theorem State.core_setReg (r : Reg) (i : Nat) (v : Word64) (c : Nat) : (s.setReg r i v).core c = s.core c := rfl

@[simp] theorem State.core_set (f : Fld) (v i c : Nat) : (s.set f v i).core c = s.core c := rfl

@[simp] theorem State.reg_setCore (c : Nat) (k : Core) (r : Reg) (i : Nat) : (s.setCore c k).reg r i = s.reg r i := rfl

@[simp] theorem State.reg_updCore (c : Nat) (f : Core → Core) (r : Reg) (i : Nat) : (s.updCore c f).reg r i = s.reg r i := rfl

@[simp] theorem State.reg_updSc (c : Nat) (f : Scalar → Scalar) (r : Reg) (i : Nat) : (s.updSc c f).reg r i = s.reg r i := rfl

@[simp] theorem State.bundle_setBundle_self (l : LinkId) (b : Nat) (v : Bundle) : (s.setBundle l b v).bundle l b = v :=
  mget_mput_self ..

theorem State.bundle_setBundle (l m : LinkId) (b d : Nat) (v : Bundle) :
    (s.setBundle l b v).bundle m d = if m = l ∧ d = b then v else s.bundle m d := by
  by_cases h : m = l ∧ d = b
  · obtain ⟨rfl, rfl⟩ := h; simp
  · rw [if_neg h]; exact mget_mput_of_ne _ _ _ (by simpa using h)

@[simp] theorem State.queue_setQueue_self (q : Nat) (v : Queue) : (s.setQueue q v).queue q = v := mget_mput_self ..

theorem State.queue_setQueue (q k : Nat) (v : Queue) : (s.setQueue q v).queue k = if k = q then v else s.queue k := mget_mput ..

@[simp] theorem State.ring_setRing_self (m : Nat) (v : Ring) : (s.setRing m v).ring m = v := mget_mput_self ..

theorem State.ring_setRing (m k : Nat) (v : Ring) : (s.setRing m v).ring k = if k = m then v else s.ring k := mget_mput ..

/-! ## General registers of a core -/

@[simp] theorem Scalar.gr_zero (k : Scalar) : k.gr 0 = 0 := by simp [Scalar.gr]

theorem Scalar.setG_zero (k : Scalar) (v : Word64) : k.setG 0 v = k := by simp [Scalar.setG]

theorem Scalar.setG_g (k : Scalar) (r : Nat) (v : Word64) (h : r ≠ 0) (j : Nat) :
    mget (k.setG r v).g j 0 = if j = r then v else mget k.g j 0 := by
  simp [Scalar.setG, h, mget_mput]

/-- A write of a general register changes nothing else of the scalar part but the divide whose result it overtakes. -/
theorem Scalar.setG_frame (k : Scalar) (r : Nat) (v : Word64) :
    ∃ g d, k.setG r v = { k with g := g, divide := d } ∧ (k.divide = none → d = none) := by
  unfold Scalar.setG
  split
  · exact ⟨k.g, k.divide, rfl, id⟩
  · exact ⟨_, _, rfl, fun h => by simp [h]⟩

end Sys2Proof.Machine
end

