-- ==== Sys2Proof/Laws/Memory.lean ====
section
/-! SUPPORT. Memory keeps its canonical form under every operation; what reads after a store; and the helpers that leave
memory as it is. -/

namespace Sys2Proof.Machine

/-! ## The list -/

/-- The canonical form, as order and absence of default bytes. -/
theorem memWf_iff (m : List Host.Cell) :
    memWf m = true ↔ m.Pairwise (fun p q => p.1 < q.1) ∧ ∀ p ∈ m, p.2 ≠ memDefault := by
  induction m with
  | nil => simp [memWf]
  | cons p t ih =>
    cases t with
    | nil => simp [memWf]
    | cons q t =>
      simp only [memWf, Bool.and_eq_true, bne_iff_ne, decide_eq_true_eq, ih, List.pairwise_cons, List.mem_cons]
      constructor
      · rintro ⟨⟨hv, hlt⟩, ⟨hq, ht⟩, hd⟩
        refine ⟨⟨?_, hq, ht⟩, ?_⟩
        · rintro x (rfl | hx)
          · exact hlt
          · exact hlt.trans (hq x hx)
        · rintro x (rfl | hx)
          · exact hv
          · exact hd x hx
      · rintro ⟨⟨hp, hq, ht⟩, hd⟩
        exact ⟨⟨hd p (.inl rfl), hp q (.inl rfl)⟩, ⟨hq, ht⟩, fun x hx => hd x (.inr hx)⟩

/-- Dropping cells keeps the form. -/
theorem memWf_filter {m : List Host.Cell} (f : Host.Cell → Bool) (h : memWf m = true) : memWf (m.filter f) = true := by
  rw [memWf_iff] at h ⊢
  exact ⟨h.1.filter _, fun p hp => h.2 p (List.mem_of_mem_filter hp)⟩

theorem memClear_wf {m : List Host.Cell} (lo hi : Nat) (h : memWf m = true) : memWf (memClear m lo hi) = true :=
  memWf_filter _ h

/-- The cells after a byte is written: the new one, unless it is the default, and the others. -/
theorem mem_memPut {m : List Host.Cell} (hm : m.Pairwise (fun p q => p.1 < q.1)) (a : Nat) (v : Byte) (p : Host.Cell) :
    p ∈ memPut m a v ↔ (p = (a, v) ∧ v ≠ memDefault) ∨ (p ∈ m ∧ p.1 ≠ a) := by
  induction m with
  | nil =>
    unfold memPut
    split
    · rename_i h; simp [h]
    · rename_i h; simp [h]
  | cons q t ih =>
    obtain ⟨b, w⟩ := q
    rw [List.pairwise_cons] at hm
    have ht : ∀ x ∈ t, b < x.1 := hm.1
    unfold memPut
    split
    · rename_i hlt
      have hn : ∀ x ∈ (b, w) :: t, x.1 ≠ a := by
        intro x hx
        rcases List.mem_cons.mp hx with rfl | hx
        · exact (Nat.ne_of_lt hlt).symm
        · exact (Nat.ne_of_lt (hlt.trans (ht x hx))).symm
      split
      · rename_i h
        constructor
        · intro hp; exact .inr ⟨hp, hn p hp⟩
        · rintro (⟨_, h'⟩ | ⟨hp, _⟩)
          · exact absurd h h'
          · exact hp
      · rename_i h
        rw [List.mem_cons]
        constructor
        · rintro (rfl | hp)
          · exact .inl ⟨rfl, h⟩
          · exact .inr ⟨hp, hn p hp⟩
        · rintro (⟨rfl, _⟩ | ⟨hp, _⟩)
          · exact .inl rfl
          · exact .inr hp
    · split
      · rename_i _ he
        subst he
        have hn : ∀ x ∈ t, x.1 ≠ a := fun x hx => (Nat.ne_of_lt (ht x hx)).symm
        split
        · rename_i h
          constructor
          · intro hp; exact .inr ⟨List.mem_cons_of_mem _ hp, hn p hp⟩
          · rintro (⟨_, h'⟩ | ⟨hp, hne⟩)
            · exact absurd h h'
            · rcases List.mem_cons.mp hp with rfl | hp
              · exact absurd rfl hne
              · exact hp
        · rename_i h
          rw [List.mem_cons, List.mem_cons]
          constructor
          · rintro (rfl | hp)
            · exact .inl ⟨rfl, h⟩
            · exact .inr ⟨.inr hp, hn p hp⟩
          · rintro (⟨rfl, _⟩ | ⟨rfl | hp, hne⟩)
            · exact .inl rfl
            · exact absurd rfl hne
            · exact .inr hp
      · rename_i hlt hne
        rw [List.mem_cons, ih hm.2, List.mem_cons]
        constructor
        · rintro (rfl | h | ⟨hp, h⟩)
          · exact .inr ⟨.inl rfl, fun e => hne e.symm⟩
          · exact .inl h
          · exact .inr ⟨.inr hp, h⟩
        · rintro (h | ⟨rfl | hp, h⟩)
          · exact .inr (.inl h)
          · exact .inl rfl
          · exact .inr (.inr ⟨hp, h⟩)

/-- Writing a byte keeps the form. -/
theorem memPut_wf {m : List Host.Cell} (a : Nat) (v : Byte) (h : memWf m = true) : memWf (memPut m a v) = true := by
  rw [memWf_iff] at h ⊢
  obtain ⟨hp, hd⟩ := h
  refine ⟨?_, fun p hx => ?_⟩
  · clear hd
    induction m with
    | nil => unfold memPut; split <;> simp
    | cons q t ih =>
      obtain ⟨b, w⟩ := q
      have hs := List.pairwise_cons.mp hp
      unfold memPut
      split
      · rename_i hlt
        split
        · exact hp
        · refine List.pairwise_cons.mpr ⟨fun x hx => ?_, hp⟩
          rcases List.mem_cons.mp hx with rfl | hx
          · exact hlt
          · exact Nat.lt_trans hlt (hs.1 x hx)
      · split
        · rename_i _ he
          subst he
          split
          · exact hs.2
          · exact List.pairwise_cons.mpr ⟨hs.1, hs.2⟩
        · rename_i hlt hne
          refine List.pairwise_cons.mpr ⟨fun x hx => ?_, ih hs.2⟩
          rcases (mem_memPut hs.2 a v x).mp hx with ⟨rfl, _⟩ | ⟨hx, _⟩
          · show b < a
            omega
          · exact hs.1 x hx
  · rcases (mem_memPut hp a v p).mp hx with ⟨rfl, hv⟩ | ⟨hx, _⟩
    · exact hv
    · exact hd p hx

/-- What is found at an address after a byte is written there or elsewhere. -/
theorem find_memPut {m : List Host.Cell} (h : memWf m = true) (a b : Nat) (v : Byte) :
    (memPut m a v).find? (fun p => p.1 == b) =
      if b = a then (if v = memDefault then none else some (a, v)) else m.find? (fun p => p.1 == b) := by
  rw [memWf_iff] at h
  obtain ⟨hp, hd⟩ := h
  clear hd
  induction m with
  | nil =>
    unfold memPut
    by_cases hb : b = a
    · subst hb; by_cases hv : v = memDefault <;> simp [hv]
    · by_cases hv : v = memDefault <;> simp [hv, hb, Ne.symm hb]
  | cons q t ih =>
    obtain ⟨c, w⟩ := q
    have hs := List.pairwise_cons.mp hp
    unfold memPut
    split
    · rename_i hlt
      have hna : ((c, w) :: t).find? (fun p => p.1 == a) = none := by
        rw [List.find?_eq_none]
        intro x hx
        rcases List.mem_cons.mp hx with rfl | hx
        · simpa using (Nat.ne_of_lt hlt).symm
        · simpa using (Nat.ne_of_lt (hlt.trans (hs.1 x hx))).symm
      by_cases hb : b = a
      · subst hb; by_cases hv : v = memDefault
        · simpa [hv] using hna
        · simp [hv]
      · by_cases hv : v = memDefault <;> simp [hv, hb, Ne.symm hb, List.find?_cons]
    · split
      · rename_i _ he
        subst he
        have hna : t.find? (fun p => p.1 == a) = none := by
          rw [List.find?_eq_none]
          intro x hx
          simpa using (Nat.ne_of_lt (hs.1 x hx)).symm
        by_cases hb : b = a
        · subst hb; by_cases hv : v = memDefault
          · simpa [hv] using hna
          · simp [hv]
        · by_cases hv : v = memDefault <;> simp [hv, hb, Ne.symm hb]
      · rename_i hlt hne
        have hf := ih hs.2
        by_cases hc : c = b
        · subst hc
          have hca : c ≠ a := fun e => hne e.symm
          simp [hca]
        · have hcb : (c == b) = false := by simpa using hc
          simp only [List.find?_cons, hcb]
          exact hf

/-! ## Bytes of the state -/

/-- A byte stored, as one update of memory. -/
theorem State.putByte_eq (s : State) (a : Nat) (v : Byte) :
    s.putByte a v = { s with
      mem := memPut s.mem (sliced a) v
      zeroed := match regionOf (sliced a) with
        | .spad k => if s.undef.any (fun u => u.has k (sliced a % 0x20_0000)) ∧ v = 0 then sliced a :: s.zeroed else s.zeroed
        | _ => s.zeroed } := by
  unfold State.putByte
  dsimp only
  cases regionOf (sliced a) with
  | spad k => dsimp only; split <;> rfl
  | _ => rfl

@[simp] theorem State.putByte_mem (s : State) (a : Nat) (v : Byte) : (s.putByte a v).mem = memPut s.mem (sliced a) v := by
  rw [State.putByte_eq]

/-- A byte stored changes nothing but memory. -/
theorem State.putByte_frame (s : State) (a : Nat) (v : Byte) :
    ∃ z, s.putByte a v = { s with mem := memPut s.mem (sliced a) v, zeroed := z } := ⟨_, s.putByte_eq a v⟩

/-- Bytes stored change nothing but memory, and keep its form. -/
theorem State.putBytes_frame (s : State) (a : Nat) (bs : List Byte) :
    ∃ m z, s.putBytes a bs = { s with mem := m, zeroed := z } ∧ (memWf s.mem = true → memWf m = true) := by
  induction bs generalizing s a with
  | nil => exact ⟨s.mem, s.zeroed, rfl, id⟩
  | cons b t ih =>
    obtain ⟨z, hz⟩ := s.putByte_frame a b
    obtain ⟨m, z', h, hw⟩ := ih (s.putByte a b) (a + 1)
    refine ⟨m, z', ?_, fun hm => hw ?_⟩
    · rw [State.putBytes, h, hz]
    · rw [State.putByte_mem]; exact memPut_wf _ _ hm

theorem State.putBytes_wf (s : State) (a : Nat) (bs : List Byte) (h : memWf s.mem = true) :
    memWf (s.putBytes a bs).mem = true := by
  obtain ⟨m, z, e, hw⟩ := s.putBytes_frame a bs
  rw [e]; exact hw h

/-- A byte stored reads back, and every byte at another place reads as before. -/
theorem State.byte_putByte (s : State) (h : memWf s.mem = true) (a b : Nat) (v : Byte) :
    (s.putByte a v).byte b = if sliced b = sliced a then v else s.byte b := by
  rw [State.putByte_eq]
  unfold State.byte
  dsimp only
  rw [find_memPut h]
  by_cases hb : sliced b = sliced a
  · rw [if_pos hb, if_pos hb]
    by_cases hv : v = memDefault
    · rw [if_pos hv, hb]
      dsimp only
      cases regionOf (sliced a) with
      | spad k =>
        dsimp only
        cases hu : s.undef.find? (fun u => u.has k (sliced a % 0x20_0000)) with
        | none => exact hv.symm
        | some u =>
          have hany : s.undef.any (fun u => u.has k (sliced a % 0x20_0000)) = true := by
            rw [List.any_eq_true]; exact ⟨u, List.mem_of_find?_eq_some hu, by simpa using List.find?_some hu⟩
          have hz : v = 0 := hv
          simp [hany, hz]
      | _ => exact hv.symm
    · rw [if_neg hv]
  · rw [if_neg hb, if_neg hb]
    cases s.mem.find? (fun p => p.1 == sliced b) with
    | some p => rfl
    | none =>
      dsimp only
      cases regionOf (sliced b) with
      | spad k =>
        dsimp only
        cases s.undef.find? (fun u => u.has k (sliced b % 0x20_0000)) with
        | none => rfl
        | some u =>
          dsimp only
          have hz : ∀ z : List Nat, (z = s.zeroed ∨ z = sliced a :: s.zeroed) →
              (if sliced b ∈ z then (0 : Byte) else Config.undefByte u.n (sliced b % 0x20_0000)) =
                if sliced b ∈ s.zeroed then 0 else Config.undefByte u.n (sliced b % 0x20_0000) := by
            rintro z (rfl | rfl) <;> simp [hb]
          apply hz
          cases regionOf (sliced a) with
          | spad j => dsimp only; split <;> simp
          | _ => exact .inl rfl
      | _ => rfl

end Sys2Proof.Machine
end

