-- ==== Sys2Proof/Laws/Core.lean ====
section
/-! SUPPORT. How a core issues an instruction and what its end leaves: each meaning of a word is `issue` around its own
effect, so a proof about one starts here. -/

namespace Sys2Proof.Machine

open Sys2Proof.Safety

/-- A word that issues has the effect of its body, once its decode checks pass. -/
theorem issue_plain {c : Nat} {w : Word32} {s : State} (h : issues c w s = true) (srcs : List Nat) (dec : Core → Option Fail)
    (body : Core → State → Eff) (hd : dec (s.core c) = none) :
    issue c w .plain srcs dec body s = finish c s (body (s.core c) s) := by
  simp only [issues, Bool.and_eq_true, Bool.not_eq_true', Option.isNone_iff_eq_none] at h
  obtain ⟨⟨⟨⟨⟨hc, hdiv⟩, hf⟩, hr⟩, hl⟩, hx⟩ := h
  unfold issue
  simp [hc, hdiv, hf, hr, hl, hd, fetch, hx]

/-- A word that issues and fails its decode check raises that fault. -/
theorem issue_fault {c : Nat} {w : Word32} {s : State} (h : issues c w s = true) (srcs : List Nat) (dec : Core → Option Fail)
    (body : Core → State → Eff) (f : Fail) (hd : dec (s.core c) = some f) :
    issue c w .plain srcs dec body s = finish c s (.trap f s) := by
  simp only [issues, Bool.and_eq_true, Bool.not_eq_true', Option.isNone_iff_eq_none] at h
  obtain ⟨⟨⟨⟨⟨hc, hdiv⟩, hf⟩, hr⟩, _⟩, hx⟩ := h
  unfold issue
  simp [hc, hdiv, hf, hr, hd, fetch, hx]

/-- The same for a word that may stand neither in a delay slot nor at an active loop's end. -/
theorem issue_control {c : Nat} {w : Word32} {s : State} (h : issuesControl c w s = true) (srcs : List Nat)
    (dec : Core → Option Fail) (body : Core → State → Eff) (hd : dec (s.core c) = none) :
    issue c w .control srcs dec body s = finish c s (body (s.core c) s) := by
  simp only [issuesControl, issues, Bool.and_eq_true, Bool.not_eq_true', Option.isNone_iff_eq_none] at h
  obtain ⟨⟨⟨⟨⟨⟨⟨hc, hdiv⟩, hf⟩, hr⟩, _⟩, hx⟩, hs⟩, hk⟩ := h
  unfold issue
  simp [hc, hdiv, hf, hr, hs, hk, hd, fetch, hx]

/-- A core that may not issue keeps its state. -/
theorem issue_idle {c : Nat} {w : Word32} {s : State} (h : canIssue (s.core c) = false) (kind : Kind) (srcs : List Nat)
    (dec : Core → Option Fail) (body : Core → State → Eff) : issue c w kind srcs dec body s = s := by
  unfold issue
  simp [h]

theorem finish_done (c : Nat) (s0 s : State) : finish c s0 (.done s) = retired c s := rfl

theorem finish_writeG (c rd : Nat) (v : Word64) (s0 s : State) : finish c s0 (writeG c rd v s) = wroteG c rd v s := rfl

theorem finish_branch (c : Nat) (t : Option (BitVec 48)) (s0 s : State) : finish c s0 (.branch t s) = branched c t s := rfl

theorem finish_stay (c : Nat) (w : Wait) (s0 s : State) : finish c s0 (.stay w s) = waits c w s := rfl

/-- An instruction's end changes its core alone, where it does not trap. -/
theorem retired_frame (c : Nat) (s : State) : ∃ k, retired c s = s.setCore c k := ⟨_, rfl⟩

/-- Counting an event moves the counters of that event, and an overflow pends: nothing else of the scalar core moves. -/
theorem pctrScalar_frame (evt n : Nat) (k : Scalar) : ∃ p ip, pctrScalar evt n k = { k with pctr := p, ip := ip } := by
  unfold pctrScalar
  generalize k.pctr = l
  induction l generalizing k with
  | nil => exact ⟨k.pctr, k.ip, rfl⟩
  | cons x t ih =>
    simp only [List.foldl_cons]
    split
    · obtain ⟨p, ip, h⟩ := ih { k with pctr := mput k.pctr x.1 (pctrAdd x.2 n).1, ip := if (pctrAdd x.2 n).2 then k.ip ||| 4 else k.ip }
      exact ⟨p, ip, h⟩
    · exact ih k

/-- Retiring counts the instruction, moves the offset and the loop counts, and spends the load shadow: every other part
of the scalar core is as it was (03 R127, R132, R150). -/
theorem retireSc_frame (sh : Option Shadow) (k : Scalar) :
    ∃ pc lc slot r p ip, retireSc sh k = { k with pc := pc, lc := lc, slot := slot, ldsReg := r, shadow := sh, pctr := p, ip := ip } := by
  obtain ⟨p, ip, h⟩ := pctrScalar_frame 2 1 k
  unfold retireSc
  dsimp only
  rw [h]
  split <;> exact ⟨_, _, _, _, _, _, rfl⟩

end Sys2Proof.Machine
end

