-- ==== Sys2Proof/Laws/Ops.lean ====
section
/-! SUPPORT. What the shared operations of Ops.lean can change, said once: packets to a link, event bits, records, and
memory read and stored through its code. -/

namespace Sys2Proof.Machine

/-! ## Links and event bits -/

/-- Sending on a bundle changes that bundle alone. -/
theorem sendOn_frame (l : LinkId) (b : Nat) (t : Tx) (s : State) : ∃ u, sendOn l b t s = s.setBundle l b u := ⟨_, rfl⟩

/-- Sending to the host changes bundles alone. -/
theorem sendHost_frame (t : Tx) (s : State) : ∃ bs, sendHost t s = { s with bundles := bs } := by
  unfold sendHost
  split
  · exact ⟨_, rfl⟩
  · exact ⟨s.bundles, rfl⟩

/-- A message to the host changes bundles alone. -/
theorem postMsi_frame (c a d : Nat) (s : State) : ∃ bs, postMsi c a d s = { s with bundles := bs } := sendHost_frame _ s

/-- An interrupt message changes bundles, and an event bit of the companion link. -/
theorem sendMsi_frame (c a d : Nat) (s : State) : ∃ rs bs, sendMsi c a d s = { s with regs := rs, bundles := bs } := by
  unfold sendMsi
  split
  · obtain ⟨bs, h⟩ := postMsi_frame c a d s
    exact ⟨s.regs, bs, h⟩
  · split
    · exact ⟨s.regs, s.bundles, rfl⟩
    · dsimp only
      split
      · obtain ⟨bs, h⟩ := postMsi_frame 0 (((s.set F.vclEvtStat_msg_err 1).reg .vclEvtMsgAddr 0).toNat)
          (((s.set F.vclEvtStat_msg_err 1).reg .vclEvtMsgData 0).toNat) (s.set F.vclEvtStat_msg_err 1)
        exact ⟨_, bs, h⟩
      · exact ⟨_, s.bundles, rfl⟩

/-- Driving ALERT_N changes the pin and the management port alone. -/
theorem settleAlert_frame (s : State) : ∃ p m, settleAlert s = { s with pins := p, mgt := m } := ⟨_, _, rfl⟩

theorem noteEvent_frame (f : Fld) (s : State) : ∃ p m, noteEvent f s = { s with pins := p, mgt := m } := by
  unfold noteEvent
  split
  · split
    · exact settleAlert_frame s
    · obtain ⟨p, m, h⟩ := settleAlert_frame { s with mgt := { s.mgt with events := s.mgt.events ++ [_] } }
      exact ⟨p, m, h⟩
  · exact ⟨s.pins, s.mgt, rfl⟩

/-- Raising an event bit changes registers, the management port, its pin and bundles alone (02 R110). -/
theorem raise_frame (f : Fld) (s : State) :
    ∃ rs m p bs, raise f s = { s with regs := rs, mgt := m, pins := p, bundles := bs } := by
  unfold raise
  split
  · exact ⟨s.regs, s.mgt, s.pins, s.bundles, rfl⟩
  · obtain ⟨p, m, h⟩ := noteEvent_frame f (s.set f 1)
    dsimp only
    rw [h]
    split
    · split
      · rename_i en a d _ _
        obtain ⟨rs, bs, h'⟩ := sendMsi_frame 0 (({ s.set f 1 with pins := p, mgt := m } : State).reg a 0).toNat
          (({ s.set f 1 with pins := p, mgt := m } : State).reg d 0).toNat { s.set f 1 with pins := p, mgt := m }
        rw [h']
        exact ⟨rs, m, p, bs, rfl⟩
      · exact ⟨_, m, p, s.bundles, rfl⟩
    · exact ⟨_, m, p, s.bundles, rfl⟩

@[simp] theorem raise_mem (f : Fld) (s : State) : (raise f s).mem = s.mem := by
  obtain ⟨_, _, _, _, h⟩ := raise_frame f s; rw [h]

@[simp] theorem raise_cores (f : Fld) (s : State) : (raise f s).cores = s.cores := by
  obtain ⟨_, _, _, _, h⟩ := raise_frame f s; rw [h]

@[simp] theorem raise_pending (f : Fld) (s : State) : (raise f s).pending = s.pending := by
  obtain ⟨_, _, _, _, h⟩ := raise_frame f s; rw [h]

@[simp] theorem raise_queues (f : Fld) (s : State) : (raise f s).queues = s.queues := by
  obtain ⟨_, _, _, _, h⟩ := raise_frame f s; rw [h]

/-- A state sensor's event changes the management port alone. -/
theorem stateEvent_frame (n old new : Nat) (s : State) : ∃ m, stateEvent n old new s = { s with mgt := m } := by
  unfold stateEvent
  split
  · exact ⟨s.mgt, rfl⟩
  · exact ⟨_, rfl⟩

/-! ## Records -/

/-- A record joins those on their way and changes nothing else. -/
theorem record_frame (sev unit op : Nat) (d : List Byte) (s : State) :
    ∃ r : Rec, record sev unit op d s = { s with recs := s.recs ++ [r] } ∧ r.sev = sev ∧ r.unit = unit ∧ r.op = op ∧
      r.details = d ∧ r.frame = s.frame := ⟨_, rfl, rfl, rfl, rfl, rfl, rfl⟩

/-- A memory event's record and count change records and registers alone. -/
theorem eccRecord_frame (sev op g req : Nat) (s : State) :
    ∃ rs rc, eccRecord sev op g req s = { s with regs := rs, recs := rc } := by
  unfold eccRecord countEcc
  dsimp only
  split <;> exact ⟨_, _, rfl⟩

theorem eccRecords_frame (sev op req : Nat) (gs : List Nat) (s : State) :
    ∃ rs rc, gs.foldl (fun s g => eccRecord sev op g req s) s = { s with regs := rs, recs := rc } := by
  induction gs generalizing s with
  | nil => exact ⟨s.regs, s.recs, rfl⟩
  | cons g t ih =>
    obtain ⟨rs, rc, h⟩ := eccRecord_frame sev op g req s
    obtain ⟨rs', rc', h'⟩ := ih (eccRecord sev op g req s)
    exact ⟨rs', rc', by rw [List.foldl_cons, h', h]⟩

/-- What the code finds in one granule changes records, registers and the uncorrectable places alone. -/
theorem eccAt_frame (ue : Bool) (g req : Nat) (s : State) :
    ∃ b rs rc, eccAt ue g req s = { s with bad := b, regs := rs, recs := rc } := by
  unfold eccAt
  split
  · exact ⟨s.bad, s.regs, s.recs, rfl⟩
  · split
    · exact ⟨_, s.regs, s.recs, rfl⟩
    · obtain ⟨rs, rc, h⟩ := eccRecord_frame 1 1 g req s
      exact ⟨s.bad, rs, rc, h⟩

theorem eccEach_frame (gs : List Nat) (req : Nat) (l : List (Nat × Bool)) (s : State) :
    ∃ b rs rc, l.foldl (fun s p => match gs[p.1]? with | some g => eccAt p.2 g req s | none => s) s =
      { s with bad := b, regs := rs, recs := rc } := by
  induction l generalizing s with
  | nil => exact ⟨s.bad, s.regs, s.recs, rfl⟩
  | cons p t ih =>
    obtain ⟨b, rs, rc, h⟩ : ∃ b rs rc, (match gs[p.1]? with | some g => eccAt p.2 g req s | none => s) =
        { s with bad := b, regs := rs, recs := rc } := by
      split
      · exact eccAt_frame p.2 _ req s
      · exact ⟨s.bad, s.regs, s.recs, rfl⟩
    obtain ⟨b', rs', rc', h'⟩ := ih (match gs[p.1]? with | some g => eccAt p.2 g req s | none => s)
    exact ⟨b', rs', rc', by rw [List.foldl_cons, h', h]⟩

/-- What an access finds changes records, registers and the uncorrectable places alone. -/
theorem eccFind_frame (e : Ecc) (gs : List Nat) (req : Nat) (s : State) :
    ∃ b rs rc, eccFind e gs req s = { s with bad := b, regs := rs, recs := rc } := by
  unfold eccFind
  split
  · exact eccAt_frame false _ req s
  · exact eccAt_frame true _ req s
  · exact eccEach_frame gs req _ s
  · exact ⟨s.bad, s.regs, s.recs, rfl⟩

/-! ## Memory through its code -/

@[simp] theorem State.bytes_length (s : State) (a n : Nat) : (s.bytes a n).length = n := by simp [State.bytes]

/-- A read of memory changes records, registers and the uncorrectable places alone. -/
theorem memRead_frame (a n : Nat) (e : Ecc) (req : Nat) (s : State) :
    ∃ b rs rc, (memRead a n e req s).1 = { s with bad := b, regs := rs, recs := rc } := by
  unfold memRead
  obtain ⟨b, rs, rc, h⟩ := eccFind_frame e (granules a n) req s
  dsimp only
  rw [h]
  obtain ⟨rs', rc', h'⟩ := eccRecords_frame 2 3 req
    ((granules a n).filter (· ∈ ({ s with bad := b, regs := rs, recs := rc } : State).bad)) { s with bad := b, regs := rs, recs := rc }
  rw [h']
  exact ⟨b, rs', rc', rfl⟩

/-- The three ends of a store: its port has failed, it is stored, or a granule it would merge into is bad. -/
theorem storeEnd_frame (u f : State) (dead ok : Bool) (r : Nat × Nat × Nat × List Byte) (B : List Nat) (a : Nat) (bs : List Byte)
    (hf : ∃ rs rc, f = { u with regs := rs, recs := rc }) :
    ∃ m z b rs rc, (if dead = true then (record r.1 r.2.1 r.2.2.1 r.2.2.2 u, true)
        else if ok = true then ({ u.putBytes a bs with bad := B }, true) else (f, false)).1 =
          { u with mem := m, zeroed := z, bad := b, regs := rs, recs := rc } ∧ (memWf u.mem = true → memWf m = true) := by
  split
  · exact ⟨u.mem, u.zeroed, u.bad, u.regs, _, rfl, id⟩
  · split
    · obtain ⟨m, z, h', hw⟩ := u.putBytes_frame a bs
      exact ⟨m, z, B, u.regs, u.recs, by rw [h'], hw⟩
    · obtain ⟨rs, rc, h'⟩ := hf
      exact ⟨u.mem, u.zeroed, u.bad, rs, rc, h', id⟩

/-- A store to memory changes memory and what a read changes, and keeps memory's form. -/
theorem memWrite_frame (a : Nat) (bs : List Byte) (e : Ecc) (req : Nat) (s : State) :
    ∃ m z b rs rc, (memWrite a bs e req s).1 = { s with mem := m, zeroed := z, bad := b, regs := rs, recs := rc } ∧
      (memWf s.mem = true → memWf m = true) := by
  obtain ⟨b, rs, rc, h⟩ := eccFind_frame e
    (partGranules a bs.length) req s
  obtain ⟨m, z, b', rs', rc', h', hw⟩ := storeEnd_frame { s with bad := b, regs := rs, recs := rc } _
    (match homeOf ({ s with bad := b, regs := rs, recs := rc } : State) a with
      | .far p => portFailed ({ s with bad := b, regs := rs, recs := rc } : State) p | _ => false)
    ((partGranules a bs.length).filter
      (· ∈ ({ s with bad := b, regs := rs, recs := rc } : State).bad)).isEmpty
    (2, unitId 3 (portXY (farPlace ({ s with bad := b, regs := rs, recs := rc } : State) a).1) 0, 4, leBytes 8 a ++ leBytes 4 req)
    (({ s with bad := b, regs := rs, recs := rc } : State).bad.filter (· ∉ granules a bs.length)) a bs
    (eccRecords_frame 2 4 req
      ((partGranules a bs.length).filter
        (· ∈ ({ s with bad := b, regs := rs, recs := rc } : State).bad)) { s with bad := b, regs := rs, recs := rc })
  refine ⟨m, z, b', rs', rc', ?_, hw⟩
  unfold memWrite
  dsimp only
  rw [h]
  exact h'

theorem memRead_mem (a n : Nat) (e : Ecc) (req : Nat) (s : State) : (memRead a n e req s).1.mem = s.mem := by
  obtain ⟨_, _, _, h⟩ := memRead_frame a n e req s; rw [h]

theorem memWrite_wf (a : Nat) (bs : List Byte) (e : Ecc) (req : Nat) (s : State) (h : memWf s.mem = true) :
    memWf (memWrite a bs e req s).1.mem = true := by
  obtain ⟨_, _, _, _, _, e, hw⟩ := memWrite_frame a bs e req s; rw [e]; exact hw h

end Sys2Proof.Machine
end

