-- ==== Sys2Proof/Laws/Vector.lean ====
section
/-! SUPPORT. What the lanes of a vector register are once it has been put together lane by lane. -/

namespace Sys2Proof.Machine

open Sys2Proof.Safety

/-- Lane i of the number that lanes make. -/
theorem foldr_lane (w : Nat) (l : List Nat) (i : Nat) (h : i < l.length) :
    (l.foldr (fun x a => a * 2 ^ w + x % 2 ^ w) 0) / 2 ^ (w * i) % 2 ^ w = l[i] % 2 ^ w := by
  induction l generalizing i with
  | nil => simp at h
  | cons x t ih =>
    have hw := Nat.two_pow_pos w
    have hx : x % 2 ^ w < 2 ^ w := Nat.mod_lt _ hw
    simp only [List.foldr_cons]
    cases i with
    | zero => simp
    | succ j =>
      have hj : j < t.length := by simpa using h
      have hp : (2 : Nat) ^ (w * (j + 1)) = 2 ^ w * 2 ^ (w * j) := by rw [← Nat.pow_add]; congr 1; ring
      rw [hp, ← Nat.div_div_eq_div_mul, Nat.mul_comm, Nat.mul_add_div hw, Nat.div_eq_of_lt hx, Nat.add_zero, ih j hj]
      simp

/-- The number that lanes make lies in the bits of its lanes. -/
theorem foldr_lane_lt (w : Nat) (l : List Nat) : l.foldr (fun x a => a * 2 ^ w + x % 2 ^ w) 0 < 2 ^ (w * l.length) := by
  induction l with
  | nil => simp
  | cons x t ih =>
    have hx : x % 2 ^ w < 2 ^ w := Nat.mod_lt _ (Nat.two_pow_pos w)
    have hp : (2 : Nat) ^ (w * (t.length + 1)) = 2 ^ (w * t.length) * 2 ^ w := by rw [← Nat.pow_add]; congr 1
    simp only [List.foldr_cons, List.length_cons, hp]
    generalize t.foldr (fun x a => a * 2 ^ w + x % 2 ^ w) 0 = y at ih ⊢
    have := Nat.mul_le_mul_right (2 ^ w) (Nat.succ_le_of_lt ih)
    rw [Nat.succ_mul] at this
    omega

/-- A lane of a register put together from lanes is that lane, cut to its width. -/
theorem lane_ofLanes (w : Nat) (l : List Nat) (i : Nat) (h : i < l.length) (hl : w * l.length ≤ 1024) :
    lane w (ofLanes w l) i = l[i] % 2 ^ w := by
  unfold lane ofLanes
  rw [BitVec.toNat_ofNat, Nat.mod_eq_of_lt
    (lt_of_lt_of_le (foldr_lane_lt w l) (Nat.pow_le_pow_right (by norm_num) hl)), foldr_lane w l i h]

@[simp] theorem lanesOf_length (w : Nat) (v : VReg) : (lanesOf w v).length = 1024 / w := by simp [lanesOf]

theorem lanesOf_get (w : Nat) (v : VReg) (i : Nat) (h : i < (lanesOf w v).length) : (lanesOf w v)[i] = lane w v i := by
  simp [lanesOf, lane]

/-- A vector register written reads back; the others read as before. -/
theorem vreg_setV (s : State) (c i j : Nat) (v : VReg) : vreg (s.setV c i v) c j = if j = i then v else vreg s c j := by
  unfold vreg State.setV
  rw [State.core_updCore_self]
  exact mget_mput ..

end Sys2Proof.Machine
end

