-- ==== Sys2Proof/Tests/Slice0.lean ====
section
/-! SUPPORT. Small checks of one step each, and for every statement of Certificates/Slice0/Obligations.lean with
hypotheses a state and operands that meet them (`met_…`), clause by clause. Words are written out from the spec's encodings
(03 R116-R118); expected values come from the rule each test names. -/

namespace Sys2Proof.Tests

set_option Elab.async false

open Sys2Proof.Machine Sys2Proof.Safety

/-! ## Helpers -/

/-- A word of three registers and a minor field (03 R116). -/
def word (major rd ra rb minor : Nat) : Word32 :=
  BitVec.ofNat 32 (major * 2 ^ 27 + rd * 2 ^ 22 + ra * 2 ^ 17 + rb * 2 ^ 12 + minor)

/-- A word with a field [16:0]. -/
def wordI (major rd ra imm : Nat) : Word32 := BitVec.ofNat 32 (major * 2 ^ 27 + rd * 2 ^ 22 + ra * 2 ^ 17 + imm)

/-- A readable and writable segment over core 0's scratchpad. -/
def pad0 : Seg := ⟨0x0300_0000_0000, 0x10_0000, 0, true, true⟩

/-- A running scalar part: g1 = 1, g2 = 5, g3 = -7, g4 = 0x100, g5 = 0x200, with its scratchpad in segment 0. -/
def sc0 : Scalar :=
  { pc := 64, code := ⟨5, 0, 0x1000, true, 1, true⟩, seg := [(0, pad0)],
    g := [(1, 1), (2, 5), (3, 0xFFFF_FFFF_FFFF_FFF9), (4, 0x100), (5, 0x200)] }

/-- An instruction cache that holds the lines 0 to 12. -/
def warmCode : Cache := { main := (List.range 13).map (fun l => (l, ⟨l, [], false, [], false⟩)) }

/-- Core 0 with this part, its code in the instruction cache. -/
def core (k : Core) : State := { cores := [(0, { k with icache := warmCode })] }

/-- Core 0 running. -/
def st (k : Scalar) : State := core { run := .running, sc := k }

/-- A response of core 1's scratchpad to core 0. -/
def rd1 : Resp := ⟨0, .read, 0x0300_0020_0000, [1, 0, 0, 0, 0, 0, 0, 0], false, .spad 1, 0⟩

/-- A landing in tile 0 of two rows of core 0's scratchpad. -/
def landing0 : Landing := { tile := 0, todo := [⟨0x0300_0000_0100, 4, 0⟩, ⟨0x0300_0000_0108, 4, 4⟩] }

/-- The state of a next outcome. -/
def nxt (o : Host.Outcome State Fault Refusal) : State := match o with | .next t => t | _ => { freeCount := 999999 }

/-- An executable handle 1 and a supervisor vector that names it, with table entries. -/
def withHandler (k : Core) : Core :=
  { k with htab := [(1, (0x8200_0000_0000_0000, 0x10000))], sc := { k.sc with evec := 0x0400_0000_0000_2003 } }

/-- A state with register fields set: field, element, value. -/
def regs (l : List (Fld × Nat × Nat)) (s : State) : State := l.foldl (fun s x => s.set x.1 x.2.2 x.2.1) s

/-! ## Integer instructions -/

/-- Operands and a word of three registers: rd = 6, ra = 2, rb = 3 (AluRegister, AluImmediate, Divides). -/
theorem met_RegisterOperationsCompute :
    (issues 0 (word 0 6 2 3 0) (st sc0) = true ∧ fld (word 0 6 2 3 0) 11 6 = 0) ∧
    (issues 0 (word 0 6 2 0 0x12) (st sc0) = true ∧ fld (word 0 6 2 0 0x12) 11 6 = 0 ∧ rbOf (word 0 6 2 0 0x12) = 0 ∧
      (reads (st sc0) 0 2).toNat.testBit 0 = true ∧ reads (st sc0) 0 9 = 0) ∧
    (rbOf (word 0 6 2 0 0xB) = 0 ∧ issues 0 (word 0 6 2 0 (63 * 64 + 0xB)) (st sc0) = true) ∧
    issues 0 (word 0x14 6 2 3 2) (st sc0) = true := by decide +kernel

/-- 03 R120: 5 + -7 = -2, 5 - -7 = 12, and -7 < 5 signed but not unsigned. -/
theorem test_alu :
    mget (scalar (nxt (exec (.add 0 (word 0 6 2 3 0)) (st sc0))) 0).g 6 0 = 0xFFFF_FFFF_FFFF_FFFE ∧
    mget (scalar (nxt (exec (.sub 0 (word 0 6 2 3 1)) (st sc0))) 0).g 6 0 = 12 ∧
    mget (scalar (nxt (exec (.slt 0 (word 0 6 3 2 6)) (st sc0))) 0).g 6 0 = 1 ∧
    mget (scalar (nxt (exec (.sltu 0 (word 0 6 3 2 7)) (st sc0))) 0).g 6 0 = 0 ∧
    mget (scalar (nxt (exec (.sra 0 (word 0 6 3 1 0xA)) (st sc0))) 0).g 6 0 = 0xFFFF_FFFF_FFFF_FFFC := by decide +kernel

/-- 03 R113: a write to g0 is discarded, and the pc goes on. -/
theorem test_g0 : let t := nxt (exec (.add 0 (word 0 0 2 3 0)) (st sc0)); (scalar t 0).g = sc0.g ∧ (scalar t 0).pc = 68 := by
  decide +kernel

theorem met_ImmediateOperationsCompute :
    issues 0 (wordI 1 6 2 0x1FFFF) (st sc0) = true ∧ raOf (wordI 5 6 0 1) = 0 ∧ issues 0 (wordI 5 6 0 1) (st sc0) = true := by decide +kernel

/-- 03 R121: imm17 is signed: 5 + -1 = 4; lui puts imm17 × 2^17. -/
theorem test_immediate :
    mget (scalar (nxt (exec (.addi 0 (wordI 1 6 2 0x1FFFF)) (st sc0))) 0).g 6 0 = 4 ∧
    mget (scalar (nxt (exec (.lui 0 (wordI 5 6 0 1)) (st sc0))) 0).g 6 0 = 0x20000 := by decide +kernel

theorem met_DividesCompleteOrTrap :
    (issues 0 (word 0x14 6 3 2 3) (st sc0) = true ∧ reads (st sc0) 0 2 ≠ 0) ∧
    (scalar (st { sc0 with divide := some ⟨6, 9⟩ }) 0).divide = some ⟨6, 9⟩ ∧
    (issues 0 (word 0x14 6 3 0 3) (st sc0) = true ∧ reads (st sc0) 0 0 = 0) := by decide +kernel

/-- 03 R122: -7 / 5 = -1 remainder -2. -/
theorem test_divide :
    (scalar (nxt (exec (.div 0 (word 0x14 6 3 2 3)) (st sc0))) 0).divide = some ⟨6, 0xFFFF_FFFF_FFFF_FFFF⟩ ∧
    (scalar (nxt (exec (.rem 0 (word 0x14 6 3 2 5)) (st sc0))) 0).divide = some ⟨6, 0xFFFF_FFFF_FFFF_FFFE⟩ ∧
    mget (scalar (nxt (exec (.divideComplete 0) (st { sc0 with divide := some ⟨6, 9⟩ }))) 0).g 6 0 = 9 := by decide +kernel

/-! ## Program order -/

theorem met_NextOffsetFollowsLoops :
    (scalar (st { sc0 with slot := some ⟨60, some 0x200, none⟩ }) 0).slot = some ⟨60, some 0x200, none⟩ ∧
    (let k := { sc0 with lc := [(1, 2), (0, 3)], le := [(1, 64), (0, 64)], ls := [(1, 32), (0, 16)] }
     k.slot = none ∧ mget k.lc 1 0 - 1 ≠ 0 ∧ k.pc = mget k.le 1 0 ∧ (scalar (retired 0 (st k)) 0).pc = 32) ∧
    (let k := { sc0 with lc := [(1, 1), (0, 3)], le := [(1, 64), (0, 64)], ls := [(1, 32), (0, 16)] }
     k.slot = none ∧ mget k.lc 1 0 - 1 = 0 ∧ mget k.lc 0 0 - 1 ≠ 0 ∧ k.pc = mget k.le 0 0 ∧
     (scalar (retired 0 (st k)) 0).pc = 16 ∧ mget (scalar (retired 0 (st k)) 0).lc 1 0 = 0) ∧
    (sc0.slot = none ∧ mget sc0.lc 1 0 = 0 ∧ mget sc0.lc 0 0 = 0 ∧ (scalar (retired 0 (st sc0)) 0).pc = 68) ∧
    (let w := wordI 0x11 0 2 4
     issuesControl 0 w (st sc0) = true ∧ fld w 26 23 = 0 ∧ fld w 16 0 ≠ 0 ∧
     ((scalar (st sc0) 0).setLoop (fld w 22 22) (sc0.pc + 4) (sc0.pc + BitVec.ofNat 48 (4 * fld w 16 0))
       ((reads (st sc0) 0 2).setWidth 32)).badNest = false) := by decide +kernel

/-- 03 R149: lpset over four instructions with the count 5. -/
theorem test_lpset : let t := nxt (exec (.lpset 0 (wordI 0x11 0 2 4)) (st sc0))
    mget (scalar t 0).ls 0 0 = 68 ∧ mget (scalar t 0).le 0 0 = 80 ∧ mget (scalar t 0).lc 0 0 = 5 ∧ (scalar t 0).pc = 68 := by
  decide +kernel

theorem met_BranchesAndJumpsTransfer :
    issuesControl 0 (wordI 0xA 2 1 0x3FFF) (st sc0) = true ∧ issuesControl 0 (wordI 0xC 31 31 0x1FFFF) (st sc0) = true ∧
    (let w := word 0xD 0 4 0 0
     issuesControl 0 w (st sc0) = true ∧ (reads (st sc0) 0 4).toNat % 4 = 0 ∧ rbOf w = 0 ∧ minorOf w = 0 ∧ rdOf w = 0) ∧
    (let w := word 0xD 6 4 0 1
     issuesControl 0 w (st sc0) = true ∧ (reads (st sc0) 0 4).toNat % 4 = 0 ∧ rbOf w = 0 ∧ minorOf w = 1 ∧ rdOf w ≠ raOf w) := by
  decide +kernel

/-- 03 R125-R127: bne back by one instruction, and jal back by one with its link. -/
theorem test_branch :
    (scalar (nxt (exec (.bne 0 (wordI 0xA 2 1 0x7FFF)) (st sc0))) 0).slot = some ⟨64, some 60, none⟩ ∧
    (scalar (nxt (exec (.beq 0 (wordI 0xA 2 1 0x3FFF)) (st sc0))) 0).slot = some ⟨64, none, none⟩ ∧
    (let t := nxt (exec (.jal 0 (wordI 0xC 31 31 0x1FFFF)) (st sc0))
     (scalar t 0).slot = some ⟨64, some 60, none⟩ ∧ mget (scalar t 0).g 31 0 = 72) := by decide +kernel

/-! ## Memory, segments, CSRs -/

/-- A doubleword at offset 0x108. -/
def padded : State := (st sc0).putBytes 0x0300_0000_0108 [1, 2, 3, 4, 5, 6, 7, 0xFF]

/-- ld of 4 bytes, sign-extended, at g4 + 12; ld of 8 bytes at g4 + 8; a wait for core 1's answer. -/
theorem met_LoadsReadMemory :
    (let w := wordI 8 6 4 (0x2000 + 0x800 + 12)
     issues 0 w padded = true ∧ (fld w 11 11 == 1 && 2 ^ fld w 13 12 == 8) = false ∧
     ownAccess 0 (fld w 16 14) (reads padded 0 4 + BitVec.ofInt 64 (signed 11 (fld w 10 0))).toNat (2 ^ fld w 13 12) false padded = true) ∧
    (let s := { core { run := .running, sc := sc0, wait := .load 0x0300_0020_0000 8 false 6 } with
       resps := [rd1] }
     (s.core 0).wait = .load 0x0300_0020_0000 8 false 6 ∧ regionOf 0x0300_0020_0000 = .spad 1 ∧
     xlatAddr s 0 0x0300_0020_0000 = 0x0300_0020_0000 ∧
     takeFirst (fun r => respHere s 0 r && r.kind == .read && r.addr == 0x0300_0020_0000) s.resps =
       some (rd1, []) ∧ respHere s 0 rd1 = true ∧
     mget (scalar (nxt (exec (.loadDataReturn 0 .clean) s)) 0).g 6 0 = 1) := by decide +kernel

/-- 03 R129, R130: bytes little-endian, the sign extended, and the delay slot's old value kept. -/
theorem test_load : let t := nxt (exec (.ld 0 (wordI 8 6 4 (0x2000 + 0x800 + 12)) .clean) padded)
    mget (scalar t 0).g 6 0 = 0xFFFF_FFFF_FF07_0605 ∧ (scalar t 0).shadow = some ⟨6, 0, false⟩ := by decide +kernel

theorem met_StoreWritesItsBytes : let w := wordI 9 3 4 (0x3000 + 8)
    issues 0 w (st sc0) = true ∧ memWf (st sc0).mem = true ∧ fld w 11 11 = 0 ∧
    ownAccess 0 (fld w 16 14) (reads (st sc0) 0 4 + BitVec.ofInt 64 (signed 11 (fld w 10 0))).toNat (2 ^ fld w 13 12) true (st sc0) = true ∧
    (nxt (exec (.st 0 w .clean) (st sc0))).bytes 0x0300_0000_0108 8 = [0xF9, 0xFF, 0xFF, 0xFF, 0xFF, 0xFF, 0xFF, 0xFF] := by
  decide +kernel

/-- sld of handle 1, snarrow to bytes 5-5, sdrop, the reads, swr at supervisor level, and a user-level swr. -/
theorem met_SegmentInstructionsWrite :
    (let s := core (withHandler { run := .running, sc := sc0 })
     let w := word 0x10 6 1 0 0
     issues 0 w s = true ∧ fld w 3 0 = 0 ∧ fld w 26 25 = 0 ∧ rbOf w = 0 ∧ fld w 6 4 = 0 ∧ fld w 11 7 = 0 ∧
     (reads s 0 1).toNat < 64 ∧ handleEntry (s.core 0) 1 = some (0x8200_0000_0000_0000, 0x10000) ∧
     handleEntry ((nxt (exec (.sld 0 ⟨w, false⟩) s)).core 0) 1 = some (0x8200_0000_0000_0000, 0x10000) ∧
     mget ((nxt (exec (.sld 0 ⟨w, true⟩) s)).core 0).htab 1 (1, 1) = (0, 0)) ∧
    (let w := word 0x10 6 2 1 1
     issues 0 w (st sc0) = true ∧ fld w 3 0 = 1 ∧ fld w 26 25 = 0 ∧ fld w 11 7 = 0 ∧
     (reads (st sc0) 0 2).toNat + (reads (st sc0) 0 1).toNat ≤ ((sc0.sgm (fld w 6 4)).limit).toNat) ∧
    (let w := word 0x10 6 1 0 2; issues 0 w (st sc0) = true ∧ fld w 3 0 = 2 ∧ fld w 26 25 = 0 ∧ fld w 11 7 = 0) ∧
    (∀ f : Fin 3, let w := word 0x10 6 0 0 (3 + f.val)
     issues 0 w (st sc0) = true ∧ fld w 3 0 = 3 + f.val ∧ raOf w = 0 ∧ rbOf w = 0 ∧ fld w 11 7 = 0) ∧
    (let s := st { sc0 with pl := 1, g := [(1, 0x0300_0000_0000), (2, 0x100)] }
     let w := word 0x10 0 1 2 0x186
     issues 0 w s = true ∧ fld w 3 0 = 6 ∧ fld w 26 25 = 0 ∧ fld w 6 4 = 0 ∧ fld w 11 11 = 0 ∧ (scalar s 0).pl ≠ 0 ∧
     inClass (fld w 10 9) 0x0300_0000_0000 0x100 = true ∧
     (scalar (nxt (exec (.swr 0 w) s)) 0).sgm 0 = ⟨0x0300_0000_0000, 0x100, 0, true, true⟩ ∧
     issues 0 w (st sc0) = true ∧ (scalar (st sc0) 0).pl = 0) := by decide +kernel

/-- cget of `stage`; cput and cupd of a loop count. -/
theorem met_CsrsReadAndWrite :
    (let w := word 0xE 6 0 0 0x11
     issues 0 w (st sc0) = true ∧ csrKnown 0 0x11 = true ∧ csrLevel 0x11 false ≤ sc0.pl.toNat ∧ raOf w = 0 ∧ rbOf w = 0) ∧
    (let w := word 0xE 0 0 2 0x422
     issues 0 w (st sc0) = true ∧ csrKnown 0 0x22 = true ∧ csrReadOnly 0 0x22 = false ∧ csrLevel 0x22 true ≤ sc0.pl.toNat ∧
     raOf w = 0 ∧ rdOf w = 0 ∧ fld w 9 0 ≠ 0x40 ∧
     (match csrPut 0 0x22 5 (st sc0) with | .ok t => mget (scalar t 0).lc 0 0 == 5 | _ => false) = true) ∧
    (let w := word 0xE 6 1 2 0x822
     issues 0 w (st sc0) = true ∧ raOf w ≠ 0 ∧ fld w 9 0 = 0x22 ∧
     (match csrPut 0 0x22 1 (st sc0) with | .ok t => mget (scalar t 0).lc 0 0 == 1 | _ => false) = true) := by decide +kernel

/-! ## Exceptions -/

theorem met_SystemCallsEnterHandlers :
    (let s := core (withHandler { run := .running, sc := sc0 })
     let w := word 0xF 0 0 0 0
     issuesControl 0 w s = true ∧ fld w 26 0 = 0 ∧ handles 0 0x14 s = true ∧
     canIssue (s.core 0) = true ∧ (scalar s 0).divide = none ∧ fetchFault (scalar s 0) = none ∧ (scalar s 0).slot = none ∧
     handles 0 1 s = true ∧ reservedWord 0xFFFF_FFFF = true) ∧
    (let s := (st sc0).set F.dbgMsegLimit_limit 0x1000 0
     let w := word 0xF 0 0 0 1
     issuesControl 0 w s = true ∧ fld w 26 0 = 1 ∧ (scalar s 0).pl ≠ 3 ∧
     (0 : Nat) * 4096 < (machineCode s 0).limit.toNat ∧ (s.reg .dbgMevec 0).toNat = 0) := by decide +kernel

/-- 04 R174, R177: sys at offset 64 of handle 5 enters slot 0x14 of the vector at 0x2000 with level 6. -/
theorem test_sys : let t := nxt (exec (.sys 0 (word 0xF 0 0 0 0)) (core (withHandler { run := .running, sc := sc0 })))
    (scalar t 0).pl = 1 ∧ (scalar t 0).ml = 6 ∧ (scalar t 0).pc = 0x2500 ∧ (scalar t 0).sup.epc = 0x0A00_0000_0000_0040 := by
  decide +kernel

/-- resume from the supervisor bank into handle 1 at offset 0x40. -/
theorem met_ResumeReturns :
    let s := core (withHandler { run := .running, sc := { sc0 with pl := 1, ml := 6, sup := ⟨0, 0, 0, 0x0200_0000_0000_0040⟩ } })
    let w := word 0xF 0 0 0 3
    issuesControl 0 w s = true ∧ fld w 26 0 = 3 ∧ (scalar s 0).pl = 1 ∧ (scalar s 0).sup.spl.toNat ≤ 1 ∧
    natBits (scalar s 0).sup.epc.toNat 63 57 = 1 ∧ (handleCode (s.core 0) 1).isSome = true ∧
    (scalar (nxt (exec (.resume 0 ⟨w, false⟩) s)) 0).pc = 0x40 ∧ (scalar (nxt (exec (.resume 0 ⟨w, false⟩) s)) 0).pl = 0 := by decide +kernel

theorem met_InterruptsEnterHandlers :
    (let s := core (withHandler { run := .running, sc := { sc0 with ie := 1, ip := 1 } })
     (s.core 0).run = .running ∧ (s.core 0).halted = false ∧ (s.core 0).wait = .none ∧ (scalar s 0).slot = none ∧
     (scalar s 0).divide = none ∧ (s.core 0).nanTrap = none ∧ deliverable (scalar s 0) = some (0, 0, 1, false, some 0)) ∧
    (let s := core (withHandler { run := .running, sc := { sc0 with evec := 0x0400_0000_0000_2003, ie := 1, ip := 1 } })
     natBit (scalar s 0).evec.toNat 0 = true ∧ (handleCode (s.core 0) 1).isSome = true ∧
     (scalar (nxt (exec (.interruptTaken 0) s)) 0).pc = 0x2600) ∧
    (let s := core (withHandler { run := .running, sc := sc0, nanTrap := some 8 })
     (s.core 0).nanTrap.isSome = true ∧ deliverable (scalar s 0) = none ∧ handles 0 8 s = true) ∧
    (let s := st { sc0 with pl := 1, ml := 7 }
     let w := word 0xF 0 0 0 4
     issuesControl 0 w s = true ∧ fld w 26 0 = 4 ∧ (scalar s 0).pl ≠ 0 ∧ sources.any (pendEnabled (scalar s 0)) = false) ∧
    (let s := st { sc0 with pl := 1, ml := 7, ie := 1, ip := 1 }
     issuesControl 0 (word 0xF 0 0 0 4) s = true ∧ sources.any (pendEnabled (scalar s 0)) = true) ∧
    (let s := core { run := .running, wait := .idle, sc := { sc0 with ie := 1, ip := 1 } }
     (s.core 0).wait = .idle ∧ sources.any (pendEnabled (scalar s 0)) = true) := by decide +kernel

theorem met_ExitEndsPart : let w := word 0xF 0 0 0 2
    issuesControl 0 w (st sc0) = true ∧ fld w 26 0 = 2 ∧ (scalar (st sc0) 0).pl ≠ 3 ∧ quiet 0 (st sc0) = true ∧
    (mget ((st sc0).core 0).accs 0 {}).poison = 0 ∧ (mget ((st sc0).core 0).accs 1 {}).poison = 0 ∧
    ((nxt (exec (.exit 0 ⟨w, .clean⟩) (st sc0))).core 0).run = .idle := by decide +kernel

/-! ## The vector unit -/

/-- Core 0 with these vector registers and its first-NaN record `rec`. -/
def vst (v : List (Nat × VReg)) (rec : List (Nat × Word64)) : State := core { run := .running, sc := sc0, v := v, nanrec := rec }

/-- A word of major 0x15 (05 R199). -/
def vword (rd ra rb f ty aux : Nat) : Word32 := word 0x15 rd ra rb (f * 64 + ty * 8 + aux)

/-- 1.0 and 2.0 in lane 0; an FP32 NaN in lane 1 of v4. -/
def vregs : List (Nat × VReg) := [(1, 0x3F800000), (2, 0x40000000), (4, 0x7FC00000_00000000)]

theorem met_VectorArithmeticLanes :
    (let w := vword 3 1 2 0 0 0
     issuesVec 0 w (vst vregs []) = true ∧ tyOf w = 0 ∧ auxOf w = 0 ∧
     ∀ i : Fin 32, (fp32.dec (fp32.enc .nearest (Val.add (fp32.dec (lane 32 (vreg (vst vregs []) 0 1) i))
       (fp32.dec (lane 32 (vreg (vst vregs []) 0 2) i))))).isNan = false) ∧
    (let w := vword 3 1 0 7 2 0
     issuesVec 0 w (vst vregs [(0, 0x8000_0000_0000_0000)]) = true ∧ rbOf w = 0 ∧ auxOf w = 0 ∧
     nanSpent 0 (vst vregs [(0, 0x8000_0000_0000_0000)]) = true) ∧
    (let w := vword 3 1 2 5 5 1; issuesVec 0 w (vst vregs []) = true ∧ 3 ≤ tyOf w ∧ auxOf w = 1) := by decide +kernel

/-- 05 R200: 1.0 + 2.0 = 3.0 in lane 0 and 0 in the others; 07 R288: v1 + v4 meets its NaN in lane 1. -/
theorem test_vadd : vreg (nxt (exec (.vadd 0 (vword 3 1 2 0 0 0)) (vst vregs []))) 0 3 = 0x40400000 ∧
    mget ((nxt (exec (.vadd 0 (vword 3 1 4 0 0 0)) (vst vregs []))).core 0).nanrec 2 0 = 0x100001 := by decide +kernel

theorem met_VectorBitsAndPermutes :
    (let w := vword 3 1 0 9 0 0; issuesVec 0 w (vst vregs []) = true ∧ tyOf w = 0 ∧ auxOf w = 0 ∧ rbOf w = 0) ∧
    (let w := vword 3 1 2 0xC 3 0; issuesVec 0 w (vst vregs []) = true ∧ 3 ≤ tyOf w ∧ auxOf w = 0) ∧
    (let w := vword 3 1 2 0x14 4 1; issuesVec 0 w (vst vregs []) = true ∧ auxOf w ≤ 1) ∧
    (let w := vword 3 1 2 0x10 2 6; issuesVec 0 w (vst vregs []) = true ∧ tyOf w < 3 ∧ auxOf w ≠ 7) ∧
    (let w := vword 3 1 2 0x10 3 7; issuesVec 0 w (vst vregs []) = true ∧ 3 ≤ tyOf w ∧ auxOf w ≠ 6) ∧
    (let w := vword 3 1 0 0x16 5 0; issuesVec 0 w (vst vregs []) = true ∧ auxOf w = 0 ∧ rbOf w = 0) := by decide +kernel

/-- 05 R201: a splat of g2 = 5 in words; lane 0 of v2 by vext. -/
theorem test_vsplat : lane 32 (vreg (nxt (exec (.vsplat 0 (vword 3 2 0 0x16 3 0)) (vst vregs []))) 0 3) 31 = 5 ∧
    mget (scalar (nxt (exec (.vext 0 (vword 6 2 0 0x17 0 0)) (vst vregs []))) 0).g 6 0 = 0x40000000 := by decide +kernel

/-- Lane 0 of v2 is the largest as an integer, and the lowest largest; every lane of v8 is NaN. -/
theorem met_VectorReductionsWrite :
    (let w := vword 6 2 0 0x20 3 0
     issuesVec 0 w (vst vregs []) = true ∧ rbOf w = 0 ∧ 3 ≤ tyOf w ∧ auxOf w = 0 ∧
     (∀ i : Fin 32, toSigned 32 (lane 32 (vreg (vst vregs []) 0 2) i) ≤ toSigned 32 (lane 32 (vreg (vst vregs []) 0 2) 0)) ∧
     (∀ i : Fin 32, toSigned 32 (lane 32 (vreg (vst vregs []) 0 2) 1) ≤ toSigned 32 (lane 32 (vreg (vst vregs []) 0 2) i))) ∧
    (let w := vword 6 2 0 0x21 3 1
     issuesVec 0 w (vst vregs []) = true ∧ auxOf w = 1 ∧
     (∀ i : Fin 32, lane 32 (vreg (vst vregs []) 0 2) i ≤ lane 32 (vreg (vst vregs []) 0 2) 0) ∧
     (∀ i : Fin 32, lane 32 (vreg (vst vregs []) 0 2) 1 ≤ lane 32 (vreg (vst vregs []) 0 2) i)) ∧
    (let w := vword 6 2 0 0x24 3 2; issuesVec 0 w (vst vregs []) = true ∧ auxOf w = 2) ∧
    (let v : VReg := BitVec.ofNat 1024 (ofLeBytes ((List.range 32).flatMap (fun _ => leBytes 4 0x7FC00000)))
     let s := vst [(8, v)] [(0, 0x8000_0000_0000_0000)]
     let w := vword 6 8 0 0x21 0 0
     issuesVec 0 w s = true ∧ tyOf w = 0 ∧ nanSpent 0 s = true ∧ auxOf w = 0 ∧
     (∀ i : Fin 32, ((tyFmt 0).dec (lane 32 (vreg s 0 8) i)).isNan = true)) := by decide +kernel

/-- 05 R204: an integer sum of v1 over words is 0x3F800000, and the maximum of v2 by vrarg stands in lane 0. -/
theorem test_vrsum : mget (scalar (nxt (exec (.vrsum 0 (vword 6 1 0 0x20 3 0)) (vst vregs []))) 0).g 6 0 = 0x3F800000 ∧
    mget (scalar (nxt (exec (.vrarg 0 (vword 6 2 0 0x24 3 2)) (vst vregs []))) 0).g 6 0 = 0x40000000 := by decide +kernel

theorem met_VectorSpecialAndConversions :
    (let s := vst vregs [(0, 0x8000_0000_0000_0000)]
     nanSpent 0 s = true ∧
     (let w := vword 3 1 0 0x28 0 0; issuesVec 0 w s = true ∧ tyOf w = 0 ∧ auxOf w = 0 ∧ rbOf w = 0) ∧
     (let w := vword 3 1 2 0x2C 0 1; issuesVec 0 w s = true ∧ tyOf w = 0 ∧ auxOf w ≤ 1) ∧
     (let w := vword 3 1 0 0x2D 3 0; issuesVec 0 w s = true ∧ tyOf w = 3 ∧ auxOf w = 0 ∧ rbOf w = 0) ∧
     (let w := vword 3 1 0 0x2E 0 1; issuesVec 0 w s = true ∧ tyOf w = 0 ∧ auxOf w ≤ 1 ∧ rbOf w = 0)) ∧
    (let s := vst vregs [(0, 0x8000_0000_0000_0000)]
     let w := word 0x15 3 1 2 (0xC00 + 2 * 64 + 4)
     issues 0 w s = true ∧ isService 0 = false ∧ fld w 12 12 = 0 ∧ fld w 16 16 = 0 ∧ fld w 15 13 < 2 ∧ fld w 9 6 = 2 ∧
     fld w 5 2 = 1 ∧ lane 16 (vreg (nxt (exec (.vectorConversion 0 w) s)) 0 3) 32 = 0x3F80) ∧
    (let s := vst vregs [(0, 0x8000_0000_0000_0000)]
     let w := word 0x15 3 1 0 (0xC00 + 64 + 12)
     issues 0 w s = true ∧ fld w 12 12 = 0 ∧ fld w 16 16 = 0 ∧ fld w 15 13 < 2 ∧ fld w 5 2 = 3 ∧ fld w 9 6 = 1) := by
  decide +kernel

/-- A NaN in lane 1, trapping with a handler and not trapping; a machine handler for a residue mismatch. -/
theorem met_VectorFaultsRecordAndTrap :
    (let s := core (withHandler { run := .running, sc := sc0, v := vregs, nanrec := [(0, 0x4000_0000_0000_0000)] })
     let w := vword 3 1 4 0 0 0
     issuesVec 0 w s = true ∧ tyOf w = 0 ∧ auxOf w = 0 ∧ nanSpent 0 s = false ∧
     natBit (mget (s.core 0).nanrec 0 0).toNat 62 = true ∧ handles 0 8 s = true ∧
     (Val.add (dec32 (lane 32 (vreg s 0 1) 1)) (dec32 (lane 32 (vreg s 0 4) 1))).isNan = true ∧
     (Val.add (dec32 (lane 32 (vreg s 0 1) 0)) (dec32 (lane 32 (vreg s 0 4) 0))).isNan = false ∧
     (scalar (nxt (exec (.vadd 0 w) s)) 0).pc = 0x2200) ∧
    (let s := vst vregs []; let w := vword 3 1 4 0 0 0
     issuesVec 0 w s = true ∧ nanSpent 0 s = false ∧ natBit (mget (s.core 0).nanrec 0 0).toNat 62 = false) ∧
    (let s := (vst vregs []).set F.dbgMsegLimit_limit 0x1000 0
     let w := vword 3 1 2 2 3 0
     issuesVec 0 w s = true ∧ 3 ≤ tyOf w ∧ auxOf w = 0 ∧ (scalar s 0).pl ≠ 3 ∧ 0 < (machineCode s 0).limit.toNat ∧
     (s.reg .dbgMevec 0).toNat = 0 ∧ (scalar (nxt (exec (.vmul 0 w true) s)) 0).pl = 3) := by decide +kernel

/-- Lines at g4, elements of 4 bytes at g4 + i × g1 × 4 (g7 = 4), and two rows of 64 bytes at g4 and g4 + g5. -/
def vmem : State := { (core { run := .running, sc := { sc0 with g := sc0.g ++ [(7, 4)] }, v := vregs }) with
  mem := [(0x0300_0000_0100, 1), (0x0300_0000_0104, 2), (0x0300_0000_0300, 3)] }

theorem met_VectorMemoryMoves :
    (memWf vmem.mem = true ∧ isService 0 = false) ∧
    (∀ f : Fin 2, let w := word 0x16 3 4 0 (f.val * 0x1000)
      issues 0 w vmem = true ∧ fld w 11 11 = 0 ∧ fld w 13 12 = f.val ∧ ownAccess 0 (fld w 16 14) 0x100 128 (f.val == 1) vmem = true) ∧
    (∀ f : Fin 2, let w := word 0x16 3 4 7 (0x800 + f.val * 32 + 2 * 8)
      issues 0 w vmem = true ∧ fld w 11 11 = 1 ∧ fld w 7 5 = f.val ∧ fld w 2 0 = 0 ∧
      ∀ i : Fin 32, ownAccess 0 (fld w 10 8) (0x100 + 4 * i.val) 4 (f.val == 1) vmem = true) ∧
    (∀ f : Fin 2, let w := word 0x16 3 4 5 (0x800 + (2 + f.val) * 32 + 2 * 8 + 1)
      issues 0 w vmem = true ∧ fld w 11 11 = 1 ∧ fld w 7 5 = 2 + f.val ∧ 2 ^ fld w 2 0 * 2 ^ fld w 4 3 ≤ 128 ∧
      ∀ i : Fin 32, ownAccess 0 (fld w 10 8) (0x100 + 0x200 * (i.val % 2) + 4 * (i.val / 2)) 4 (f.val == 1) vmem = true) := by
  decide +kernel

/-- 05 R213, R215: strided element 1 and transposed element 1. -/
theorem test_vlds : lane 32 (vreg (nxt (exec (.vlds 0 (word 0x16 3 4 7 0x810) .clean) vmem)) 0 3) 1 = 2 ∧
    lane 32 (vreg (nxt (exec (.vldt 0 (word 0x16 3 4 5 0x851) .clean) vmem)) 0 3) 1 = 3 := by decide +kernel

/-! ## Block-repeat, coprocessors, multiply-accumulate -/

/-- Core 0 with a count in g6 and pointers g4, g5. -/
def blk (n : Word64) : State := { st { sc0 with g := sc0.g ++ [(6, n), (9, 3)] } with mem := vmem.mem }

theorem met_BlockElementsStep :
    (let w := word 0x12 6 4 5 0
     issuesControl 0 w (blk 2) = true ∧ memWf (blk 2).mem = true ∧ rdOf w ≠ 0 ∧ reads (blk 2) 0 6 ≠ 0 ∧ reads (blk 0) 0 6 = 0 ∧
     issuesControl 0 w (blk 0) = true ∧
     (rdOf w ≠ raOf w ∧ rdOf w ≠ rbOf w ∧ raOf w ≠ rbOf w ∧ fld w 0 0 = 0) ∧
     ownAccess 0 (fld w 5 3) 0x100 1 false (blk 2) = true ∧ ownAccess 0 (fld w 8 6) 0x200 1 true (blk 2) = true ∧
     (nxt (exec (.blkMov 0 w 1 .clean) (blk 2))).byte 0x0300_0000_0200 = 1 ∧
     mget (scalar (nxt (exec (.blkMov 0 w 1 .clean) (blk 2))) 0).g 6 0 = 1) ∧
    (let w := word 0x12 6 1 5 0x200
     issuesControl 0 w (blk 1) = true ∧ fld w 0 0 = 0 ∧ fld w 5 3 = 0 ∧ rdOf w ≠ rbOf w ∧ raOf w ≠ rdOf w ∧ raOf w ≠ rbOf w ∧
     ownAccess 0 (fld w 8 6) 0x200 1 true (blk 1) = true) ∧
    (let w := word 0x12 6 4 5 0x400
     issuesControl 0 w (blk 1) = true ∧ ofLeBytes ((blk 1).bytes 0x0300_0000_0100 1) ≠ ofLeBytes ((blk 1).bytes 0x0300_0000_0200 1) ∧
     ofLeBytes ((blk 1).bytes 0x0300_0000_0101 1) = ofLeBytes ((blk 1).bytes 0x0300_0000_0201 1) ∧
     ownAccess 0 (fld w 8 6) 0x200 1 false (blk 1) = true) ∧
    (let w := word 0x12 6 4 1 0x600
     issuesControl 0 w (blk 1) = true ∧ fld w 0 0 = 0 ∧ fld w 8 6 = 0 ∧ rdOf w ≠ raOf w ∧ rbOf w ≠ rdOf w ∧ rbOf w ≠ raOf w ∧
     ofLeBytes ((blk 1).bytes 0x0300_0000_0100 1) = (reads (blk 1) 0 1).toNat % 2 ^ 8 ∧
     ofLeBytes ((blk 1).bytes 0x0300_0000_0101 1) ≠ (reads (blk 1) 0 1).toNat % 2 ^ 8) ∧
    (let w := word 0x12 6 4 5 0x801
     issuesControl 0 w (blk 1) = true ∧ rdOf w ≤ 30 ∧ rdOf w ≠ raOf w ∧ rdOf w ≠ rbOf w ∧ raOf w ≠ rbOf w ∧ rdOf w + 1 ≠ raOf w ∧
     rdOf w + 1 ≠ rbOf w) := by decide +kernel

theorem met_CoprocessorsCompute :
    (let s := st { sc0 with cp0 := some ⟨2, 0, [(7, 1)]⟩ }
     (let w := word 0x1C 0 2 1 0
      issues 0 w s = true ∧ rdOf w = 0 ∧ 1 ≤ (reads s 0 2).toNat % 128 ∧ (reads s 0 2).toNat % 128 ≤ 64 ∧ (reads s 0 1).toNat % 8 < 6) ∧
     (let w := word 0x1C 0 2 1 1; issues 0 w s = true ∧ (scalar s 0).cp0 = some ⟨2, 0, [(7, 1)]⟩ ∧ rdOf w = 0) ∧
     (let w := word 0x1C 6 0 0 3
      issues 0 w s = true ∧ rbOf w = 0 ∧ raOf w = 0 ∧ ([(7, 1)] : List (Word32 × Word32))[(reads s 0 0).toNat]? = some (7, 1) ∧
      ([(7, 1)] : List (Word32 × Word32)) = [] ++ [(7, 1)] ∧
      mget (scalar (nxt (exec (.tkRd 0 w) s)) 0).g 6 0 = 0x7_0000_0001)) ∧
    (let w := word 0x1D 6 1 0 0x10; issues 0 w (vst vregs []) = true ∧ isService 0 = false ∧ rbOf w = 0) := by decide +kernel

/-- 03 R161: 1.0 and 2.0 differ in 8 bits; the published check of CRC-32C. -/
theorem test_sketch : mget (scalar (nxt (exec (.skHam 0 (word 0x1D 6 1 2 0)) (vst vregs []))) 0).g 6 0 = 8 ∧
    crc32c 0xFFFFFFFF [0x31, 0x32, 0x33, 0x34, 0x35, 0x36, 0x37, 0x38, 0x39] ^^^ 0xFFFFFFFF = 0xE3069283 := by decide +kernel

/-- Operands at g4 and g5 (bytes 1 and 2; the first product is 1 × 1). -/
def macs : State := { st { sc0 with g := sc0.g } with mem := [(0x0300_0000_0100, 0xFF), (0x0300_0000_0200, 3)] }

set_option maxRecDepth 100000 in
theorem met_Mac2mAccumulates :
    (let w := word 0x13 3 4 5 (5 * 4)
     issues 0 w macs = true ∧ isService 0 = false ∧ fld w 0 0 = 0 ∧ fld w 11 11 = 0 ∧ fld w 4 2 = 5 ∧
     ownOperand 0 (fld w 10 8) 0x100 128 128 false macs = true ∧ ownOperand 0 (fld w 7 5) 0x200 128 128 false macs = true ∧
     lane 32 (vreg (nxt (exec (.mac2mVector 0 w (.clean, .clean) false) macs)) 0 3) 0 = 0xFFFF_FFFD ∧
     mget (scalar (nxt (exec (.mac2mVector 0 w (.clean, .clean) false) macs)) 0).g 4 0 = 0x180) ∧
    (let w := word 0x13 1 4 5 (0x800 + 2 * 4 + 2)
     issues 0 w macs = true ∧ fld w 0 0 = 0 ∧ fld w 11 11 = 1 ∧ fld w 26 23 = 0 ∧ fld w 4 2 = 2 ∧ (macs.core 0).matq = [] ∧
     (mget (macs.core 0).accs (fld w 22 22) {}).poison = 0 ∧ ownOperand 0 (fld w 10 8) 0x100 32 32 false macs = true ∧
     ownOperand 0 (fld w 7 5) 0x200 32 32 false macs = true ∧
     ((nxt (exec (.mac2mTile 0 w .clean .clean) macs)).core 0).wait = .mac ∧
     mget (mget ((nxt (exec (.tmmaExecute 0 false) (nxt (exec (.mac2mTile 0 w .clean .clean) macs)))).core 0).accs 1 {}).words 0 0 = 0xFFFF_FFFD) := by decide +kernel

/-! ## Tiles and the matrix unit -/

/-- Core 0 with tile 0 of 2 rows of 4 bytes, full, and tile 1 of 1 row of 4 bytes; rows in memory at g4 and g4 + 8. -/
def mst (q : List MatOp) : State :=
  { (core { run := .running, sc := { sc0 with g := sc0.g ++ [(7, 8)] }, matq := q,
            tiles := [(0, ⟨2, 4, [1, 2, 3, 4, 5, 6, 7, 0xFF], .full, false⟩), (1, ⟨1, 4, [1, 0, 0, 2], .full, false⟩)] }) with
    mem := [(0x0300_0000_0100, 9), (0x0300_0000_0108, 8)] }

set_option maxRecDepth 100000 in
theorem met_TilesLoadAndStore :
    (memWf (mst []).mem = true ∧ natBit ((mst []).core 0).tprog.toNat 31 = false ∧ ((mst []).core 0).matq = []) ∧
    (∀ f : Fin 4, let w := word 0x18 0 4 7 (f.val * 512)
      issues 0 w (mst []) = true ∧ fld w 26 26 = 0 ∧ fld w 3 0 = 0 ∧ fld w 11 9 = f.val ∧ fld w 5 4 = 0) ∧
    (let T := mget ((mst []).core 0).tiles 0 {}
     T.rows ≠ 0 ∧ T.st ≠ .landing ∧ T.st ≠ .empty ∧ T.poison = false ∧ T.rows * T.bpr ≤ T.data.length ∧ T.bpr % 2 ^ 0 = 0 ∧ T.bpr ≠ 0 ∧
     ∀ j : Fin 4, ownRange 0 0 (0x100 + 8 * j.val) T.bpr 4 false (mst []) = true ∧
       ownRange 0 0 (0x100 + 8 * j.val) T.bpr 4 true (mst []) = true ∧ ownRange 0 0 (0x100 + 8 * j.val) T.rows 1 false (mst []) = true) ∧
    (let bits := fun j : Nat => (nats 4 0 1).map (natBit (ofLeBytes ((mst []).bytes (0x0300_0000_0100 + 8 * j) (bitmapBytes 4))))
     ∀ j : Fin 2, ownRange 0 0 (0x100 + 8 * j.val) (bitmapBytes 4) 4 false (mst []) = true ∧
       ownRange 0 0 (0x100 + 8 * j.val) (bitmapBytes 4 + ((bits j).filter id).length) 4 false (mst []) = true) ∧
    (∀ f : Fin 2, let w := word 0x18 8 4 5 (f.val * 512)
      issues 0 w (mst []) = true ∧ fld w 25 22 = 8 ∧ (mget ((mst []).core 0).accs 0 {}).poison = 0 ∧
      ∀ j : Fin 32, ownRange 0 0 (0x100 + 0x200 * j.val) 128 4 (f.val == 1) (mst []) = true) := by decide +kernel

/-- 06 R228, R233: row 1 of a tld lies at g4 + 8; tst writes row 0 at g4. -/
theorem test_tld : (mget ((nxt (exec (.tld 0 (word 0x18 0 4 7 0) 2 .clean) (mst []))).core 0).tiles 0 {}).data = [9, 0, 0, 0, 8, 0, 0, 0] ∧
    (nxt (exec (.tst 0 (word 0x18 0 4 7 512) 2 .clean) (mst []))).bytes 0x0300_0000_0100 4 = [1, 2, 3, 4] := by decide +kernel

/-- An INT8 tmma of tiles 0 and 1 into accumulator 0. -/
def tmmaWord : Word32 := word 0x17 0 0 1 (2 * 32 + 2 * 4)

/-- One of the queue's entries. -/
def mop (m : MatWork) : MatOp := ⟨m, 64, 5⟩

/-- The value of a tcfg that shapes tile 2 to 3 rows of 8 bytes and selects profile 1. -/
def tcfgValue : Word64 := 0x0401_0000_0003_0008

theorem met_MatrixInstructionsIssue :
    (issues 0 tmmaWord (mst []) = true ∧ fld tmmaWord 11 8 = 0 ∧ fld tmmaWord 21 20 = 0 ∧ fld tmmaWord 16 15 = 0 ∧
      fld tmmaWord 26 24 = 0 ∧ tmmaFormats tmmaWord = true ∧ tmmaCheck tmmaWord ((mst []).core 0) = none) ∧
    (((mst []).core 0).matq.length < 4 ∧ 4 ≤ ((mst (List.replicate 4 (mop (.aclr 0)))).core 0).matq.length ∧
      issues 0 tmmaWord (mst (List.replicate 4 (mop (.aclr 0)))) = true) ∧
    (let w := word 0x17 1 0 0 0x100; issues 0 w (mst []) = true ∧ fld w 11 8 = 1 ∧ fld w 26 23 = 0 ∧ fld w 21 12 = 0 ∧ fld w 7 0 = 0) ∧
    (let w := word 0x17 0 0 0 0x203; issues 0 w (mst []) = true ∧ fld w 11 8 = 2 ∧ fld w 26 12 = 0) ∧
    (let w := word 0x17 1 3 2 0x400; issues 0 w (mst []) = true ∧ fld w 11 8 = 4 ∧ fld w 26 23 = 0 ∧ fld w 7 0 = 0) ∧
    (let w := word 0x17 3 1 2 0x300
     issues 0 w (mst []) = true ∧ fld w 11 8 = 3 ∧ fld w 21 18 = 0 ∧ fld w 7 0 = 0 ∧
     ((mst []).core 0).matq.any (fun m => m.acc == some (fld w 17 17)) = false ∧ (mget ((mst []).core 0).accs (fld w 17 17) {}).poison = 0) ∧
    (let w := word 0x17 6 0 0 0x500
     issues 0 w (mst []) = true ∧ fld w 11 8 = 5 ∧ fld w 21 20 = 0 ∧ fld w 16 12 = 0 ∧ (mget ((mst []).core 0).tiles (fld w 19 17) {}).st = .full) ∧
    (let w := word 0x17 6 0 0 0x600; issues 0 w (mst []) = true ∧ fld w 11 8 = 6 ∧ fld w 21 12 = 0 ∧ ((mst []).core 0).matq.length ≤ 4) ∧
    (let s := (mst []).updSc 0 (fun k => k.setG 8 tcfgValue)
     let v := tcfgValue.toNat
     issues 0 (word 0x17 0 8 0 0x700) s = true ∧ natBits v 55 51 = 0 ∧ natBits v 47 22 = 0 ∧ natBits v 15 7 = 0 ∧
     (s.core 0).matq = [] ∧ (s.core 0).landings = [] ∧ natBits v 21 16 = 3 ∧ natBits v 6 0 = 8 ∧ natBit v 58 = true ∧
     (mget ((nxt (exec (.tcfg 0 (word 0x17 0 8 0 0x700)) s)).core 0).tiles 2 {}).rows = 3) := by decide +kernel

set_option maxRecDepth 100000 in
theorem met_MatrixProductExact :
    let s := mst [mop (.tmma tmmaWord)]
    (s.core 0).matq = mop (.tmma tmmaWord) :: [] ∧ (mop (.tmma tmmaWord)).work = .tmma tmmaWord ∧ fld tmmaWord 7 5 = 2 ∧
    fld tmmaWord 4 2 = 2 ∧ fld tmmaWord 1 1 = 0 ∧ fld tmmaWord 0 0 = 0 ∧ fld tmmaWord 19 17 = 0 ∧ fld tmmaWord 14 12 = 1 ∧
    (∀ i : Fin 2, (mget (s.core 0).tiles i.val {}).st ≠ .landing ∧ (mget (s.core 0).tiles i.val {}).poison = false ∧
      (mget (s.core 0).tiles i.val {}).rows ≤ 32) := by decide +kernel

set_option maxRecDepth 100000 in
/-- 06 R247: row 1 of A (5, 6, 7, -1) with row 0 of B (1, 0, 0, 2) is 3. -/
theorem test_tmma : let t := nxt (exec (.tmmaExecute 0 false) (mst [mop (.tmma tmmaWord)]))
    mget (mget (t.core 0).accs 0 {}).words 32 0 = 3 ∧ mget (mget (t.core 0).accs 0 {}).words 0 0 = 9 := by decide +kernel

set_option maxRecDepth 100000 in
theorem met_MatrixQueueWork :
    (let s := (mst [mop (.trel 3)]).updCore 0 (fun k => { k with tiles := mput k.tiles 0 { mget k.tiles 0 {} with st := .landing } })
     (s.core 0).matq = mop (.trel 3) :: [] ∧ (mop (.trel 3)).tiles.any (fun i => (mget (s.core 0).tiles i {}).st == .landing) = true) ∧
    ((mop (.aclr 1)).work = .aclr 1 ∧ ((mst [mop (.aclr 1)]).core 0).matq = mop (.aclr 1) :: []) ∧
    ((mop (.trel 3)).tiles.any (fun i => (mget ((mst [mop (.trel 3)]).core 0).tiles i {}).st == .landing) = false ∧
      (mget ((nxt (exec (.tmmaExecute 0 false) (mst [mop (.trel 3)]))).core 0).tiles 0 {}).st = .empty) ∧
    ((mop (.tv2acc 0 31 7)).work = .tv2acc 0 31 7 ∧
      mget (mget ((nxt (exec (.tmmaExecute 0 false) (mst [mop (.tv2acc 0 31 7)]))).core 0).accs 0 {}).words 992 0 = 7) ∧
    (let w := word 0x18 0 4 7 (4 * 512)
     let s := mst []
     issues 0 w s = true ∧ fld w 26 26 = 0 ∧ fld w 11 9 = 4 ∧ fld w 5 4 = 0 ∧ fld w 3 0 = 0 ∧ fld w 25 22 < 8 ∧
     (mget (s.core 0).tiles 0 {}).rows ≠ 0 ∧ (mget (s.core 0).tiles 0 {}).st ≠ .landing ∧ (s.core 0).landings.length < 2 ∧
     ((scalar s 0).sgm (fld w 8 6)).cls ≠ 3 ∧ (∀ j : Fin 2, ownRange 0 0 (0x100 + 8 * j.val) 4 4 false s = true)) ∧
    (let s := (mst []).updCore 0 (fun k => { k with landings := [landing0] })
     takeFirst (fun l => l.tile == 0) (s.core 0).landings = some (landing0, []) ∧
     ownClean 0 0x0300_0000_0100 4 s = true ∧ ownClean 0 0x0300_0000_0108 4 s = true ∧
     (mget ((nxt (exec (.landingComplete 0 0 .clean) s)).core 0).tiles 0 {}).data = [9, 0, 0, 0, 8, 0, 0, 0]) := by decide +kernel

/-! ## Channels, datagrams, multicast and combines -/

/-- Core 0 with a channel unit, running a kernel in context 2 at stage 3, and g7 = v. -/
def chs (h : Chan) (v : Word64) : State :=
  { (core { run := .running, kernel := some (0, 0), chan := h,
            sc := { sc0 with ctx := 2, stage := 3, g := sc0.g ++ [(7, v)] } }) with mem := [(0x0300_0000_0200, 0x11)] }

/-- A word of major 0x19 (11 R393). -/
def cword (rd ra rb f low : Nat) : Word32 := word 0x19 rd ra rb (f * 256 + low)

/-- An open send channel to core 9, ring 1, of 256 bytes. -/
def chan9 : SendChan := { dst := 9, ring := 1, isOpen := true, size := 256 }

/-- A ring at offset 0x800 of 256 bytes, bound to channel 4 of core 9, with one entry. -/
def ring9 : RxRing := { base := 0x800, size := 256, bound := some (9, 4), entries := [⟨0x800, 3, false, false⟩], T := 24 }

theorem met_ChannelsOpenAndClose :
    (let w := cword 0 4 7 0 0
     let s := chs {} 0x12
     issues 0 w s = true ∧ isService 0 = false ∧ rdOf w = 0 ∧ fld w 7 3 = 0 ∧ fld w 11 8 = 0 ∧
     natBits (reads s 0 7).toNat 7 4 ≤ 8 ∧ ringAt s 0 2 = none ∧ xlatCore s 0 0 = 0 ∧
     checkOwn 0 (scalar s 0) 0 0x100 512 512 true ≠ none ∧ checkOwn 0 (scalar s 0) 0 0x100 256 256 true = none ∧
     (s.core 0).chan.rx.any (fun q => overlaps 0x100 256 q.2.base q.2.size) = false) ∧
    (let s := chs {} 0x02
     (reads s 0 7).toNat < 2 ^ 8 ∧ natBits (reads s 0 7).toNat 7 4 = 0 ∧
     ringAt (nxt (exec (.rxopen 0 (cword 0 4 7 0 0)) s)) 0 2 = some { base := 0x100, size := 256 }) ∧
    (let gb : Nat := 0x101 + 2 * 512 + 1152 * 65536
     natBit gb 8 = true ∧ natBits gb 15 12 = 0 ∧ gb < 2 ^ 27 ∧ natBits gb 11 9 = 2 ∧ 64 * 2 ^ natBits gb 11 9 ≤ 256 ∧ natBits gb 26 16 = 1152) ∧
    (let s := chs { rx := [(2, ring9)], tx := [(3, chan9)] } 2
     issues 0 (cword 0 7 0 1 0) s = true ∧ ringAt s 0 2 = some ring9 ∧ (reads s 0 7).toNat ≤ 16 ∧
     (nxt (exec (.rxclose 0 (cword 0 7 0 1 0)) s)).msgs = [⟨0, 9, .closeNotice 4⟩]) ∧
    (let s := chs { rx := [(2, ring9)], tx := [(3, chan9)] } 3
     issues 0 (cword 0 7 0 3 0) s = true ∧ chanAt s 0 3 = some chan9 ∧ chan9.isOpen = true ∧ chan9.broken = false ∧
     (nxt (exec (.chclose 0 (cword 0 7 0 3 0)) s)).msgs = [⟨0, 9, .endMarker 3 1⟩]) ∧
    (let s := chs {} 16
     issues 0 (cword 0 4 7 8 0) s = true ∧ (reads s 0 0).toNat = 0 ∧ (reads s 0 7).toNat = 16 ∧
     checkOwn 0 (scalar s 0) 0 0x100 (2 ^ (16 - 16 + 8)) (2 ^ (16 - 16 + 8)) true = none) ∧
    (let opening := fun p : Nat × SendChan => !p.2.isOpen && !p.2.broken && p.2.dst == 5 && p.2.ring == 1
     let w := cword 6 2 1 2 1
     (let s := chs {} 0
      issues 0 w s = true ∧ fld w 7 1 = 0 ∧ (reads s 0 (raOf w)).toNat = 5 ∧ (reads s 0 (rbOf w)).toNat = 1 ∧ xlatCore s 0 5 = 5 ∧
      (s.core 0).chan.tx.find? opening = none ∧ (s.core 0).chan.freeSend = some 0 ∧
      (nxt (exec (.chopen 0 w) s)).msgs = [⟨0, 5, .openReq 0 1 3 2⟩]) ∧
     (let s := chs { tx := [(4, { dst := 5, ring := 1, reply := some 0, size := 256 })] } 0
      (s.core 0).chan.tx.find? opening = some (4, { dst := 5, ring := 1, reply := some 0, size := 256 }) ∧
      mget (scalar (nxt (exec (.chopen 0 w) s)) 0).g 6 0 = 4) ∧
     (let s := chs { tx := [(4, { dst := 5, ring := 1, reply := some 3 })] } 0
      (s.core 0).chan.tx.find? opening = some (4, { dst := 5, ring := 1, reply := some 3 }) ∧ natBit w.toNat 0 = true ∧
      mget (scalar (nxt (exec (.chopen 0 w) s)) 0).g 6 0 = 0x8000_0000_0000_0003)) := by decide +kernel

/-- A message of 16 bytes from 0x200 at position 240 of channel 1. -/
theorem met_ChannelSendPlacesMessage :
    let q := { chan9 with T := 240, H := 0 }
    let s := chs { tx := [(1, q)] } 0x7_0001
    let w := cword 1 5 7 4 0
    issues 0 w s = true ∧ isService 0 = false ∧ fld w 7 3 = 0 ∧ (reads s 0 (rdOf w)).toNat = 1 ∧ chanAt s 0 1 = some q ∧ q.isOpen = true ∧
    q.broken = false ∧ natBits (reads s 0 7).toNat 8 0 = 1 ∧ natBits (reads s 0 7).toNat 15 9 = 0 ∧ 16 ≤ q.size ∧
    q.T % q.size + 16 ≤ q.size ∧ q.T + 16 - q.H ≤ q.size ∧ ownOperand 0 (fld w 2 0) 0x200 8 8 false s = true ∧
    (nxt (exec (.chsend 0 w .clean) s)).msgs.length = 1 ∧ (nxt (exec (.chsend 0 w .clean) s)).msgs.map Msg.dst = [9] ∧
    chanAt (nxt (exec (.chsend 0 w .clean) s)) 0 1 = some { q with T := 256, seq := 1 } := by decide +kernel

theorem met_ChannelReceiveReturns :
    (let s := chs { rx := [(2, ring9)] } 2
     let w := cword 6 7 0 5 0
     issues 0 w s = true ∧ (reads s 0 7).toNat ≤ 16 ∧ ringAt s 0 2 = some ring9 ∧ ring9.comb = false ∧ ring9.failed = false ∧
     rbOf w = 0 ∧ fld w 7 1 = 0 ∧ ring9.entries = ⟨0x800, 3, false, false⟩ :: [] ∧
     mget (scalar (nxt (exec (.chrecv 0 w) s)) 0).g 6 0 = 0x3_0000_0800) ∧
    (let e := fun m : Bool => chs { rx := [(2, { ring9 with entries := [], endMark := m })] } 2
     ringAt (e true) 0 2 = some { ring9 with entries := [], endMark := true } ∧
     ringAt (e false) 0 2 = some { ring9 with entries := [], endMark := false } ∧
     issues 0 (cword 6 7 0 5 1) (e false) = true ∧ natBit (cword 6 7 0 5 1).toNat 0 = true ∧ natBit (cword 6 7 0 5 0).toNat 0 = false ∧
     mget (scalar (nxt (exec (.chrecv 0 (cword 6 7 0 5 1)) (e false))) 0).g 6 0 = 0x8000_0000_0000_0000 ∧
     mget (scalar (nxt (exec (.chrecv 0 (cword 6 7 0 5 1)) (e true))) 0).g 6 0 = 0x4000_0000_0000_0000) ∧
    (let s := chs { rx := [(2, ring9)] } 2
     issues 0 (cword 0 7 0 6 0) s = true ∧ (nxt (exec (.chdone 0 (cword 0 7 0 6 0)) s)).msgs = [⟨0, 9, .space 4 24⟩]) ∧
    (let s := chs { rx := [(2, ring9)] } 7
     issues 0 (cword 6 7 0 7 1) s = true ∧ (reads s 0 7).toNat < 2 ^ 17 ∧ natBit 7 2 = true ∧ (ringOffer ring9 != .nothing) = true ∧
     mget (scalar (nxt (exec (.chsel 0 (cword 6 7 0 7 1)) s)) 0).g 6 0 = 2) ∧
    (let s := chs { rx := [(2, ring9)] } 3; issues 0 (cword 6 7 0 7 1) s = true ∧ ringAt s 0 0 = none ∧ ringAt s 0 1 = none) := by
  decide +kernel

/-- The descriptor of cores 0 and 1: columns 0-1, row 0, field 0. -/
def desc01 : Nat := 1 * 2 ^ 6 + 2 ^ 22

/-- A combine header of cores 0 and 1 to core 1: tag 0x21, FP32 sum of one word. -/
def combBytes : List Byte := leBytes 2 1 ++ leBytes 2 0x21 ++ [0, 0] ++ leBytes 2 1 ++ leBytes 8 0 ++ leBytes 8 desc01 ++ leBytes 8 3

set_option maxRecDepth 100000 in
theorem met_GroupSendsReachTargets :
    (let s := chs {} (BitVec.ofNat 64 (0x1001 + 0x5_0000_0000))
     let w := cword 6 5 7 9 0
     let gb := (reads s 0 7).toNat
     issues 0 w s = true ∧ isService 0 = false ∧ s.launches = [] ∧ fld w 7 3 = 0 ∧ natBit gb 11 = false ∧ natBits gb 31 21 = 0 ∧
     gb < 2 ^ 48 ∧ natBits gb 20 12 = 1 ∧ ownOperand 0 (fld w 2 0) 0x200 8 8 false s = true ∧ natBits gb 10 0 ≤ 1155 ∧
     (s.core 0).chan.dgRec = none ∧ [natBits gb 10 0] ≠ [] ∧ (nxt (exec (.dgsend 0 w .clean) s)).msgs.map Msg.dst = [1]) ∧
    (let r : DgRec := ⟨64, 5, [(1, some 0)]⟩
     let s := chs { dgRec := some r } (BitVec.ofNat 64 0x1001)
     (s.core 0).chan.dgRec = some r ∧ r.pc = (scalar s 0).pc ∧ r.handle = (scalar s 0).code.handle ∧
     r.targets.all (fun p => p.2.isSome) = true ∧
     ((nxt (exec (.dgsend 0 (cword 6 5 7 9 0) .clean) s)).core 0).chan.dgRec = none) ∧
    (let s := (chs {} (BitVec.ofNat 64 0x1000)).updSc 0 (fun k => k.setG 8 (BitVec.ofNat 64 desc01))
     let w := cword 8 5 7 0xA 0
     issues 0 w s = true ∧ natBits (reads s 0 7).toNat 10 0 = 0 ∧ descOk (reads s 0 8).toNat = true ∧ descCores (reads s 0 8).toNat = [0, 1]) ∧
    (let s := (chs {} (BitVec.ofNat 64 (0x300 + 8 * 2 ^ 20))).updSc 0 (fun k => k.setG 8 (BitVec.ofNat 64 desc01))
     let w := cword 8 5 7 0xB 0
     issues 0 w s = true ∧ (reads s 0 7).toNat < 2 ^ 33 ∧ natBits (reads s 0 7).toNat 32 20 = 8 ∧
     ownOperand 0 (fld w 2 0) 0x200 8 1 false s = true ∧ ((nxt (exec (.mcwr 0 w .clean) s)).core 0).unacked = 2) ∧
    (let s := (chs {} 0).putBytes 0x0300_0000_0200 (combBytes ++ leBytes 4 0x3F800000)
     let w := cword 0 5 0 0xC 0
     let h := (readCombHdr (s.bytes 0x0300_0000_0200 32) 2 false).1
     issues 0 w s = true ∧ rdOf w = 0 ∧ rbOf w = 0 ∧ fld w 7 3 = 0 ∧ (0x200 : Nat) % 32 = 0 ∧
     ownOperand 0 (fld w 2 0) 0x200 32 8 false s = true ∧ h.n = 1 ∧ h.size = 4 ∧ ownOperand 0 (fld w 2 0) 0x200 36 8 false s = true ∧
     combRefused h (readCombHdr (s.bytes 0x0300_0000_0200 32) 2 false).2 0 = false ∧
     (nxt (exec (.cbsend 0 w .clean) s)).combs.map (·.words) = [[0x3F800000]]) := by decide +kernel

/-- Core 1 with a channel unit, running context 2 at stage 5, and one message from core 0 on its way. -/
def arr1 (h : Chan) (m : MsgKind) : State :=
  { cores := [(1, { run := .running, kernel := some (0, 0), chan := h, sc := { sc0 with ctx := 2, stage := 5 } })], msgs := [⟨0, 1, m⟩] }

/-- A ring of core 1, bound to channel 4 of core 0. -/
def ring0 : RxRing := { base := 0x800, size := 256, bound := some (0, 4) }

theorem met_MessageArrivalsTakeEffect :
    (let s := arr1 { rx := [(1, { ring0 with bound := none })] } (.openReq 4 1 3 2)
     takeFirst (fun m : Msg => m.src == 0 && m.dst == 1) s.msgs = some (⟨0, 1, .openReq 4 1 3 2⟩, []) ∧ memWf s.mem = true ∧
     runsCtx s 1 2 = true ∧ 3 < (scalar s 1).stage.toNat ∧ ringAt s 1 1 = some { ring0 with bound := none } ∧ ring0.comb = false ∧
     ring0.endMark = false ∧ (nxt (exec (.openRequestArrival 0 ⟨1, .clean⟩) s)).msgs = [⟨1, 0, .openReply 4 0 256⟩]) ∧
    (let s := arr1 {} (.openReq 4 1 5 2)
     (scalar s 1).stage.toNat ≤ 5 ∧ (nxt (exec (.openRequestArrival 0 ⟨1, .clean⟩) s)).msgs = [⟨1, 0, .openReply 4 1 0⟩]) ∧
    (let s := arr1 { tx := [(4, { chan9 with dst := 0 })] } (.openReply 4 0 256)
     chanAt s 1 4 = some { chan9 with dst := 0 } ∧ chanAt (nxt (exec (.openReplyArrival 0 ⟨1, .clean⟩) s)) 1 4 = some { chan9 with dst := 0, reply := some 0 }) ∧
    (let s := arr1 { tx := [(4, { chan9 with dst := 0 })] } (.space 4 32)
     let t := nxt (exec (.spaceUpdateArrival 0 ⟨1, .poisoned 3 0x20⟩) s)
     chanAt t 1 4 = some { chan9 with dst := 0, H := 32 } ∧ t.get F.mshErrcnt_ue = 1 ∧ t.recs.map (fun r => (r.sev, r.op)) = [(2, 3)]) ∧
    (let s := arr1 { tx := [(4, { chan9 with dst := 0 })] } (.space 4 32)
     chanAt (nxt (exec (.spaceUpdateArrival 0 ⟨1, .clean⟩) s)) 1 4 = some { chan9 with dst := 0, H := 32 }) ∧
    (let s := arr1 { rx := [(1, ring0)] } (.endMarker 4 1)
     ringAt s 1 1 = some ring0 ∧ ringAt (nxt (exec (.endMarkerArrival 0 ⟨1, .clean⟩) s)) 1 1 = some { ring0 with endMark := true, bound := none }) ∧
    (let s := arr1 { tx := [(4, { chan9 with dst := 0 })] } (.closeNotice 4)
     chanAt (nxt (exec (.closeNoticeArrival 0 ⟨1, .clean⟩) s)) 1 4 = some { chan9 with dst := 0, broken := true }) ∧
    (let s := arr1 { rx := [(1, ring0)] } (.message 4 1 240 (List.replicate 16 1) false)
     ring0.failed = false ∧ ring0.base + 240 + 16 ≤ 0x10_0000 ∧
     (nxt (exec (.messageArrival 0 1 .clean) s)).bytes 0x0300_0020_08F0 16 = List.replicate 16 1) ∧
    (let s := arr1 {} (.message 4 1 240 (List.replicate 16 1) false)
     ringAt s 1 1 = none ∧ (nxt (exec (.messageArrival 0 1 .clean) s)).get F.mshDropCnt_ctx_drop = 1) ∧
    (let q : RxRing := { base := 0x800, size := 256, T := 240, H := 0 }
     let s := arr1 { rx := [(16, q)] } (.datagram 7 0x55 (leBytes 8 9) (some 2))
     dgAccepts s 0 1 (some 2) = true ∧ ringAt s 1 16 = some q ∧ q.T % q.size + 16 ≤ q.size ∧ q.T + 16 - q.H ≤ q.size ∧
     q.base + q.size ≤ 0x10_0000 ∧ (nxt (exec (.datagramArrival 0 1 .clean) s)).msgs = [⟨1, 0, .dgAnswer 0⟩]) ∧
    (let s := arr1 {} (.datagram 7 0x55 (leBytes 8 9) (some 2))
     ringAt s 1 16 = none ∧ (nxt (exec (.datagramArrival 0 1 .clean) s)).msgs = [⟨1, 0, .dgAnswer 2⟩]) ∧
    (let r : DgRec := ⟨64, 5, [(0, none)]⟩
     let s := arr1 { dgRec := some r } (.dgAnswer 0)
     (s.core 1).chan.dgRec = some r ∧
     ((nxt (exec (.datagramAnswerArrival 0 ⟨1, .clean⟩) s)).core 1).chan.dgRec = some ⟨64, 5, [(0, some 0)]⟩) := by decide +kernel

/-- A contribution of core 0 to core 1, and one of core 1. -/
def hdr0 : CombHdr :=
  { dest := 1, tag := 0x21, op := 0, ty := 1, det := false, d := 0, n := 1, ctx := 2,
    src := BitVec.ofNat 64 desc01, cmask := 3 }

set_option maxRecDepth 100000 in
theorem met_CombinesMergeAndDeliver :
    (let s := { arr1 {} (.dgAnswer 0) with mcs := [⟨0, 1, 0x300, [1, 2], 2, 0⟩] }
     takeFirst (fun m : McWrite => m.src == 0 && m.dst == 1) s.mcs = some (({ src := 0, dst := 1, off := 0x300, data := [1, 2], ctx := 2 } : McWrite), []) ∧ runsCtx s 1 2 = true ∧
     (granules 0x0300_0020_0300 2).all (fun g => decide (g ∉ s.bad)) = true ∧ runsCtx s 1 3 = false ∧
     (nxt (exec (.multicastWriteArrival 0 1 .clean {}) s)).bytes 0x0300_0020_0300 2 = [1, 2]) ∧
    (let s : State := { mcs := [⟨0, 1, 0x300, [1, 2], 2, 3⟩] }
     (takeFirst (fun m : McWrite => m.src == 0 && m.dst == 1) s.mcs).map (·.1.after) = some 3 ∧
     nxt (exec (.multicastWriteArrival 0 1 .clean {}) s) = s) ∧
    (let e : CombEntry := { hdr := hdr0, inputs := [(0, hdr0, [0x3F800000])], k := 3 }
     let s : State := { combs := [⟨0, 1, hdr0, [0x40000000]⟩], combEntries := [((1, 0), e)] }
     takeFirst (fun p : CombPkt => p.src == 0 && p.dst == 1) s.combs = some (⟨0, 1, hdr0, [0x40000000]⟩, []) ∧
     e.hdr.sameKey hdr0 = true ∧ hdr0.det = false ∧ (hdrMerge hdr0 hdr0).count < e.k ∧ e.hold ≠ 0 ∧
     (nxt (exec (.combineArrival 1 0 {}) s)).combEntries.map (fun p => p.2.inputs.map (·.2.2)) = [[[0x40400000]]]) ∧
    (let e : CombEntry := { hdr := hdr0, inputs := [(0, hdr0, [0x3F800000])], k := 2 }
     let s : State := { combEntries := [((1, 0), e)] }
     xlatCtx s hdr0.ctx.toNat hdr0.dest = 1 ∧ e.hdr.det = false ∧ (nxt (exec (.combineHoldExpiry 1 ⟨0, false⟩) s)).rounds.map (·.hdr.part) = [true]) ∧
    (let e : CombEntry := { hdr := { hdr0 with det := true }, inputs := [(0, { hdr0 with det := true }, [0x3F800000])], k := 2 }
     let s : State := { combEntries := [((1, 0), e)] }
     e.hdr.det = true ∧ (nxt (exec (.detWaitExpiry 1 ⟨0, false⟩) s)).rounds.map (·.hdr.orderLost) = [true]) ∧
    (let q : RxRing := { base := 0x800, size := 256, comb := true, slotBytes := 64, group := 2 }
     let h := { hdr0 with count := 2 }
     let s := { arr1 { rx := [(1, q)] } (.dgAnswer 0) with rounds := [⟨1, 1, h, [0x40400000]⟩] }
     takeFirst (fun p : CombPkt => p.dst == 1) s.rounds = some (⟨1, 1, h, [0x40400000]⟩, []) ∧ runsCtx s 1 h.ctx = true ∧
     ringAt s 1 (h.tag % 16) = some q ∧ h.members.length = q.group ∧ 4 * h.n ≤ q.slotBytes - 32 ∧ h.count = q.group ∧
     q.base + q.size ≤ 0x10_0000 ∧
     (ringAt (nxt (exec (.combineDelivery ⟨1, .clean⟩) s)) 1 1).map (fun r => r.slots.map (fun x => (x.1, x.2.ready))) = some [(2, true)]) := by
  decide +kernel

/-! ## Atomics, sync objects, fences, homes -/

/-- A word of major 0x1A or 0x1B with a function in [11:8] (12 R428, R438, R446, 08 R322). -/
def sword (major rd ra rb f low : Nat) : Word32 := word major rd ra rb (f * 256 + low)

theorem met_AtomicsUpdateLocation :
    (let w := sword 0x1A 2 4 3 9 0
     let s := padded
     let a := segAddr (scalar s 0) (fld w 4 2) (reads s 0 (raOf w)).toNat
     issues 0 w s = true ∧ memWf s.mem = true ∧ quiet 0 s = true ∧ fld w 1 0 = 0 ∧ inReserve a = false ∧
     checkAmo 0 (scalar s 0) (fld w 4 2) (reads s 0 (raOf w)).toNat 8 = none ∧ ownClean 0 a 8 s = true ∧
     s.get F.mirStat_state ≠ 3 ∧ s.get F.mirStat_state ≠ 4 ∧
     (nxt (exec (.amoAdd 0 w .clean) s)).bytes a 8 = leBytes 8 (2 ^ 64 - 7) ∧
     mget (scalar (nxt (exec (.amoMin 0 w .clean) s)) 0).g 2 0 = 0) ∧
    (let w := sword 0x1A 2 5 1 8 0
     let s := padded
     let a := segAddr (scalar s 0) (fld w 4 2) (reads s 0 (raOf w)).toNat
     issues 0 w s = true ∧ fld w 11 8 ≠ 9 ∧ inReserve a = false ∧
     checkAmo 0 (scalar s 0) (fld w 4 2) (reads s 0 (raOf w)).toNat 4 = none ∧ ownClean 0 a 4 s = true ∧
     (nxt (exec (.amoSwap 0 w .clean) s)).bytes a 4 = [1, 0, 0, 0]) ∧
    (let r : Resp := ⟨0, .amo 0 1 0, 0x0200_0000_0000, [0xFF, 0xFF, 0xFF, 0xFF], false, .near 0, 0⟩
     let s := { core { run := .running, sc := sc0, wait := .atomic 2 4 0 } with resps := [r] }
     (s.core 0).wait = .atomic 2 4 0 ∧ r.bad = false ∧
     takeFirst (fun r => respHere s 0 r && (match r.kind with | .amo _ _ _ => true | _ => false)) s.resps = some (r, []) ∧
     mget (scalar (nxt (exec (.atomicReturn 0) s)) 0).g 2 0 = sext 32 0xFFFFFFFF) := by decide +kernel

/-- Core 0 with identifier 5 naming object 9 with every permission. -/
def syn (kept : Option (Nat × Nat × Nat)) : State :=
  core { run := .running, sc := sc0, vtab := [(5, 0xF000_0009)], kept := kept }

theorem met_SyncObjectsCount :
    (let w := sword 0x1A 0 2 1 0 0
     let s := syn none
     issues 0 w s = true ∧ isService 0 = false ∧ fld w 1 0 = 0 ∧ (reads s 0 (raOf w)).toNat = 5 ∧ (reads s 0 (rbOf w)).toNat < 2 ^ 32 ∧
     natBit (mget (s.core 0).vtab 5 0).toNat 31 = true ∧ quiet 0 s = true ∧ rdOf w = 0 ∧ fld w 7 2 = 0 ∧
     natBit (mget (s.core 0).vtab 5 0).toNat 30 = true ∧ natBit (mget (s.core 0).vtab 5 0).toNat 29 = true ∧
     (nxt (exec (.sig 0 ⟨w, .clean⟩) s)).syncOps = [⟨0, 9, .sig 1, 5, false⟩] ∧ (nxt (exec (.dec 0 w) s)).syncOps = [⟨0, 9, .dec 1, 5, false⟩] ∧
     ((nxt (exec (.wait 0 w) s)).core 0).wait = .grant 0 0) ∧
    (let w := sword 0x1A 8 2 0 3 0
     let s := syn none
     issues 0 w s = true ∧ rbOf w = 0 ∧ fld w 7 2 = 0 ∧ natBit (mget (s.core 0).vtab 5 0).toNat 28 = true ∧
     ((nxt (exec (.sread 0 w) s)).core 0).wait = .sync 8 0) ∧
    (let w := sword 0x1A 8 2 1 1 4
     let s := syn none
     issues 0 w s = true ∧ fld w 7 2 = 1 ∧ fld w 1 0 = 0 ∧ ((nxt (exec (.wait 0 w) s)).core 0).wait = .sync 8 0) ∧
    (let w := sword 0x1A 0 2 1 1 0
     let s := syn (some (5, 9, 1))
     issues 0 w s = true ∧ (s.core 0).kept = some (5, 9, 1) ∧ (s.core 0).deferredOvf = false ∧
     ((nxt (exec (.wait 0 w) s)).core 0).kept = none) := by decide +kernel

theorem met_SyncObjectsCount_arrivals :
    (let o : SyncOp := ⟨3, 9, .sig 1, 5, false⟩
     let s := { regs [(F.synCnt_count, 9, 2 ^ 31 - 2)] {} with syncOps := [o] }
     takeFirst (fun o => o.agent == 3 && o.obj == 9) s.syncOps = some (o, []) ∧ s.get F.synCnt_count 9 + 1 < 2 ^ 31 ∧
     mget s.waiters 9 [] = [] ∧ (nxt (exec (.syncOpArrival 9 [⟨3, .clean⟩]) s)).get F.synCnt_count 9 = 2 ^ 31 - 1) ∧
    (let o : SyncOp := ⟨3, 9, .sig 1, 5, false⟩
     let s := { regs [(F.synCnt_count, 9, 2 ^ 31 - 1)] {} with syncOps := [o] }
     2 ^ 31 ≤ s.get F.synCnt_count 9 + 1 ∧ (nxt (exec (.syncOpArrival 9 [⟨3, .clean⟩]) s)).syncAns = [⟨3, 9, .sig 1, 0, true, 5, .used, false⟩]) ∧
    (let o : SyncOp := ⟨3, 9, .dec 2, 5, false⟩
     let s := { regs [(F.synCnt_count, 9, 2)] {} with syncOps := [o] }
     takeFirst (fun o => o.agent == 3 && o.obj == 9) s.syncOps = some (o, []) ∧ 2 ≤ s.get F.synCnt_count 9 ∧
     (nxt (exec (.syncOpArrival 9 [⟨3, .clean⟩]) s)).get F.synCnt_count 9 = 0) ∧
    (let o : SyncOp := ⟨3, 9, .wait 3 false, 5, false⟩
     let s := { regs [(F.synCnt_count, 9, 2)] {} with syncOps := [o] }
     takeFirst (fun o => o.agent == 3 && o.obj == 9) s.syncOps = some (o, []) ∧
     mget (nxt (exec (.syncOpArrival 9 [⟨3, .clean⟩]) s)).waiters 9 [] = [(3, 3, 5)] ∧
     (nxt (exec (.syncOpArrival 9 [⟨3, .clean⟩]) (s.set F.synCnt_count 3 9))).syncAns = [⟨3, 9, .wait 3 false, 1, false, 5, .used, false⟩]) ∧
    (let o : SyncOp := ⟨3, 9, .read, 5, false⟩
     let s := { regs [(F.synCnt_count, 9, 2)] {} with syncOps := [o] }
     takeFirst (fun o => o.agent == 3 && o.obj == 9) s.syncOps = some (o, []) ∧
     (nxt (exec (.syncOpArrival 9 [⟨3, .clean⟩]) s)).syncAns = [⟨3, 9, .read, 2, false, 5, .used, false⟩]) ∧
    (let r : SyncAns := ⟨0, 9, .read, 2, false, 5, .used, false⟩
     let s := { core { run := .running, sc := sc0, wait := .sync 8 0 } with syncAns := [r] }
     (s.core 0).wait = .sync 8 0 ∧ r.kind = .read ∧ r.err = false ∧
     takeFirst (fun r => r.agent == 0 && (r.err || (match r.kind with | .wait _ false => false | _ => true))) s.syncAns =
       some (r, []) ∧ mget (scalar (nxt (exec (.syncAnswerArrival ⟨0, .clean⟩) s)) 0).g 8 0 = 2) ∧
    (let r : SyncAns := ⟨0, 9, .wait 3 false, 1, false, 5, .used, false⟩
     let s := { core { run := .running, sc := sc0, wait := .grant 0 0 } with syncAns := [r] }
     takeFirst (fun r => r.agent == 0 && r.isGrant) s.syncAns =
       some (r, []) ∧ (s.core 0).wait = .grant 0 0 ∧ ((nxt (exec (.syncGrantArrival ⟨0, .clean⟩) s)).core 0).wait = .none) ∧
    (let r : SyncAns := ⟨0, 9, .wait 3 false, 1, false, 5, .kept, false⟩
     let s := { core { run := .running, sc := sc0, kernel := some (0, 0) } with syncAns := [r] }
     r.kind = .wait 3 false ∧ r.fate = .kept ∧ takeFirst (fun r => r.agent == 0 && r.isGrant) s.syncAns = some (r, []) ∧
     ((nxt (exec (.syncGrantArrival ⟨0, .clean⟩) s)).core 0).kept = some (5, 9, 3)) ∧
    (let r : SyncAns := ⟨0, 9, .wait 3 false, 1, false, 5, .returned, false⟩
     let s := { core { run := .running, sc := sc0 } with syncAns := [r] }
     r.fate = .returned ∧ (nxt (exec (.syncGrantArrival ⟨0, .clean⟩) s)).syncOps = [⟨0, 9, .sig 3, 0, false⟩]) := by decide +kernel

/-- Core 0 with a clean line of near memory held, and segment 1 over near memory. -/
def cached : State :=
  core { run := .running,
         sc := { sc0 with seg := [(0, pad0), (1, ⟨0x0200_0000_0000, 0x1000, 1, true, true⟩)] },
         dcache := { main := [(4 * cacheSet (0x0200_0000_0100 / 64), ⟨0x0200_0000_0100 / 64, List.replicate 64 7, false, [], false⟩)] } }

theorem met_FencesAndCachesActOnLines :
    (let w := sword 0x1B 0 0 0 8 0
     let s := cached
     issues 0 w s = true ∧ quiet 0 s = true ∧ fld w 26 12 = 0 ∧ fld w 7 6 = 0 ∧ fld w 5 5 = 0 ∧ fld w 1 0 = 0 ∧
     nxt (exec (.fenceRel 0 ⟨w, .clean⟩) s) = retired 0 s) ∧
    (let w := sword 0x1B 0 0 0 9 2
     issues 0 w padded = true ∧ quiet 0 padded = true ∧ fld w 1 0 = 2 ∧ (padded.core 0).dcache.lines = [] ∧
     ((nxt (exec (.fenceAcq 0 ⟨w, .clean⟩) padded)).core 0).wait = .none) ∧
    (let w := sword 0x1B 0 4 0 0 1
     let s := cached
     let o := (reads s 0 (raOf w)).toNat
     issues 0 w s = true ∧ rdOf w = 0 ∧ rbOf w = 0 ∧ fld w 7 3 = 0 ∧ ((scalar s 0).sgm (fld w 2 0)).cls ≠ 0 ∧
     checkSeg (scalar s 0) (fld w 2 0) o 1 1 true = none ∧ checkSeg (scalar s 0) (fld w 2 0) o 1 1 false = none ∧
     (s.core 0).maint = [] ∧ ((s.core 0).dcache.find (segAddr (scalar s 0) (fld w 2 0) o / 64)).isSome = true ∧
     ((nxt (exec (.dcInv 0 w) s)).core 0).dcache.lines = [] ∧
     (nxt (exec (.dcClean 0 ⟨(sword 0x1B 0 4 0 1 1), .clean⟩) s)).cores.map (fun p => p.2.dcache.lines.length) = [1] ∧
     ((nxt (exec (.dcFlush 0 ⟨(sword 0x1B 0 4 0 2 1), .clean⟩) s)).core 0).dcache.lines = [] ∧
     nxt (exec (.pf 0 (sword 0x1B 0 4 0 5 1)) s) = retired 0 s) ∧
    (let w := sword 0x1B 0 4 0 1 0
     let s := cached
     ((scalar s 0).sgm (fld w 2 0)).cls = 0 ∧ checkSeg (scalar s 0) (fld w 2 0) (reads s 0 (raOf w)).toNat 1 1 false = none ∧
     nxt (exec (.dcClean 0 ⟨w, .clean⟩) s) = retired 0 s) ∧
    (let w := sword 0x1B 0 0 0 3 2
     let s := cached
     issues 0 w s = true ∧ fld w 26 12 = 0 ∧ fld w 7 2 = 0 ∧ fld w 1 0 = 2 ∧
     ((nxt (exec (.dcAll 0 ⟨w, .clean⟩) s)).core 0).dcache.lines = []) ∧
    (let w := sword 0x1B 0 0 0 4 0
     issues 0 w cached = true ∧ fld w 7 0 = 0 ∧ ((nxt (exec (.icAll 0 w) cached)).core 0).icache.lines = []):= by decide +kernel

theorem met_FencesAndCachesActOnLines_arrivals :
    (let l := 0x0200_0000_0100 / 64
     let r : Resp := ⟨0, .fill, 64 * l, List.replicate 64 7, false, .near 0, 0⟩
     let s := { core { run := .running, sc := sc0, wait := .retry, dcache := { miss := [⟨l, [], 1, false, false, false, false⟩] } } with resps := [r] }
     takeFirst (fun r => respHere s 0 r && r.kind == .fill && r.addr == 64 * l) s.resps = some (r, []) ∧
     (s.core 0).dcache.main = [] ∧ (s.core 0).ending = none ∧ (s.core 0).wait = .retry ∧
     ((nxt (exec (.cacheFillArrival 0 (BitVec.ofNat 42 l) ⟨false, .clean⟩) s)).core 0).dcache.main.map Prod.snd = [⟨l, r.data, false, [], false⟩]) ∧
    (let s := { core { run := .running, sc := sc0, unacked := 2 } with acks := [⟨0, false, .spad 3, none, 0⟩] }
     takeFirst (fun x => ackHere s 0 x) s.acks = some (⟨0, false, .spad 3, none, 0⟩, []) ∧ (s.core 0).ending = none ∧ (s.core 0).wait = .none ∧
     ((nxt (exec (.writeAckArrival 0) s)).core 0).unacked = 1 ∧ ((nxt (exec (.writeAckArrival 0) s)).core 0).deferredUe = true) ∧
    (let s : State := { sweep := [(3, 8191)], bad := [0x0300_0060_0000] }
     let row := mget s.sweep 3 0
     s.bad.all (fun g => decide (g < ownBase 3 + row * 128 ∨ ownBase 3 + row * 128 + 128 ≤ g)) = true ∧ row < 8192 ∧
     mget (nxt (exec (.sweeperRead 3 []) s)).sweep 3 7 = 0) := by decide +kernel

/-- A request of core 1 for 8 bytes at a home. -/
def home1 (h : Home) (k : ReqKind) (a : Nat) (d : List Byte) : State :=
  { regs [(F.fmcStat_state, 0, 3)] {} with
    hearth := { onDieFilled := true, nearFilled := true }, mem := [(a, 5)], reqs := [{ src := 1, home := h, kind := k, addr := a, n := 8, data := d, trusted := false }] }

/-- What a request that its home serves meets. -/
def atHome (h : Home) (a : Nat) (s : State) : Bool :=
  memWf s.mem && homeServes s h a && !mcFirst h 1 s && decide (homeOf s a = h) && !inReserve a && !homeDead s a && decide (s.get F.mirStat_state ≠ 3) &&
  decide (s.get F.mirStat_state ≠ 4) && (granules a 8).all (fun g => decide (g ∉ s.bad)) &&
  (List.range 8).all (fun j => decide (sliced (a + j) = sliced a + j ∧ regionOf (sliced (a + j)) = regionOf (sliced a))) &&
  decide (takeFirst (fun r => r.src == 1 && r.home == h) s.reqs = s.reqs.head?.map (fun r => (r, [])))

theorem met_HomesServeRequests :
    (let s := home1 (.spad 3) .read 0x0300_0060_0000 []
     atHome (.spad 3) 0x0300_0060_0000 s = true ∧
     (nxt (exec (.scratchpadRemoteAccess 3 1 {}) s)).resps.map (·.data) = [[5, 0, 0, 0, 0, 0, 0, 0]]) ∧
    (let s := home1 (.near 0) .write 0x0200_0000_0000 (leBytes 8 0x77)
     atHome (.near 0) 0x0200_0000_0000 s = true ∧
     (nxt (exec (.nearMemoryRequest 0 1 {}) s)).mem = [(0x0200_0000_0000, 0x77)] ∧
     (nxt (exec (.nearMemoryRequest 0 1 {}) s)).acks = [⟨1, true, .near 0, none, 0⟩]) ∧
    (let s := home1 (.far 0) (.amo 0 9 0) 0 []
     atHome (.far 0) 0 s = true ∧ (nxt (exec (.farMemoryRequest 0 1 {}) s)).mem = [(0, 14)]) := by decide +kernel

/-! ## The memories' upkeep -/

theorem met_CalibrationAndRepairRun :
    (let s := regs [(F.fmcStat_state, 7, 3)] {}
     portState s 7 = 3 ∧ (calOf (nxt (exec (.calibrationDue 7 true) s)) 7).slices = 8 ∧
     (calOf (nxt (exec (.calibrationDue 7 false) s)) 7).osc = true) ∧
    (let s : State := { regs [(F.fmcStat_state, 7, 3)] {} with upkeep := { cal := [(7, { osc := true, oscLate := true, slices := 1 })] } }
     portState s 7 = 3 ∧ (calOf s 7).osc = true ∧ 0 < (calOf s 7).slices ∧
     (∀ q, q < 8 → (calOf s q).running = false) ∧ engineElsewhere s 7 = false ∧ sliceMayStart s 7 = true ∧
     calOf (nxt (exec (.oscTracking 7 true) s)) 7 = { slices := 1, adjusted := 1 } ∧
     sliceMayStart (nxt (exec (.retrainSlice 7) s)) 7 = false ∧
     (calOf (nxt (exec (.retrainSlice 7) s)) 7).running = true ∧
     (calOf (nxt (exec (.calDeadlineExpiry 7 true) s)) 7).late = true ∧
     (nxt (exec (.calDeadlineExpiry 7 false) s)).flag F.fmcStat_cal_overdue 7 = true) ∧
    (let s : State := { regs [(F.fmcStat_state, 7, 3)] {} with upkeep := { cal := [(7, { slices := 1, late := true, running := true })] } }
     (calOf s 7).running = true ∧ 0 < (calOf s 7).slices ∧ calOf (nxt (exec (.retrainSliceEnd 7 false) s)) 7 = {} ∧
     (nxt (exec (.retrainSliceEnd 7 false) s)).get F.fmcCalStat_retrains 7 = 1) ∧
    (let v : Word64 := BitVec.ofNat 64 (3 * 2 ^ 20 + 1023 + 2 ^ 25)
     let s : State := { upkeep := { spares := [(16 * 5 + 3, 7)], fuses := [(dramDie 5, 511)] } }
     s.flag F.nmcRepair_go 5 = false ∧ natBit v.toNat 24 = false ∧ natBits v.toNat 17 0 ≤ 1023 ∧
     mget s.upkeep.spares (16 * 5 + natBits v.toNat 23 20) 0 < 8 ∧ natBit v.toNat 25 = true ∧ mget s.upkeep.fuses (dramDie 5) 0 < 512 ∧
     (nxt (exec (.nmcRepairGo 5 v) s)).get F.nmcRepair_status 5 = 1) ∧
    (let s := regs [(F.nmcRepair_status, 5, 1), (F.nmcRepair_go, 5, 1), (F.nmcStat_repairing, 5, 1), (F.nmcRepair_hard, 5, 1), (F.nmcRepair_row, 5, 1023)] {}
     s.flag F.nmcRepair_go 5 = true ∧ s.flag F.nmcStat_repairing 5 = true ∧
     (nxt (exec (.nmcRepairGo 5 0) s)).get F.nmcRepair_status 5 = 4 ∧
     (nxt (exec (.nearRepairDone 5) s)).get F.nmcRepair_status 5 = 2 ∧
     mget (nxt (exec (.nearRepairDone 5) s)).upkeep.spares 80 0 = 1 ∧ (nxt (exec (.nearRepairDone 5) s)).recs.map (·.op) = [0x60]) ∧
    (let v : Word64 := BitVec.ofNat 64 (196607 + 2 ^ 24 + 5 * 2 ^ 20)
     let s : State := {}
     s.flag F.fmcRepair_go 31 = false ∧ natBits v.toNat 17 0 ≤ 196607 ∧
     (nxt (exec (.fmcRepairGo 31 v) s)).get F.klnRepair_pend = 2 ^ 31 ∧
     (nxt (exec .repairGrant s)).flag F.klnRepair_grant = true) ∧
    (let s : State := { regs [(F.fmcStat_state, 31, 5), (F.fmcRepair_go, 31, 1)] {} with upkeep := { holds := [31] } }
     31 ∈ s.upkeep.holds ∧ portState (nxt (exec (.farRepairDone 31 true) s)) 31 = 3 ∧
     (nxt (exec (.farRepairDone 31 false) s)).get F.fmcRepair_status 31 = 3) := by decide +kernel

theorem met_FillsAndScrubsRun :
    (let s : State := { mem := [(0, 1), (0x0200_0000_0000, 2), (0x0300_0000_0000, 3)], bad := [0x0300_0000_0100], hearth := { rails := 6 } }
     railsUp s = true ∧ s.hearth.onDieFilled = false ∧ s.hearth.nearFilled = false ∧
     (nxt (exec .onDieFillDone s)).mem = [(0, 1), (0x0200_0000_0000, 2)] ∧ (nxt (exec .onDieFillDone s)).bad = [] ∧
     (nxt (exec .nearFillDone s)).mem = [(0, 1), (0x0300_0000_0000, 3)]) ∧
    (let l : Late := { agent := 1332, unit := kilnUnit, told := false, addr := 0x0200_0000_0040, data := [9, 8] }
     let s : State := { mem := [(0x0200_0000_0000, 2)], hearth := { rails := 6 }, upkeep := { late := [l] } }
     let filled : State := { s with hearth := { s.hearth with nearFilled := true } }
     railsUp s = true ∧ s.upkeep.late = [l] ∧ s.pubs = [] ∧ rangeServes filled l.addr 2 = true ∧ homeDead s l.addr = false ∧
     inReserve l.addr = false ∧ regionOf (sliced l.addr) = .near ∧ s.bad = [] ∧ memWf s.mem = true ∧
     (nxt (exec .nearFillDone s)).upkeep.late = [] ∧
     (nxt (exec .nearFillDone s)).mem = [(0x0200_0000_0040, 9), (0x0200_0000_0041, 8)]) ∧
    (let v : Word32 := BitVec.ofNat 32 (2 * 256 + 45)
     let s : State := {}
     s.flag F.fmcMap_lock = false ∧ natBits v.toNat 9 8 ≠ 3 ∧ natBits v.toNat 5 0 ≤ 45 ∧
     portState (nxt (exec (.fmcMapStart v) s)) 31 = 1 ∧ (nxt (exec (.fmcMapStart v) s)).get F.fmcMap_local_gib = 45) ∧
    (let s := regs [(F.fmcStat_state, 2, 1)] {}
     portState s 2 = 1 ∧ portState (nxt (exec (.farTrainingDone 2 true) s)) 2 = 2 ∧ s.queues = [] ∧ mirState s ≠ 10 ∧
     portState (nxt (exec (.farTrainingDone 2 false) s)) 2 = 4 ∧ mirState (nxt (exec (.farTrainingDone 2 false) s)) = 10) ∧
    (let s : State := { regs [(F.fmcStat_state, 0, 2)] {} with mem := [(0, 7), (256, 8)] }
     portState s 0 = 2 ∧ portState (nxt (exec (.farFillDone 0) s)) 0 = 3 ∧ (nxt (exec (.farFillDone 0) s)).mem = [(256, 8)] ∧
     portFailed (nxt (exec (.farChannelFail 0) s)) 0 = true) ∧
    (let s := regs [(F.fmcStat_state, 0, 3), (F.fmcScrubCtl_en, 0, 1), (F.fmcScrubStat_pos, 0, farGroups - 1)] {}
     farMode s 0 = 1 ∧ groupHeld s 0 = false ∧ s.get F.fmcScrubStat_pos < farGroups ∧
     (List.range 15).all (fun k => decide (findOf ([] : List (Fin 15 × Ecc)) k = .clean)) = true ∧
     (nxt (exec (.farScrubGroup 0 []) s)).get F.fmcScrubStat_pos = 0 ∧ (nxt (exec (.farScrubGroup 0 []) s)).get F.fmcScrubLap_laps = 1) ∧
    (let s : State := { regs [(F.nmcScrubCtl_en, 1, 1), (F.nmcScrubStat_pos, 1, 17)] {} with hearth := { nearFilled := true } }
     nearMode s 1 = 1 ∧ s.flag F.nmcStat_repairing 1 = false ∧ s.bad = [] ∧
     (List.range 64).all (fun k => decide (findOf ([] : List (Fin 64 × Ecc)) k = .clean)) = true ∧
     (nxt (exec (.nearScrubRow 1 []) s)).get F.nmcScrubStat_pos 1 = 18) := by decide +kernel

/-! ## The tick and the queues -/

/-- Ticks from the internal source, queue 3 enabled with its doorbell at 2, and ring 0 of its context with room. -/
def kiln (l : CmdList) (more : List (Fld × Nat × Nat)) : State :=
  { regs ([(F.klnFrameCtl_tick_en, 0, 1), (F.klnFrameCtl_src, 0, 0), (F.klnQctl_en, 3, 1), (F.klnQctl_size_log2, 3, 4),
           (F.klnQbase_base, 3, 0x2000_0000), (F.engDbTail_tail, 3, 2), (F.klnCrctl_en, 0, 1), (F.klnCrctl_owner, 0, 3),
           (F.klnCrctl_size_log2, 0, 6), (F.klnCrbase_base, 0, 0x2000_0010)] ++ more) {} with
    queues := [(3, { fetch := 2, lists := [l] })], hearth := { onDieFilled := true, nearFilled := true } }

/-- A list of one NOP for the next tick. -/
def list0 : CmdList := { start := 0, count := 1, next := true }

/-- A cold state whose source is the sync input or the mirror, in the middle of a period. -/
def sourced (src clk : Nat) (k : Kiln) : State :=
  { regs [(F.klnFrameCtl_tick_en, 0, 1), (F.klnFrameCtl_src, 0, src), (F.klnFrameCtl_win, 0, 100)] {} with clk := clk, kiln := k }

set_option maxRecDepth 100000 in
theorem met_TicksFireAndOverrun :
    (let s := kiln list0 []
     s.flag F.klnFrameCtl_tick_en = true ∧ s.get F.klnFrameCtl_src = 0 ∧ s.queues = [(3, { fetch := 2, lists := [list0] })] ∧
     list0.ended = none ∧ list0.fired = none ∧ list0.reportOnly = false ∧ s.flag F.klnQctl_en 3 = true ∧ mirState s ≤ 5 ∧
     isPrimary s = false ∧ s.get F.klnThrottle_host = 0 ∧ s.flag F.hrtStat_req38 = false ∧ s.get F.klnThrottle_cone = 0 ∧
     eligible s 3 list0 = true ∧ list0.cring < 64 ∧ ringOwned s 0 3 = true ∧ ringRoom s 0 = true ∧
     (nxt (exec (.kilnTick {}) s)).queue 3 = { fetch := 2, lists := [{ list0 with fired := some 1, left := 1 }] }) ∧
    (let l := { list0 with fired := some 0, left := 1 }
     let s := kiln l [(F.klnQctl_policy, 3, 1)]
     l.ended = none ∧ l.recording = false ∧ l.out = false ∧ s.flag F.klnQctl_policy 3 = true ∧ l.busy = false ∧ l.holds = false ∧
     l.status = 0 ∧ l.idx < l.count ∧ s.launches = [] ∧ s.swath = none ∧
     ((nxt (exec (.kilnTick {}) s)).queue 3).lists.map (fun l => (l.status, l.ended)) = [(1, some 1)] ∧
     (nxt (exec (.kilnTick {}) (kiln l []))).flag F.klnQstat_overrun 3 = true) := by decide +kernel

theorem met_TicksFireAndOverrun_source :
    (let s := sourced 2 (160 * 1700) { acq := true }
     s.get F.klnFrameCtl_src = 2 ∧ s.kiln.acq = true ∧ s.kiln.adopt = false ∧ s.kiln.period * 1700 ≤ elapsed s ∧
     (nxt (exec (.frameSyncEdge {}) s)).frame = 1) ∧
    (let s := sourced 1 (160 * 1700 - 1) { acq := true }
     s.get F.klnFrameCtl_src = 1 ∧ s.kiln.acq = true ∧ elapsed s < s.kiln.period * 1700 ∧
     (nxt (exec (.fsync 5 0 {}) s)).frame = 0) ∧
    (let s := sourced 2 (160 * 1700 - 1700) { inWin := 3 }
     s.kiln.acq = false ∧ s.kiln.period * 1700 ≤ elapsed s + s.get F.klnFrameCtl_win * 17 ∧
     (nxt (exec (.frameSyncEdge {}) s)).flag F.klnFrameStat_locked = true) ∧
    (let s := sourced 2 (160 * 1700 - 1701) {}
     s.kiln.acq = false ∧ elapsed s + s.get F.klnFrameCtl_win * 17 < s.kiln.period * 1700 ∧
     (nxt (exec (.frameSyncEdge {}) s)).frame = 0) ∧
    (let s := sourced 1 (160 * 1700) { acq := true, adopt := true }
     s.get F.klnFrameCtl_src = 1 ∧ s.kiln.adopt = true ∧ s.kiln.period * 1700 ≤ elapsed s ∧
     (nxt (exec (.fsync 77 0 {}) s)).frame = 77) ∧
    (let s := sourced 1 (160 * 1700 + 1701) { acqMiss := 2 }
     s.get F.klnFrameCtl_src ≠ 0 ∧ s.kiln.acq = false ∧ (nxt (exec (.syncWindowExpiry {}) s)).kiln.acq = true ∧
     (nxt (exec (.syncWindowExpiry {}) s)).frame = 1) ∧
    (let s := sourced 1 (320 * 1700) { acq := true, acqMiss := 2 }
     s.kiln.acq = true ∧ s.kiln.acqLost = false ∧ (nxt (exec (.acquisitionTimeout {}) s)).flag F.klnEvtStat_sync_lost = true) := by
  decide +kernel

theorem met_TicksFireAndOverrun_control :
    (let v : Word32 := BitVec.ofNat 32 (2 ^ 31 + 2 * 2 ^ 26 + 40)
     40 ≤ natBits v.toNat 10 0 ∧ natBits v.toNat 10 0 ≤ 2000 ∧ natBits v.toNat 27 26 ≠ 3 ∧
     natBits v.toNat 24 16 * 40 ≤ natBits v.toNat 10 0 * 1000 ∧ (nxt (exec (.frameCtlWrite v) {})).kiln.acq = true) ∧
    (natBits (BitVec.ofNat 32 2001 : Word32).toNat 10 0 = 2001 ∧
     (nxt (exec (.frameCtlWrite 2001) {})).flag F.klnEvtStat_cfg_err = true) ∧
    (let l := { list0 with fired := some 0, aborting := true }
     let x : Launch := { queue := 3, start := 0, idx := 0, cores := [8], left := [8], started := true }
     let s := { kiln l [] with launches := [x], cores := [(8, { run := .running })] }
     engineOf 3 = 0 ∧ (s.queue 3).lists.find? (fun l => l.live && l.aborting) = some l ∧ s.launchesOf 3 0 = [x] ∧ x.pairs = [] ∧
     (s.core 8).ending = none ∧ ((nxt (exec (.abortGraceExpiry 3) s)).core 8).run = .stopped) := by decide +kernel

/-- A header of one command for the next frame (02 R80). -/
def header0 : List Byte := [1, 1, 2, 0] ++ leBytes 2 1 ++ List.replicate 10 0 ++ leBytes 8 77 ++ List.replicate 40 0

theorem met_QueuesAndRingsRegisters :
    (let v : Word32 := BitVec.ofNat 32 (2 ^ 31 + 2 ^ 30 + 4)
     let s := regs [(F.klnQbase_base, 3, 0x2000_0000)] {}
     s.flag F.klnQctl_en 3 = false ∧ natBit v.toNat 31 = true ∧ natBits v.toNat 4 0 = 4 ∧
     placedOk (s.get F.klnQbase_base 3 * 4096) (64 * 2 ^ 4) = true ∧ (nxt (exec (.queueEnable 3 v) s)).flag F.klnQctl_policy 3 = true) ∧
    (let s := kiln list0 []
     s.flag F.klnQctl_en 3 = true ∧ ((nxt (exec (.queueDisable 3) s)).queue 3).lists = [] ∧
     countDiff 16 (s.get F.engDbHead_head 3) ≤ 2 ^ s.get F.klnQctl_size_log2 3 ∧ atLeast 16 (s.get F.engDbHead_head 3) = true ∧
     atLeast 16 (s.get F.engDbTail_tail 3) = true ∧ (nxt (exec (.doorbellWrite 3 16) s)).get F.engDbTail_tail 3 = 16 ∧
     (nxt (exec (.doorbellWrite 3 1) s)).flag F.klnQstat_db_err 3 = true) ∧
    (let s := regs [(F.vclBstat_state, 1, 7), (F.secBootStat_state, 0, 4)] (kiln list0 [])
     usable s .vcl 1 = true ∧ s.get F.secBootStat_state = 4 ∧ (nxt (exec (.db ⟨1, none, 0⟩ 3 16) s)).get F.engDbTail_tail 3 = 16) ∧
    (let s := { ({ kiln list0 [] with queues := [] } : State) with mem := (header0.zipIdx.filter (fun p => p.1 != 0)).map (fun p => (0x0200_0000_0000 + p.2, p.1)) }
     (s.queue 3).fetch < 2 ^ 32 ∧ s.flag F.klnQctl_en 3 = true ∧ atLeast (s.get F.engDbTail_tail 3) 1 = true ∧ isShadow s = false ∧
     engineRead ⟨kilnUnit, ctxOf 3⟩ (slotAddr s 3 0) 64 {} s = (s, some header0) ∧ headerOk header0 (s.get F.klnQctl_size_log2 3) = true ∧
     ((nxt (exec (.headerFetch 3 {}) s)).queue 3).lists.map (·.tag) = [77]) ∧
    (let s : State := { kiln list0 [] with queues := [] }
     engineRead ⟨kilnUnit, ctxOf 3⟩ (slotAddr s 3 0) 64 {} s = (s, some (List.replicate 64 0)) ∧
     headerOk (List.replicate 64 0) (s.get F.klnQctl_size_log2 3) = false ∧ engineServed s (slotAddr s 3 0) 64 = true ∧
     (let x := { s with hearth := {} }
      engineServed x (slotAddr x 3 ((x.queue 3).fetch % 2 ^ 32)) 64 = false ∧ nxt (exec (.headerFetch 3 {}) x) = x) ∧
     ((nxt (exec (.headerFetch 3 {}) s)).queue 3).lists.map (·.status) = [3]) ∧
    (let l := { list0 with ended := some 5, tag := 9 }
     let s := kiln l []
     recordDue s 3 = some l ∧ s.list 3 0 = some l ∧ l.out = false ∧ ringFor s 3 0 = some 0 ∧ ringRoom s 0 = true ∧
     recordHeld s l = false ∧ hostQuiet s (listAgent 3 0) = true ∧
     (List.range 32).all (fun j => decide (isHostAddr (0x0200_0001_0000 + j) = false ∧ inReserve (0x0200_0001_0000 + j) = false ∧
       homeDead s (0x0200_0001_0000 + j) = false)) = true ∧
     (nxt (exec (.completionRecordWrite { queue := 3 }) s)).bytes 0x0200_0001_0000 32 = recordBytes s 3 l 1 ++ [0x80]) ∧
    (let l := { list0 with ended := some 5, tag := 9 }
     let s := kiln l [(F.klnCrbase_base, 0, 0x1_0000_0000), (F.vclBstat_state, 2, 6)]
     recordDue s 3 = some l ∧ ringFor s 3 0 = some 0 ∧ isHostAddr (s.get F.klnCrbase_base 0 * 4096) = true ∧ linkUp s = true ∧
     ctxBundle s 3 ≤ 2 ∧ (nxt (exec (.completionRecordWrite { queue := 3 }) s)).pubs.map (·.tx.addr) = [0x1000_0000_001F]) := by decide +kernel

theorem met_QueuesAndRingsRegisters_rings :
    (let s := { regs [(F.klnCrcoal_timer_us, 63, 1), (F.klnCrctl_irq_en, 63, 1)] {} with rings := [(63, { written := 1, unsignalled := 1 })] }
     s.get F.klnCrcoal_timer_us 63 ≠ 0 ∧ s.flag F.klnCrctl_irq_en 63 = true ∧ 0 < (s.ring 63).unsignalled ∧
     (nxt (exec (.coalesceTimerExpiry 63) s)).ring 63 = { written := 1 }) ∧
    (let v : Word32 := BitVec.ofNat 32 (2 ^ 31 + 2 ^ 30 + 15 * 2 ^ 20 + 16)
     let s := regs [(F.klnCrbase_base, 63, 0x2000_0000)] {}
     s.flag F.klnCrctl_en 63 = false ∧ natBit v.toNat 31 = true ∧ natBits v.toNat 4 0 = 16 ∧
     placedOk (s.get F.klnCrbase_base 63 * 4096) (32 * 2 ^ 16) = true ∧ (nxt (exec (.ringEnable 63 v) s)).get F.klnCrctl_owner 63 = 15) ∧
    (let s := kiln list0 []
     s.flag F.klnCrctl_en 0 = true ∧ (nxt (exec (.ringDisable 0) s)).flag F.klnCrctl_en 0 = false ∧
     (nxt (exec (.crheadWrite 0 0xFFFFFFFF) s)).get F.klnCrhead_consumed 0 = 2 ^ 32 - 1) := by decide +kernel

/-! ## Commands -/

/-- A fired list of n commands. -/
def fired (n : Nat) : CmdList := { start := 0, count := n, next := true, fired := some 0, left := 1 }

/-- Queue q enabled in near memory, with this list running and these bytes in its first command slot. -/
def cmds (q : Nat) (l : CmdList) (b : List Byte) (more : List (Fld × Nat × Nat)) : State :=
  { regs ([(F.klnQctl_en, q, 1), (F.klnQctl_size_log2, q, 4), (F.klnQbase_base, q, 0x2000_0000), (F.engDbTail_tail, q, 2)] ++ more) {} with
    queues := [(q, { fetch := 2, lists := [l] })]
    hearth := { onDieFilled := true, nearFilled := true }
    mem := (b.zipIdx.filter (fun p => p.1 != 0)).map (fun p => (0x0200_0000_0040 + p.2, p.1)) }

/-- The pieces of `starts` for a list that has run nothing. -/
def startsB (q : Nat) (l : CmdList) (b : List Byte) (s : State) : Bool :=
  canStart s q == some l && s.list q l.start == some l && !l.aborting && !waitsLaunch s q l b &&
  engineServed s (slotAddr s q (l.start + 1 + l.idx)) 64 &&
  decide (engineRead ⟨engineUnit (engineOf q), ctxOf q⟩ (slotAddr s q (l.start + 1 + l.idx)) 64 {} s = (s, some b))

/-- A command of 64 bytes: its head, and zeros. -/
def cmd (b : List Byte) : List Byte := b ++ List.replicate (64 - b.length) 0

/-- A handle table entry: valid, read, write and execute, near class, this base (08 R305). -/
def hw0 (base : Nat) : Nat := 2 ^ 63 + 2 ^ 58 + 7 * 2 ^ 55 + base

/-- KLN_HTAB of context 3, handle 1 as raw registers. -/
def withTable (h base len : Nat) (s : State) : State :=
  (s.setReg .klnHtabW0 (64 * 3 + h) (BitVec.ofNat 64 (hw0 base))).setReg .klnHtabW1 (64 * 3 + h) (BitVec.ofNat 64 len)

/-- LAUNCH on local core 5 of field 17 at offset 0x40 of handle 1, arguments 7 and 8. -/
def launchB : List Byte :=
  cmd ([0x10, 0] ++ List.replicate 6 0 ++ leBytes 4 (2 ^ 17) ++ leBytes 4 0 ++ leBytes 8 32 ++ leBytes 2 1 ++ leBytes 2 0 ++
    leBytes 4 0x40 ++ leBytes 8 7 ++ leBytes 8 8 ++ [0, 9, 0])

/-- A raw COPY of one row of 16 bytes from handle 1 to offset 32 of handle 2. -/
def copyB : List Byte :=
  cmd ([0x20] ++ List.replicate 7 0 ++ leBytes 8 (2 ^ 48) ++ leBytes 8 (2 * 2 ^ 48 + 32) ++ leBytes 4 16 ++ leBytes 4 1)

set_option maxRecDepth 100000 in
theorem met_CommandsRun :
    (let l := fired 2
     let b := cmd [0]
     let s := cmds 3 l b []
     startsB 3 l b s = true ∧ b.length = 64 ∧ leAt b 0 1 = 0 ∧ zeroBytes b 1 64 = true ∧
     (nxt (exec (.nop 3 {}) s)).list 3 0 = some { l with idx := 1, done := 1 }) ∧
    (let l := fired 1
     let b := cmd [0x20]
     let s := cmds 3 l b []
     startsB 3 l b s = true ∧ opValid (engineOf 3) (leAt b 0 1) = false ∧
     ((nxt (exec (.nop 3 {}) s)).list 3 0).map (fun l => (l.status, l.ended)) = some (3, some 0)) ∧
    (let l := fired 2
     let b := cmd ([2] ++ List.replicate 7 0 ++ leBytes 2 5 ++ leBytes 2 0 ++ leBytes 4 6)
     let s := (cmds 3 l b []).setReg .synVtab (1024 * 3 + 5) 0xF000_0009
     startsB 3 l b s = true ∧ zeroBytes b 1 8 = true ∧ zeroBytes b 10 12 = true ∧ zeroBytes b 16 64 = true ∧ leAt b 0 1 = 2 ∧
     cmdObj s 3 (leAt b 8 2) 30 = some 9 ∧ cmdObj s 3 (leAt b 8 2) 29 = some 9 ∧
     (nxt (exec (.sigCommand 3 {}) s)).syncOps = [⟨1159, 9, .sig 6, 5, false⟩]) ∧
    (let l := fired 2
     let b := fun op : Byte => cmd ([op] ++ List.replicate 7 0 ++ leBytes 2 5 ++ leBytes 2 0 ++ leBytes 4 6)
     let s := fun op : Byte => (cmds 3 l (b op) []).setReg .synVtab (1024 * 3 + 5) 0xF000_0009
     startsB 3 l (b 3) (s 3) = true ∧ startsB 3 l (b 4) (s 4) = true ∧
     ((nxt (exec (.waitCommand 3 {}) (s 3))).list 3 0).map (·.holds) = some true ∧
     (nxt (exec (.decCommand 3 {}) (s 4))).syncOps = [⟨1159, 9, .dec 6, 5, false⟩]) ∧
    (let l := fired 2
     let b := launchB
     let s := withTable 1 0x0200_0000_1000 0x1000 (cmds 3 l b [(F.secBootStat_state, 0, 4)])
     startsB 3 l b s = true ∧ leAt b 0 1 = 0x10 ∧ s.get F.secBootStat_state = 4 ∧
     launchCores (leAt b 8 4) (leAt b 16 8) = [coreAt 17 5] ∧
     (nxt (exec (.launch 3 {}) s)).launches.map (fun x => (x.cores, x.entry, x.arg1)) = [([coreAt 17 5], 0x40, 8)] ∧
     (scalar (nxt (exec (.kernelLaunch 3) (nxt (exec (.launch 3 {}) s)))) (coreAt 17 5)).pc = 0x40) ∧
    (let l := fired 2
     let b := copyB
     let s0 := withTable 2 0x0200_0000_2000 0x100 (withTable 1 0x0200_0000_1000 0x100 (cmds 19 l b []))
     let s := s0.putBytes 0x0200_0000_1000 (leBytes 16 0x1234)
     let a := copyArgs b
     startsB 19 l b s = true ∧ engineOf 19 = 1 ∧ copyOk b a = true ∧ a.raw = true ∧ a.ops = 0 ∧ a.rows = 1 ∧ a.rowBytes = 16 ∧
     memWf s.mem = true ∧ hostQuiet s (listAgent 19 0) = true ∧
     (tableEntry s 3 (a.src / 2 ^ 48)).any (fun x => natBit x.1.toNat 55 && decide (a.src % 2 ^ 48 + 16 ≤ entryLen x)) = true ∧
     (tableEntry s 3 (a.dst / 2 ^ 48)).any (fun x => natBit x.1.toNat 56 && decide (a.dst % 2 ^ 48 + 16 ≤ entryLen x) &&
       !isHostAddr (entryBase x)) = true ∧
     (nxt (exec (.copy 19 {}) s)).bytes 0x0200_0000_2020 16 = leBytes 16 0x1234) := by decide +kernel

theorem met_CommandsRun_parity :
    (let l := fired 2
     let s := cmds 3 l [] []
     s.list 3 0 = some l ∧ l.ended = none ∧ l.reportOnly = false ∧ l.idx < l.count ∧ 0 ∉ l.parity ∧
     ((nxt (exec (.commandParityError ⟨3, 0, 0⟩) s)).list 3 0).map (·.parity) = some [0] ∧
     nxt (exec (.commandParityError ⟨3, 0, 9⟩) s) = s) ∧
    (let l := { fired 2 with parity := [0], fired := none }
     let s := cmds 3 l [] []
     s.list 3 0 = some l ∧ ((nxt (exec (.commandParityError ⟨3, 0, 0⟩) s)).list 3 0).map (·.reportOnly) = some true) ∧
    (let l := { fired 2 with parity := [0] }
     let s := cmds 3 l [] []
     s.list 3 0 = some l ∧ 0 ∈ l.parity ∧ l.fired.isSome = true ∧ l.busy = false ∧ l.aborting = false ∧ s.launchesOf 3 0 = [] ∧
     ((nxt (exec (.commandParityError ⟨3, 0, 0⟩) s)).list 3 0).map (·.status) = some 3) ∧
    (let l := { fired 2 with busy := true, cmd := copyB, pos := 8 }
     let s := cmds 19 l copyB []
     runningList s 19 = some l ∧ leAt l.cmd 0 1 = 0x20 ∧ l.holds = false ∧ l.rerun = false ∧ copyOverlaps [] l (copyArgs l.cmd) s = false ∧ hostQuiet s (listAgent 19 0) = true ∧
     ((nxt (exec (.copyParityError ⟨19, []⟩) s)).list 19 0).map (fun l => (l.pos, l.rerun)) = some (0, true)) ∧
    (let l := { fired 2 with busy := true, cmd := copyB, rerun := true }
     let s := cmds 19 l copyB []
     ((nxt (exec (.copyParityError ⟨19, []⟩) s)).list 19 0).map (·.status) = some 5) ∧
    (let x : Launch := { queue := 3, start := 0, idx := 0, cores := [coreAt 0 5], left := [], started := true, entry := 0x40,
                         suspect := [0], suspectOp := 0x30, suspectCore := coreAt 0 5 }
     let s := { cmds 3 (fired 2) [] [] with launches := [x] }
     s.launches.find? (fun l => l.queue == 3 && awaitsReplay l) = some x ∧ choosePairs s x = none ∧
     ((nxt (exec (.replayStart 3) s)).list 3 0).map (·.status) = some 5) ∧
    (let x : Launch := { queue := 3, start := 0, idx := 0, cores := [coreAt 0 5], left := [], started := true, entry := 0x40,
                         suspect := [0], suspectOp := 0x30, suspectCore := coreAt 0 5 }
     let s : State := { cmds 3 (fired 2) [] [] with launches := [x], ras := { passed := (fieldCores 1).map (fun c => (c, 1)) } }
     s.launches.find? (fun l => l.queue == 3 && awaitsReplay l) = some x ∧ choosePairs s x = some [(0, 1)] ∧
     (x.cores.map (swapCore [(0, 1)])).all (coreFree s) = true ∧
     ((nxt (exec (.replayStart 3) s)).core (coreAt 1 5)).run = .running) := by decide +kernel

/-! ## Swath mode -/

/-- A SWATH of one 256-bit query over two sketches in far memory from address 0 (14 R482). -/
def swathB : List Byte :=
  cmd ([0x30, 0] ++ List.replicate 6 0 ++ leBytes 8 (2 ^ 48) ++ leBytes 8 2 ++ leBytes 8 (2 * 2 ^ 48) ++ [1, 2] ++
    List.replicate 6 0 ++ leBytes 8 (3 * 2 ^ 48) ++ leBytes 8 100)

/-- Handle 1 over far memory (class 2), handles 2 and 3 over near memory (class 1). -/
def swathTable (s : State) : State :=
  withTable 3 0x0200_0000_3000 0x1000 (withTable 2 0x0200_0000_2000 0x1000
    ((s.setReg .klnHtabW0 (64 * 3 + 1) (BitVec.ofNat 64 (2 ^ 63 + 2 * 2 ^ 58 + 3 * 2 ^ 55))).setReg .klnHtabW1 (64 * 3 + 1) 0x1000))

/-- A swath of queue 147 over two sketches, with one query of zeros. -/
def swath0 (scanning merged : List Nat) : Swath :=
  { queue := 147, start := 0, seq := 1, tag := 0, width := 256, region := 0, count := 2, idBase := 100, k := 2,
    result := 0x0200_0000_3000, queries := [List.replicate 32 0], scanning := scanning, merged := merged, best := [[]] }

set_option maxRecDepth 100000 in
theorem met_SwathScanWritesResult :
    (let l := fired 2
     let s := swathTable (cmds 147 l swathB [])
     startsB 147 l swathB s = true ∧ leAt swathB 0 1 = 0x30 ∧ engineOf 147 = 9 ∧ swathOk swathB = true ∧
     swathPlaces s 3 swathB = some (0, 0x0200_0000_2000, 0x0200_0000_3000) ∧
     engineServed s 0x0200_0000_2000 32 = true ∧
     engineRead ⟨engineUnit 9, 3⟩ 0x0200_0000_2000 32 {} s = (s, some (List.replicate 32 0)) ∧
     (nxt (exec (.swath 147 {}) s)).swath = some (swath0 (List.range 32) [])) ∧
    (let w := swath0 [0, 5] []
     let s : State := { swath := some w, mem := [(33, 7)] }
     0 ∈ w.scanning ∧ portState s 0 ≠ 4 ∧ s.bad = [] ∧
     (List.range w.count).filter (fun i => (farPlace s (w.region + i * 32)).1 == 0) = [0, 1] ∧
     (nxt (exec (.mowerScanDone 0 []) s)).sieveRes.map (·.lists) = [[[(0, 100), (3, 101)]]] ∧
     (nxt (exec (.mowerScanDone 0 []) s)).swath = some (swath0 [5] [])) := by decide +kernel

set_option maxRecDepth 100000 in
theorem met_SwathScanWritesResult_host :
    (let w := { swath0 [] (List.range 32) with result := 0x1000_0000_0040 }
     let l := { fired 2 with busy := true, idx := 1 }
     let s : State := { (cmds 147 l [] []) with swath := some w }
     let up : State := { (cmds 147 l [] [(F.vclBstat_state, 0, 6)]) with swath := some w }
     let t := nxt (exec .readyWordWrite up)
     let done : State := { (cmds 147 l [] [(F.vclBstat_state, 0, 6)]) with swath := some { w with written := true } }
     isHostAddr w.result = true ∧ linkUp s = false ∧ hostQuiet s (listAgent w.queue w.start) = true ∧
     ((nxt (exec .readyWordWrite s)).list 147 0).map (·.status) = some 6 ∧
     linkUp up = true ∧ ctxBundle up (ctxOf w.queue) ≤ 2 ∧ t.swath = some { w with written := true } ∧
     hostQuiet t (listAgent w.queue w.start) = false ∧ linkUp t = true ∧ nxt (exec .readyWordWrite t) = t ∧
     linkUp done = true ∧ hostQuiet done (listAgent w.queue w.start) = true ∧ ctxBundle done (ctxOf w.queue) ≤ 2 ∧
     ((nxt (exec .readyWordWrite done)).list 147 0).map (·.drain) = some true) := by decide +kernel

set_option maxRecDepth 100000 in
theorem met_SwathScanWritesResult_result :
    (let w := swath0 [] (List.range 30)
     let r : SieveRes := ⟨30, [[(0, 100), (3, 101)]], 2, 0, false, false, false⟩
     let s : State := { swath := some w, sieveRes := [r] }
     takeFirst (fun r => r.port == 30) s.sieveRes = some (r, []) ∧ w.merged.length < 31 ∧
     ((nxt (exec (.sieveResultArrival 30 .clean) s)).swath).map (·.best) = some [[(0, 100), (3, 101)]]) ∧
    (let w := swath0 [] (List.range 31)
     let r : SieveRes := ⟨31, [[(0, 100), (3, 101)]], 2, 0, false, false, false⟩
     let s : State := { (cmds 147 (fired 2) [] []) with swath := some w, sieveRes := [r] }
     takeFirst (fun r => r.port == 31) s.sieveRes = some (r, []) ∧ s.list 147 0 = some (fired 2) ∧
     hostQuiet s (listAgent w.queue w.start) = true ∧
     nxt (exec (.sieveResultArrival 31 .clean) s) = { s with swath := some (mergeRes w r), sieveRes := [] } ∧
     ((nxt (exec (.sieveResultArrival 31 (.poisoned 4 0)) s)).list 147 0).map (·.status) = some 6) ∧
    (let w := { swath0 [] (List.range 32) with best := [[(0, 100), (3, 101)]] }
     let l := { fired 2 with busy := true, idx := 1 }
     let s : State := { (cmds 147 l [] []) with swath := some w }
     s.list 147 0 = some l ∧ l.refused = false ∧ isHostAddr w.result = false ∧ memWf s.mem = true ∧ s.bad = [] ∧
     w.merged.length = 32 ∧ w.written = false ∧ w.best.length = w.queries.length ∧ hostQuiet s (listAgent w.queue w.start) = true ∧
     rangeServes s w.result 80 = true ∧
     (List.range 80).all (fun j => decide (isHostAddr (w.result + j) = false ∧ inReserve (w.result + j) = false ∧
       homeDead s (w.result + j) = false ∧ sliced (w.result + j) = sliced w.result + j)) = true ∧
     (nxt (exec .readyWordWrite s)).bytes (w.result + 60) 20 = [1, 0, 0, 0x80] ++ leBytes 8 100 ++ leBytes 8 (3 * 2 ^ 48 + 101) ∧
     ((nxt (exec .readyWordWrite s)).list 147 0).map (·.done) = some 1 ∧
     (let x := { s with hearth := {} }
      rangeServes x w.result 80 = false ∧ nxt (exec .readyWordWrite x) = x)) ∧
    (let w := { swath0 [] (List.range 32) with written := true }
     let s : State := { (cmds 147 { fired 2 with busy := true, idx := 1 } [] []) with swath := some w }
     w.written = true ∧ s.list 147 0 = some { fired 2 with busy := true, idx := 1 } ∧ isHostAddr w.result = false ∧ memWf s.mem = true ∧
     hostQuiet s (listAgent w.queue w.start) = true ∧
     (nxt (exec .readyWordWrite s)).bytes (w.result + 60) 4 = [1, 0, 0, 0x80]) ∧
    (let l := [(1, 5), (2, 0)]
     (l.zip (l.drop 1)).all (fun p => decide (p.1.1 < p.2.1 ∨ (p.1.1 = p.2.1 ∧ p.1.2 ≤ p.2.2))) = true ∧ l.length ≤ 2 ∧
     keepKey 2 (1, 4) l = [(1, 4), (1, 5)]) := by decide +kernel

/-! ## Registers, the host and the debugger -/

/-- A running module with bundle 1 usable. -/
def hosted (more : List (Fld × Nat × Nat)) : State :=
  regs ([(F.vclBstat_state, 1, 6), (F.secBootStat_state, 0, 4)] ++ more) { hearth := { onDieFilled := true, nearFilled := true } }

set_option maxRecDepth 100000 in
theorem met_RegisterAccessByCodes :
    (let s := hosted []
     Reg.klnThrottle ∈ plainRegs ∧ resolve (0x100018 : BitVec 26).toNat = some (.klnThrottle, 0, 0) ∧ (regRow .klnThrottle).wide = false ∧
     usable s .vcl 1 = true ∧ s.get F.secBootStat_state = 4 ∧
     (nxt (exec (.registerWrite .service 0x100018 false ⟨3, 0⟩) s)).get F.klnThrottle_host = 3 ∧
     (nxt (exec (.registerWrite (.host 1) 0x100018 false ⟨3, 0⟩) s)).get F.klnThrottle_host = 3 ∧
     (nxt (exec (.hwr ⟨1, none, 0⟩ 0 0x100018 [3, 0, 0, 0] false false {}) s)).get F.klnThrottle_host = 3) ∧
    (let s := regs [(F.rasEvtStat_replay_fail, 0, 1)] {}
     Reg.rasEvtStat ∈ plainRegs ∧ resolve (0x2000020 : BitVec 26).toNat = some (.rasEvtStat, 0, 0) ∧
     (nxt (exec (.registerWrite .service 0x2000020 false ⟨0xFF, 0⟩) s)).flag F.rasEvtStat_replay_fail = false ∧
     (nxt (exec (.registerWrite .service 0x2000020 false ⟨0xFF, 0xFF⟩) s)).flag F.rasEvtStat_replay_fail = true) ∧
    (let s := hosted [(F.klnOverrunCnt_count, 0, 7)]
     resolve (0x100028 : BitVec 26).toNat = some (.klnOverrunCnt, 0, 0) ∧ (regRow .klnOverrunCnt).wide = false ∧
     (nxt (exec (.rcRegisterRead ⟨1, none, 0⟩ 0 0x100028 false) s)).get F.klnOverrunCnt_count = 0 ∧
     (nxt (exec (.rcRegisterRead ⟨1, none, 0⟩ 0 0x100029 false) s)).flag F.vclEvtStat_proto_err = true) ∧
    (let s := hosted []
     hostMem s 1 0x100 4 = some 0x0200_0000_0100 ∧ homeDead s 0x0200_0000_0100 = false ∧ inReserve 0x0200_0000_0100 = false ∧
     s.bad = [] ∧ (nxt (exec (.hwr ⟨1, none, 0⟩ 1 0x100 [1, 2, 3, 4] false false {}) s)).bytes 0x0200_0000_0100 4 = [1, 2, 3, 4] ∧
     (nxt (exec (.hrd ⟨1, none, 0⟩ 9 1 0x100 4 false {}) s)).bundles ≠ s.bundles ∧
     ((s.setBundle .vcl 2 { rxAny := true, rxSeq := 9 }).bundle .vcl 2).rxAny = true ∧
     (nxt (exec (.hrd ⟨1, some (2, 9), 0⟩ 9 1 0x100 4 false {}) (s.setBundle .vcl 2 { rxAny := true, rxSeq := 9 }))).bundles =
       (s.setBundle .vcl 2 { rxAny := true, rxSeq := 9 }).bundles) := by decide +kernel

set_option maxRecDepth 100000 in
theorem met_RegisterAccessByCodes_special :
    (let v : Word64 := BitVec.ofNat 64 (hw0 0x0200_0000_1000 - 2 ^ 57)
     let s := regs [(F.klnHtabW1_length, 65, 0x1000)] {}
     natBit v.toNat 63 = true ∧ htabOk v.toNat (s.get F.klnHtabW1_length 65) = true ∧
     (nxt (exec (.htabW0Write 1 1 v) s)).flag F.klnHtabW0_valid 65 = true ∧
     htabOk (v.toNat + 1) (s.get F.klnHtabW1_length 65) = false ∧ natBit (v.toNat + 1) 63 = true ∧
     (nxt (exec (.htabW0Write 1 1 (v + 1)) s)).flag F.klnEvtStat_cfg_err = true ∧ s.flag F.klnHtabW0_valid 65 = false ∧
     (nxt (exec (.htabW1Write 1 1 0x77) s)).get F.klnHtabW1_length 65 = 0x77) ∧
    (nxt (exec (.rasRetiredWrite 35 0x8000_0001) (regs [(F.rasRetired_cores, 35, 2)] {}))).get F.rasRetired_cores 35 = 0x8000_0003 ∧
    ((nxt (exec (.mshDistSvcWrite 5) {})).reg .mshDistSvc 0 = 5) ∧
    ((nxt (exec (.mshMonSelWrite 7 0x8000_0000) (regs [(F.mshMonFlits_flits, 7, 3)] {}))).get F.mshMonFlits_flits 7 = 0) ∧
    (let s := regs [(F.secDbgStat_state, 0, 2), (F.secDbgStat_scope, 0, 3), (F.dbgRegSel_reg, 0, 31)] (st sc0)
     dbgAttached s = true ∧ ((nxt (exec (.dbgHalt 0) s)).core 0).halted = true) ∧
    (let s := regs [(F.dbgRegSel_reg, 0, 31)] (core { run := .running, halted := true, sc := sc0 })
     runCode (s.core 0) = 2 ∧ s.get F.dbgRegSel_reg 0 < 32 ∧ s.get F.dbgRegSel_reg 0 ≠ 0 ∧
     ((nxt (exec (.dbgStep 0) s)).core 0).step = true ∧ mget (scalar (nxt (exec (.dbgRegDataWrite 0 9) s)) 0).g 31 0 = 9) ∧
    (let s := regs [(F.dbgRegSel_reg, 0, 0x3000)] (core { run := .running, halted := true, sc := sc0 })
     s.get F.dbgRegSel_reg 0 / 4096 = 3 ∧ (scalar (nxt (exec (.dbgRegDataWrite 0 0x107) s)) 0).pc = 0x104 ∧
     runCode ((st sc0).core 0) ≠ 2 ∧ (nxt (exec (.dbgRegDataWrite 0 1) (st sc0))).flag F.dbgStat_err = true) ∧
    (let s := st { sc0 with pctr := [(7, BitVec.ofNat 64 (2 ^ 63 + 2 ^ 61 + 2 ^ 48 - 1))] }
     natBit (mget (scalar s 0).pctr 7 0).toNat 63 = true ∧ (scalar (nxt (exec (.pctrWrap 0 7) s)) 0).ip = 4 ∧
     (scalar (nxt (exec (.mswi 0) s)) 0).ip = 0x80 ∧ (scalar (nxt (exec (.sswi 0) s)) 0).ip = 8) ∧
    (let s := regs [(F.secDbgStat_state, 0, 2), (F.secDbgStat_scope, 0, 2), (F.dbgSynSel_phys, 0, 4095)] {}
     synUnlocked s = true ∧ mget s.waiters 4095 [] = [] ∧
     (nxt (exec (.dbgSynSet ⟨0x7FFF_FFFF, []⟩) s)).get F.synCnt_count 4095 = 2 ^ 31 - 1) ∧
    (mirState (nxt (exec (.meshLinkFail 0 0) {})) = 0 ∧ mirState (nxt (exec (.meshLinkFail 0 1) {})) = 10) := by decide +kernel

/-! ## The links -/

/-- Bundle 1 of a link in a state. -/
def lnk (l : LinkId) (st : Nat) (v : Bundle) (more : List (Fld × Nat × Nat)) : State :=
  (regs ([(bstat l, 1, st)] ++ more) {}).setBundle l 1 v

/-- A data flit, number n, that carries an acknowledgement of flit 3. -/
def flit (n : Nat) (kind : BitVec 8) (good : Bool) : Flit := 
  let f := flitSealed ⟨BitVec.ofNat 12 n, 3, true, false, kind, 2, 1, [], 0⟩
  if good then f else { f with crc := ~~~f.crc }

/-- A posted write in the replay buffer. -/
def sent (n r : Nat) : Sent := ⟨n, r, { kind := .mwr }, 0⟩

set_option maxRecDepth 100000 in
theorem met_LinksTrainAndReplay :
    (let s := lnk .vcl 1 {} [(F.vclCtl_en, 0, 1)]
     linkOn s .vcl = true ∧ s.flag (bDisable .vcl) 1 = false ∧ bundleState s .vcl 1 ≤ 1 ∧
     bundleState (nxt (exec (.linkDetect .vcl 1 0x00FF) s)) .vcl 1 = 2 ∧ bundleState (nxt (exec (.linkDetect .vcl 1 0x007F) s)) .vcl 1 = 1 ∧
     bundleState (nxt (exec (.linkDetect .vcl 1 0xFFFF) (s.set (bstat .vcl) 0 1))) .vcl 1 = 1 ∧
     bundleState (nxt (exec (.linkDetect .vcl 1 0xFFFF) (s.set F.vclBctl_disable 1 1))) .vcl 1 = 10) ∧
    (let s := lnk .mir 8 {} []
     bundleState s .mir 1 = 8 ∧ bundleState (nxt (exec (.equalisationDone .mir 1) s)) .mir 1 = 2 ∧
     bundleState (nxt (exec (.equalisationDone .mir 1) (lnk .mir 2 {} []))) .mir 1 = 3) ∧
    (let s := lnk .vcl 3 {} []
     bundleState s .vcl 1 = 3 ∧ widthOf (0xFF00 &&& 0xFFFF) = some (some 1) ∧
     ((nxt (exec (.alignmentDone .vcl 1 0xFF00 0xFFFF 0) s)).bundle .vcl 1).halved = true) ∧
    (let s := lnk .vcl 4 {} []
     bundleState s .vcl 1 = 4 ∧ bundleState (nxt (exec (.fecLock .vcl 1 true) s)) .vcl 1 = 5 ∧
     bundleState (nxt (exec (.fecLock .vcl 1 false) s)) .vcl 1 = 8) ∧
    (let s := lnk .vcl 5 { replay := [sent 7 0, sent 8 0], before := some false, unplaced := [(4, { kind := .mwr })] } []
     bundleState s .vcl 1 = 5 ∧ (s.bundle .vcl 1).waiting = [] ∧ s.flag (bRetrain .vcl) 1 = false ∧ s.get F.vclEvtEn_en = 0 ∧
     ((nxt (exec (.flitInit .vcl 1 64 16 7) s)).bundle .vcl 1).replay.map (·.seq) = [0] ∧
     bundleState (nxt (exec (.flitInit .vcl 1 64 16 7) s)) .vcl 1 = 6 ∧
     (nxt (exec (.flitInit .vcl 1 64 16 7) s)).get F.vclReplay_count 1 = 1 ∧
     ((nxt (exec (.flitInit .vcl 1 64 16 8) s)).bundle .vcl 1).replay = []) ∧
    (let s := lnk .vcl 5 {} []
     1 ≤ bundleState s .vcl 1 ∧ bundleState s .vcl 1 ≤ 5 ∧ mirState s ≠ 10 ∧
     (nats 3 0 1).all (fun x => x == 1 || decide (bundleState s .vcl x = 0)) = true ∧
     (nxt (exec (.trainingTimeout .vcl 1) s)).flag F.hrtStat_halted = true) ∧
    (let s := lnk .mir 5 {} []
     bundleState s .mir 1 = 5 ∧ isPrimary s = false ∧ s.mirror.behind = [] ∧
     (nxt (exec (.trainingTimeout .mir 1) s)).recs.map (·.op) = [0x51]) ∧
    (let s := lnk .vcl 6 {} []
     usable s .vcl 1 = true ∧ s.flag (bDisable .vcl) 1 = false ∧ bundleState (nxt (exec (.bctlRetrain .vcl 1) s)) .vcl 1 = 8 ∧
     bundleState (nxt (exec (.bctlDisable .vcl 1) s)) .vcl 1 = 10 ∧
     bundleState (nxt (exec (.bctlRetrain .vcl 1) (lnk .vcl 9 {} []))) .vcl 1 = 2) := by decide +kernel

set_option maxRecDepth 100000 in
theorem met_LinksTrainAndReplay_flits :
    (let s := lnk .mir 7 { ueRun := 15, unackedRx := 9 } []
     usable s .mir 1 = true ∧ 15 ≤ (s.bundle .mir 1).ueRun ∧ ((nxt (exec (.codewordReceive .mir 1 {}) s)).bundle .mir 1).ueRun = 0 ∧
     (nxt (exec (.codewordReceive .mir 1 { errors := [543] }) s)).get F.mirFecCe_count 1 = 1 ∧
     bundleState (nxt (exec (.codewordReceive .mir 1 { dead := 2 }) s)) .mir 1 = 8 ∧
     ((nxt (exec (.ackIntervalExpiry .mir 1) s)).bundle .mir 1).unackedRx = 0) ∧
    (let s := lnk .vcl 6 { ueRun := 14 } []
     usable s .vcl 1 = true ∧ (s.bundle .vcl 1).ueRun < 15 ∧ ((nxt (exec (.codewordReceive .vcl 1 { errors := (List.range 16).map (Fin.ofNat 544) }) s)).bundle .vcl 1).ueRun = 15) ∧
    (let s := lnk .vcl 6 {} []
     let r : Codeword := { errors := (List.range 16).map (Fin.ofNat 544), flits := 2 }
     let t := nxt (exec (.codewordReceive .vcl 1 r) s)
     usable s .vcl 1 = true ∧ (s.bundle .vcl 1).nakSent = false ∧ (t.bundle .vcl 1).rxLost = 2 ∧ (t.bundle .vcl 1).nakSent = true ∧
     0 < (t.bundle .vcl 1).rxLost ∧ ((nxt (exec (.flitReceive .vcl 1 (flit 0 0 true)) t)).bundle .vcl 1).rxLost = 1) ∧
    (let s := lnk .vcl 6 { rxSeq := 4095, unackedRx := 63, replay := [sent 2 0, sent 3 0, sent 4 0] } []
     (s.bundle .vcl 1).waiting = [] ∧ (flit 0 0 true).kind = 0 ∧ (flit 0 0 true).seq.toNat = ((s.bundle .vcl 1).rxSeq + 1) % 4096 ∧
     ((nxt (exec (.flitReceive .vcl 1 (flit 0 0 true)) s)).bundle .vcl 1).unackedRx = 0 ∧
     ((nxt (exec (.flitReceive .vcl 1 (flit 0 0 true)) s)).bundle .vcl 1).replay = [sent 4 0] ∧
     ((nxt (exec (.flitReceive .vcl 1 (flit 0 2 true)) s)).bundle .vcl 1).posted = 2 ∧
     ((nxt (exec (.flitReceive .vcl 1 (flit 1 0 true)) s)).bundle .vcl 1).nakSent = true ∧
     (nxt (exec (.flitReceive .vcl 1 (flit 0 0 false)) s)).get F.vclCrcErr_count 1 = 1) ∧
    (let s := lnk .vcl 6 { replay := [sent 7 6] } []
     (s.bundle .vcl 1).replay ≠ [] ∧ (s.bundle .vcl 1).replay.all (fun x => decide (x.resends < 7)) = true ∧ s.get F.vclEvtEn_en = 0 ∧
     ((nxt (exec (.ackTimeout .vcl 1) s)).bundle .vcl 1).replay = [sent 7 7]) ∧
    (let s := lnk .vcl 6 { replay := [sent 7 7] } []
     (s.bundle .vcl 1).replay.any (fun x => decide (7 ≤ x.resends)) = true ∧
     bundleState (nxt (exec (.ackTimeout .vcl 1) s)) .vcl 1 = 8) := by decide +kernel

set_option maxRecDepth 100000 in
theorem met_LinkTransactionsComplete :
    (let t : Tx := { kind := .mwr, agent := 1155 }
     let s := lnk .vcl 6 { sentPosted := 5, unplaced := [(4, t), (5, t)] } []
     s.pubs = [] ∧ s.launches = [] ∧ ((nxt (exec (.placed 0 1 4 []) s)).bundle .vcl 1).unplaced = [(5, t)] ∧
     (4, t) ∈ (s.bundle .vcl 1).unplaced ∧ ((nxt (exec (.placed 0 1 4 [4]) s)).core 1155).hostRefused = true ∧
     (nxt (exec (.placed 0 1 4 [4]) s)).flag F.vclEvtStat_xlat_err = true ∧
     (s.bundle .vcl 1).unplaced.find? (fun p => p.1 == 5) = some (5, t) ∧ 5 ≤ (s.bundle .vcl 1).sentPosted ∧
     (s.bundle .vcl 1).waiting.contains t = false ∧ (s.bundle .vcl 1).replay.any (fun x => x.tx == t) = false ∧
     ((nxt (exec (.placedTimeout 1 5) s)).bundle .vcl 1).unplaced = [(4, t)]) ∧
    (let m : Mrd := ⟨4095, 3, 0x1000_0000_0000, false, false⟩
     let s : State := { mrds := [m] }
     takeFirst (fun m => m.tag == 4095) s.mrds = some (m, []) ∧
     (nxt (exec (.cpl 4095 (List.replicate 64 1)) s)).resps = [⟨3, .fill, 0x1000_0000_0000, List.replicate 64 1, false, .host 0, 0⟩] ∧
     (nxt (exec (.cple 4095 1) s)).flag F.vclEvtStat_xlat_err = true ∧
     (nxt (exec (.cple 4095 4) s)).resps = [⟨3, .fill, 0x1000_0000_0000, [], true, .host 0, 0⟩] ∧
     (nxt (exec (.cplTimeout 4095) s)).flag F.vclEvtStat_cpl_timeout = true) ∧
    (let s : State := {}
     takeFirst (fun m => m.tag == 7) s.mrds = none ∧ (nxt (exec (.cplTimeout 7) s)).resps = [] ∧
     (nxt (exec (.cple 7 5) s)).flag F.vclEvtStat_proto_err = true ∧ (nxt (exec (.cple 7 0) s)).flag F.vclEvtStat_proto_err = true) ∧
    (let m : Mrd := ⟨9, 3, 0x1000_0000_0000, false, true⟩
     let s : State := { mrds := [m] }
     takeFirst (fun m => m.tag == 9) s.mrds = some (m, []) ∧ m.dead = true ∧ nxt (exec (.cple 9 1) s) = {} ∧
     nxt (exec (.cplTimeout 9) s) = {} ∧ nxt (exec (.cpl 9 [1]) s) = {}) ∧
    (let m : Mrd := ⟨9, 3, 0x1000_0000_0000, false, true⟩
     let s : State := { lnk .vcl 6 { nonPosted := 1 } [] with mrds := [m], mrdWaits := [⟨0, 4, 0x1000_0000_0040, false, false⟩] }
     let t := nxt (exec (.cplTimeout 9) s)
     m.dead = true ∧ t.mrdWaits = [] ∧ t.mrds.map (·.core) = [4] ∧ t.resps = []) := by decide +kernel

/-! ## The mirror -/

/-- A module in a mirror state, with mirror bundle 0 usable. -/
def mirr (st : Nat) (m : Mirror) (more : List (Fld × Nat × Nat)) : State :=
  { regs ([(F.mirCtl_en, 0, 1), (F.mirStat_state, 0, st), (bstat .mir, 0, 6)] ++ more) {} with mirror := m }

set_option maxRecDepth 100000 in
theorem met_MirrorPairsAndPromotes :
    (let s := mirr 0 {} []
     s.flag F.mirCtl_en = true ∧ s.flag F.mirCtl_solo = false ∧ mirBundles s ≠ [] ∧ mirState s = 0 ∧
     mirState (nxt (exec .pairingStart s)) = 1 ∧ mirState (nxt (exec (.mpair 2 0 1) s)) ≠ 0) ∧
    (let s := regs [(F.mirCtl_en, 0, 1)] {}
     mirState s = 0 ∧ mirBundles s = [] ∧ mirState (nxt (exec .pairingTimeout s)) = 2) ∧
    (let s := mirr 1 {} [(F.mirStat_slot, 0, 1)]
     let map : Word32 := BitVec.ofNat 32 ((s.reg .fmcMap 0).toNat % 2 ^ 32)
     mirState s = 1 ∧ mirState (nxt (exec (.mpair 2 (map + 1) 1) s)) = 2 ∧
     (nxt (exec (.mpair 1 map 1) s)).flag F.mirEvtStat_slot_conflict = true ∧ mirState (nxt (exec (.mpair 2 map 1) s)) = 4 ∧
     mirState (nxt (exec (.mpair 2 map 5) s)) = 6 ∧ mirState (nxt (exec (.mpair 0 map 1) s)) = 6) ∧
    (isPrimary (mirr 3 {} []) = true ∧ (nxt (exec (.heartbeatTimeout {}) (mirr 3 {} []))).flag F.mirEvtStat_peer_lost = true ∧
     mirState (nxt (exec (.mgasp 0 {}) (mirr 4 {} []))) = 5 ∧ mirState (nxt (exec (.heartbeatTimeout {}) (mirr 6 {} []))) = 8) := by
  decide +kernel

set_option maxRecDepth 100000 in
theorem met_MirrorPairsAndPromotes_promotion :
    (let s := mirr 7 {} []
     mirState s = 7 ∧ s.flag F.mirCtl_witness_en = false ∧ mirState (nxt (exec (.heartbeatTimeout {}) s)) = 5 ∧
     mirState (nxt (exec (.mgasp 0 {}) s)) = 5) ∧
    (let s := mirr 7 {} [(F.mirCtl_witness_en, 0, 1)]
     s.flag F.mirCtl_witness_en = true ∧ (nxt (exec (.heartbeatTimeout {}) s)).mirror.waitsWitness = true) ∧
    (let s := mirr 9 { waitsWitness := true } [(F.klnFrameNum_count, 0, 10), (F.vclBstat_state, 0, 6),
       (F.mirPeerWitnessAddr_addr, 0, 0x100_0000_0000)]
     let hv := fun n : Byte => ({ bytes := [(0x1000_0000_0000, n)] } : HostView)
     let bad : HostView := { bad := [(0x1000_0000_0000, 3)] }
     let read := fun h : HostView => (engineRead ⟨unitId 8 (35, 4) 0x200, 0⟩ 0x1000_0000_0000 16 h s).2
     mirState s = 9 ∧ s.mirror.waitsWitness = true ∧ isHostAddr (s.get F.mirPeerWitnessAddr_addr * 16) = true ∧
     read (hv 9) = some (9 :: List.replicate 15 0) ∧ (9 : Nat) < s.frame ∧ mirState (nxt (exec (.witnessRead (hv 9) {}) s)) = 5 ∧
     mirState (nxt (exec (.witnessRead (hv 10) {}) s)) = 8 ∧ read bad = none ∧ mirState (nxt (exec (.witnessRead bad {}) s)) = 8) ∧
    (let s := mirr 9 { waitsWitness := true } []
     isHostAddr (s.get F.mirPeerWitnessAddr_addr * 16) = false ∧ mirState (nxt (exec (.witnessRead {} {}) s)) = 8) := by decide +kernel

/-- A write of two bytes in a journal, of a kind. -/
def jentry (k : Nat) : JEntry := ⟨1, k, 0x0200_0000_0000, [7, 8], false, none⟩

set_option maxRecDepth 100000 in
theorem met_MirrorTrafficApplies :
    (let s := mirr 7 {} []
     receives s = true ∧ receives (mirr 3 {} []) = false ∧ mirTwice s none = false ∧
     (nxt (exec (.mfwd ⟨1, none, 0⟩ 0x0200_0000_0000 0 [7, 8] false) s)).mirror.journal = [jentry 0] ∧
     nxt (exec (.mfwd ⟨1, none, 0⟩ 0x0200_0000_0000 0 [7, 8] false) (mirr 3 {} [])) = mirr 3 {} [] ∧
     (nxt (exec (.mfwd ⟨1, none, 0⟩ 0x0200_0000_0000 1 [7, 8] false) (mirr 7 { journal := [{ jentry 1 with data := [9] }] } []))).mirror.journal =
       [jentry 1]) ∧
    (let s := (mirr 7 {} []).setBundle .mir 2 { rxAny := true, rxSeq := 9 }
     (s.bundle .mir 2).rxAny = true ∧ ((s.bundle .mir 2).rxSeq + 4096 - (9 : BitVec 12).toNat) % 4096 < 2048 ∧
     nxt (exec (.mfwd ⟨1, some (2, 9), 0⟩ 0x0200_0000_0000 0 [7, 8] false) s) = s ∧
     mirTwice s (some (2, 10)) = false ∧
     (nxt (exec (.mfwd ⟨1, some (2, 10), 0⟩ 0x0200_0000_0000 0 [7, 8] false) s)).mirror.recvd = [(2, 1)]) ∧
    (let e := jentry 0
     let s := { mirr 7 { journal := [e], recvd := [(1, 1)] } [] with hearth := { onDieFilled := true, nearFilled := true } }
     receives s = true ∧ s.mirror.markers = [] ∧ mirTwice s none = false ∧ (nats 3 0 1).all (fun i => !(s.bundle .mir i).hold) = true ∧
     natBit (4 : Byte).toNat ((1 + 1) % 3) = true ∧
     (nxt (exec (.mepoch ⟨1, none, 0⟩ 5 0 1 6 4) s)).mirror.journal = [{ e with mark := some (5, 0) }] ∧
     (2 : Byte).toNat = 2 ^ 1 ∧ mget s.mirror.recvd 1 0 = 1 ∧ e.bundle = 1 ∧ e.mark = none ∧ e.poison = false ∧ memWf s.mem = true ∧
     s.bad = [] ∧ homeDead s e.addr = false ∧ inReserve e.addr = false ∧ rangeServes s e.addr 2 = true ∧
     (nxt (exec (.mepoch ⟨1, none, 0⟩ 5 0 1 6 2) s)).bytes 0x0200_0000_0000 2 = [7, 8] ∧
     (nxt (exec (.mepoch ⟨1, none, 0⟩ 5 0 1 6 2) s)).get F.mirEpochAck_frame = 5) ∧
    (let x : Snap := { queue := 163, start := 0, cut := 5, todo := [], marked := true }
     let s := { cmds 163 { fired 2 with busy := true, idx := 1 } [] [(F.mirStat_state, 0, 3)] with mirror := { snap := some x } }
     isPrimary s = true ∧ s.mirror.snap = some x ∧ x.marked = true ∧ x.cut = 5 ∧ s.list 163 0 = some { fired 2 with busy := true, idx := 1 } ∧
     (nxt (exec (.mack 5 ⟨0, ⟨0, none, 0⟩⟩) s)).mirror.acked = some 5 ∧
     (nxt (exec (.mack 5 ⟨1, ⟨0, none, 0⟩⟩) s)).get F.mirSnapLast_frame = 5 ∧
     mirState (nxt (exec (.mack 5 ⟨2, ⟨0, none, 0⟩⟩) s)) = 3) ∧
    (let s := mirr 3 { closing := [(5, 6, 1)] } []
     isPrimary s = true ∧ s.mirror.behind = [] ∧ mget s.mirror.arrived (0, 1183) 0 < s.mirror.gone + s.mirror.closing.length ∧
     mget (mput s.mirror.arrived (0, 1183) 1) (0, 1182) 0 ≤ max (mget s.mirror.marked 0 0) s.mirror.gone ∧
     (nxt (exec (.closeMarkArrival 0 ⟨1183, .clean⟩) s)).mirror.arrived = [((0, 1183), 1)]) ∧
    ((nxt (exec (.mhb 5 3 0 0) (mirr 7 {} []))).mirror.peerState = 3) := by decide +kernel

set_option maxRecDepth 100000 in
theorem met_MirrorTrafficApplies_commands :
    (let l := fired 2
     let s := { cmds 163 l (cmd [0x40]) [(F.mirStat_state, 0, 3)] with mirror := { dirty := [(5, 1)] } }
     startsB 163 l (cmd [0x40]) s = true ∧ engineOf 163 = 10 ∧ leAt (cmd [0x40]) 1 1 = 0 ∧ zeroBytes (cmd [0x40]) 2 64 = true ∧
     mirState s = 3 ∧ s.mirror.snap = none ∧
     (nxt (exec (.snapshot 163 {}) s)).mirror.snap = some { queue := 163, start := 0, cut := 0, todo := [(5, 1)] }) ∧
    (let l := fired 2
     let s := cmds 163 l (cmd [0x41]) [(F.mirStat_state, 0, 4)]
     startsB 163 l (cmd [0x41]) s = true ∧ zeroBytes (cmd [0x41]) 1 64 = true ∧ isPrimary s = true ∧
     (nxt (exec (.resync 163 {}) s)).mirror.resync = some (some 163) ∧ (nxt (exec (.resync 163 {}) s)).mirror.resyncPos = 0) ∧
    (let x : Snap := { queue := 163, start := 0, cut := 5, todo := [], done := [(5, 1)], broken := true }
     let l := { fired 2 with busy := true, idx := 1 }
     let s := { cmds 163 l [] [(F.mirStat_state, 0, 3)] with mirror := { snap := some x } }
     x.broken = true ∧ s.list 163 0 = some l ∧ (nxt (exec (.snapshot 163 {}) s)).mirror.dirty = [(5, 1)] ∧
     ((nxt (exec (.snapshot 163 {}) s)).list 163 0).map (·.status) = some 5) ∧
    (let x : Snap := { queue := 163, start := 0, cut := 5, todo := [(5, 1)] }
     let s := mirr 3 { snap := some x, dirty := [(5, 1)] } []
     x.broken = false ∧ x.todo = (5, 1) :: [] ∧ (nxt (exec (.snapshot 163 {}) s)).mirror.dirty = []) ∧
    (let x : Snap := { queue := 163, start := 0, cut := 5, todo := [] }
     let s := mirr 3 { snap := some x } []
     x.todo = [] ∧ x.marked = false ∧ ((nxt (exec (.snapshot 163 {}) s)).mirror.snap).map (·.marked) = some true) ∧
    (let s := mirr 4 { sent := [(0, 3)], epochs := true } [(F.mirResync_busy, 0, 1)]
     isPrimary s = true ∧ s.flag F.mirResync_busy = true ∧ s.get F.mirCtl_mode = 0 ∧ s.mirror.epochs = true ∧ s.mirror.lost = false ∧
     (nxt (exec .resyncStreamEnd s)).get F.mirResync_pct = 100 ∧ s.mirror.closing = [] ∧ s.mirror.behind = [] ∧ usable s .mir 0 = true ∧
     mget (nxt (exec .resyncStreamEnd s)).mirror.sent 0 0 = 0) ∧
    (let s := mirr 3 {} [(F.mirResync_busy, 0, 1), (F.mirCtl_mode, 0, 1)]
     s.get F.mirCtl_mode = 1 ∧ (nxt (exec .resyncStreamEnd s)).flag F.mirResync_busy = false) ∧
    ((nxt (exec (.riskHoldExpiry 3) (mirr 3 { riskRes := 2 } []))).mirror.riskRes = 1) := by decide +kernel

/-! ## Hearth and the cones -/

/-- The rails up, with what this changes of Hearth. -/
def lit (h : Hearth) (more : List (Fld × Nat × Nat)) : State :=
  { regs more {} with hearth := { h with rails := 6, onDieFilled := true, nearFilled := true }, pins := { pwrGood := true, refclk := true } }

set_option maxRecDepth 100000 in
theorem met_PowerSequencesAndBands :
    (let s : State := {}
     s.hearth.sequencing = false ∧ s.hearth.rails = 0 ∧ s.hearth.failures = 0 ∧
     (nxt (exec .coldSequencing s)).hearth.sequencing = true) ∧
    (let s : State := { hearth := { sequencing := true, rails := 4 }, pins := { refclk := true } }
     s.hearth.sequencing = true ∧ s.pins.refclk = true ∧ s.hearth.rails < 5 ∧ (nxt (exec .railRegulated s)).hearth.rails = 5 ∧
     (nxt (exec .coldSequencing s)).hearth = s.hearth ∧ (nxt (exec .railTimeout s)).hearth.failures = 1) ∧
    (let s : State := { hearth := { sequencing := true, rails := 5 }, pins := { refclk := true, slot := 2 } }
     s.hearth.rails = 5 ∧ (nxt (exec .railRegulated s)).pins.pwrGood = true ∧ (nxt (exec .railRegulated s)).get F.glbSlot_slot_id = 2) ∧
    (let s : State := { hearth := { sequencing := true } }
     s.pins.refclk = false ∧ (nxt (exec .railRegulated s)).hearth.rails = 0 ∧ (nxt (exec .refclkPresent s)).pins.refclk = true) ∧
    ((nxt (exec .railSequenceRetry { hearth := { failures := 1 } })).hearth.sequencing = true ∧
     (nxt (exec .railSequenceRetry { hearth := { failures := 2 } })).hearth.sequencing = false) ∧
    (let s := lit {} [(F.hrtStat_band, 0, 2)]
     s.hearth.rails = 6 ∧ s.get F.hrtStat_band = 2 ∧ s.flag F.hrtStat_req38 = false ∧ s.hearth.sag = none ∧ s.hearth.swell = none ∧
     s.get F.hrtEvtThr_sag_mv ≤ 48000 ∧ 48000 ≤ s.get F.hrtEvtThr_swell_mv ∧
     (nxt (exec (.hearthSample 48000 0 0 0) s)).get F.hrtVin_v_mv = 48000 ∧
     (nxt (exec (.hearthSample 37999 0 0 0) s)).flag F.hrtStat_req38 = true ∧ mirState s ≠ 10 ∧ s.queues = [] ∧
     mirState (nxt (exec (.hearthSample 33999 0 0 0) s)) = 10 ∧ (nxt (exec (.hearthSample 29999 0 0 0) s)).hearth.rails = 0) ∧
    (let s : State := { hearth := { failures := 2 } }
     s.hearth.rails = 0 ∧ s.hearth.sequencing = false ∧ (nxt (exec (.hearthSample 0 0 0 0) s)).hearth.failures = 0) ∧
    (let s := regs [(F.hrtStat_req38, 0, 1), (F.hrtStat_band, 0, 5), (F.hrtVin_v_mv, 0, 39001)] {}
     s.flag F.hrtStat_req38 = true ∧ s.get F.hrtStat_band = 5 ∧ 39000 < s.get F.hrtVin_v_mv ∧
     (nxt (exec .req38End s)).get F.hrtStat_band = 1) ∧
    (let s := regs [(F.hrtStat_req38, 0, 1), (F.hrtStat_band, 0, 6), (F.hrtVin_v_mv, 0, 39001)] {}
     (nxt (exec .req38End s)).get F.hrtStat_band = 6 ∧ (nxt (exec .req38End s)).flag F.hrtStat_req38 = false ∧
     (nxt (exec .req38End (s.set F.hrtVin_v_mv 39000))).flag F.hrtStat_req38 = true) := by decide +kernel

set_option maxRecDepth 100000 in
theorem met_SensorsMeasureAndTrip :
    (let s : State := { hearth := { windowDone := some ((List.range 20).map (fun i => if i % 2 = 0 then 100000 else 200000)) } }
     s.flag F.hrtCtl_mains = false ∧ (nxt (exec (.rippleWindow false false false false) s)).hearth.windowDone = none ∧
     (nxt (exec (.rippleWindow false false false false) {})).get F.hrtHarm0_h1 = 0) ∧
    (natBit (0 : Word32).toNat 29 = false ∧ (nxt (exec (.waveArm 0x1F00_0005) {})).hearth.capturing = true ∧
     (nxt (exec (.waveArm 0x1F00_0005) {})).get F.hrtWaveCtl_pre = 5) ∧
    (let s : State := { hearth := { capturing := true, taken := 9 } }
     s.hearth.trig = none ∧ (nxt (exec .waveSwTrig s)).hearth.trig = some 8 ∧ (nxt (exec .waveSwTrig {})).hearth.trig = none) ∧
    (let s : State := { hearth := { capturing := true, taken := 16384, trig := some 0 } }
     s.hearth.trig = some 0 ∧ 0 + 16384 ≤ s.hearth.taken + s.get F.hrtWaveCtl_pre) ∧
    (let s := lit { atTick := true, fewer0 := 8, fewer1 := 7 } [(F.hrtCtl_shed_en, 0, 1)]
     s.flag F.hrtCtl_shed_en = true ∧ s.hearth.atTick = true ∧ s.hearth.phases0 ≤ 24 ∧ s.hearth.phases1 ≤ 24 ∧
     (nxt (exec (.phaseShed 0 0) s)).hearth.phases0 = 4 ∧ (nxt (exec (.phaseShed 1 36) s)).hearth.phases1 = 24 ∧
     (nxt (exec (.phaseShed 0 0) (lit { fewer0 := 8 } [(F.hrtCtl_shed_en, 0, 1)]))).hearth.phases0 = 24) ∧
    (let s := lit { atTick := true, fewer1 := 8 } [(F.hrtCtl_shed_en, 0, 1)]
     8 ≤ s.hearth.fewer1 ∧ s.hearth.fewer0 < 8 ∧ (nxt (exec (.phaseShed 1 36) s)).hearth.phases1 = 4) ∧
    (let s : State := { hearth := { atTick := true, mean0 := some 0, mean1 := none, trimTicks0 := 6250 } }
     s.hearth.atTick = true ∧ 6250 ≤ s.hearth.trimTicks0 ∧ s.hearth.mean0 = some 0 ∧ s.hearth.mean1 = none ∧
     (nxt (exec (.vcoreTrim 0) s)).hearth.trimTicks0 = 0 ∧ (nxt (exec (.vcoreTrim 1) s)).hearth.trimTicks1 = 6250) ∧
    (let s : State := { hearth := { atTick := true, mean1 := some 0, trimTicks1 := 6249 } }
     s.hearth.trimTicks1 < 6250 ∧ (nxt (exec (.vcoreTrim 1) s)).hearth.mean1 = some 0) ∧
    (let s : State := {}
     ([879] : List (BitVec 16)).all (fun x => decide (x.toInt < 8 * (s.cones.tripC : Int))) = true ∧
     (nxt (exec (.thermalConversion [879]) s)).cones.therm = [879] ∧ (8 * (s.cones.tripC : Int) ≤ 880) ∧
     mirState (nxt (exec (.thermalConversion [880]) s)) = 10 ∧ mirState (nxt (exec (.dramReading [2000]) s)) = 10 ∧
     (nxt (exec (.dramReading [0xFFFF]) s)).cones.dram = [0xFFFF]) := by decide +kernel

set_option maxRecDepth 100000 in
theorem met_SensorsMeasureAndTrip_requests :
    (let s : State := { cones := { therm := [800], trips := 16 } }
     s.flag F.klnFrameCtl_tick_en = false ∧ s.cones.dieD ≤ 3 ∧ s.cones.dramD ≤ 3 ∧ s.cones.droopD ≤ 3 ∧
     8 * ((s.get F.conThermCtl_thr_c : Int) + 5 * ((1 : Int) - 1)) ≤ 800 ∧ 1 ≤ (nxt (exec (.idleLatchTimer []) s)).cones.dieD ∧
     (nxt (exec (.idleLatchTimer []) s)).cones.droopD = 1) ∧
    (let s : State := { cones := { therm := [0], dram := [0], dieD := 3, dramD := 1, droopD := 1, dieCool := 6249 } }
     s.cones.dieD ≤ 3 ∧ s.cones.dramD ≤ 3 ∧ s.cones.droopD ≤ 3 ∧ (0 : Int) < 8 * ((s.get F.conThermCtl_thr_c : Int) + 5 * ((3 : Int) - 1) - 3) ∧
     (nxt (exec (.idleLatchTimer []) s)).cones.dieCool = 6250 ∧ (nxt (exec (.idleLatchTimer []) s)).cones.dieD = 3 ∧
     s.cones.dieCool < 6250 ∧ (nxt (exec (.throttleRequestFall false) s)).cones.dieD = 3 ∧ s.cones.dramCool < 6250 ∧
     (nxt (exec (.throttleRequestFall true) s)).cones.dramD = 1 ∧
     (nxt (exec .droopRequestEnd { cones := { droopD := 1, droopLeft := 1 } })).cones.droopD = 1) ∧
    (let s : State := { cones := { therm := [0], dram := [0], dieD := 3, dramD := 1, droopD := 1, dieCool := 6250, dramCool := 6250 } }
     0 < s.cones.dieD ∧ 0 < s.cones.dramD ∧ 6250 ≤ s.cones.dieCool ∧ 6250 ≤ s.cones.dramCool ∧ s.cones.droopLeft = 0 ∧
     (nxt (exec (.throttleRequestFall false) s)).cones.dieD = 2 ∧ (nxt (exec (.throttleRequestFall true) s)).cones.dramD = 0 ∧
     (nxt (exec .droopRequestEnd s)).cones.droopD = 0) ∧
    (let s := lit {} []
     s.hearth.rails = 6 ∧ s.sec.checking = false ∧ s.sec.burning = false ∧ (nxt (exec (.droopTrip 63) s)).cones.trips = 1 ∧
     (nxt (exec (.droopTrip 0) {})).cones.trips = 0) ∧
    (let s := { lit {} [] with sec := { checking := true, glitches := 1 } }
     s.sec.checking = true ∧ s.sec.glitches < 2 ∧ (nxt (exec (.droopTrip 0) s)).sec.glitches = 2) ∧
    (let s := { lit {} [] with sec := { burning := true, glitches := 2 } }
     2 ≤ s.sec.glitches ∧ (nxt (exec (.droopTrip 0) s)).get F.secBootStat_state = 7) := by decide +kernel

/-! ## RAS -/

/-- A record. -/
def rec0 (sev : Nat) : Rec := ⟨5, 6, sev, 7, 0x10, 0, 0, [1, 2]⟩

set_option maxRecDepth 100000 in
theorem met_RecordsAreNumberedAndKept :
    ((nxt (exec .errorRecord {})).recs = []) ∧
    (let s : State := { recs := [rec0 2] }
     s.recs = rec0 2 :: [] ∧ (rec0 2).sev ≠ 1 ∧ (nxt (exec .errorRecord s)).get F.rasSeq_last = 1 ∧
     (mget (nxt (exec .errorRecord s)).ras.ring 0 []).length = 64) ∧
    (let s : State := { recs := [rec0 1] }
     s.ras.keys.any (fun k => k.unit == 7 && k.op == 0x10) = false ∧ (nxt (exec .errorRecord s)).ras.keys = [⟨7, 0x10, 0, none⟩]) ∧
    (let s : State := { recs := [rec0 1], ras := { keys := [⟨7, 0x10, 0, none⟩] } }
     s.ras.keys.any (fun k => k.unit == 7 && k.op == 0x10) = true ∧ (nxt (exec .errorRecord s)).ras.keys = [⟨7, 0x10, 1, some (rec0 1)⟩]) ∧
    (let s : State := { recs := [rec0 3] }
     mirState s ≠ 10 ∧ s.queues = [] ∧ mirState (nxt (exec .errorRecord s)) = 10) ∧
    (let s : State := { ras := { keys := [⟨7, 0x10, 0, none⟩] } }
     s.ras.keys.find? (fun k => k.unit == 7 && k.op == 0x10) = some ⟨7, 0x10, 0, none⟩ ∧
     (nxt (exec (.coalesceWindowExpiry 7 0x10) s)).ras.keys = []) ∧
    (let s : State := { ras := { keys := [⟨7, 0x10, 3, some (rec0 1)⟩] } }
     s.ras.keys.find? (fun k => k.unit == 7 && k.op == 0x10) = some ⟨7, 0x10, 3, some (rec0 1)⟩ ∧
     ((mget (nxt (exec (.coalesceWindowExpiry 7 0x10) s)).ras.ring 0 []).drop 34).take 2 = [3, 0]) ∧
    (let b := leBytes 8 1 ++ List.replicate 56 0
     let s : State := { regs [(F.rasHringCtl_en, 0, 1), (F.rasHringCtl_size_log2, 0, 6), (F.rasHringBase_base, 0, 0x2000_0000)] {} with
       ras := { ring := [(0, b)] }, hearth := { onDieFilled := true, nearFilled := true } }
     s.flag F.rasHringCtl_en = true ∧ (0, b) ∈ s.ras.ring ∧ leAt b 0 8 = 1 ∧ s.ras.nextCopy ≤ 1 ∧ b.length = 64 ∧
     s.ras.copied < 2 ^ s.get F.rasHringCtl_size_log2 ∧ memWf s.mem = true ∧ hostQuiet s 1333 = true ∧ s.bad = [] ∧
     (nxt (exec .hostRingCopy s)).bytes 0x0200_0000_0000 64 = b.take 63 ++ [0x80]) ∧
    (let b := leBytes 8 65 ++ List.replicate 56 0
     let s : State := { regs [(F.rasHringCtl_en, 0, 1), (F.rasHringCtl_size_log2, 0, 6)] {} with
       ras := { ring := [(0, b)], copied := 64, nextCopy := 65 } }
     ¬(s.ras.copied + 2 ^ 32 - s.get F.rasHringHead_consumed) % 2 ^ 32 < 2 ^ s.get F.rasHringCtl_size_log2 ∧
     (nxt (exec .hostRingCopy s)).flag F.rasEvtStat_hring_full = true ∧ (nxt (exec .hostRingCopy {})).ras.copied = 0) := by
  decide +kernel

set_option maxRecDepth 100000 in
theorem met_RecordsAreNumberedAndKept_cores :
    (let s : State := { sec := { firmware := true }, ras := { hourRecs := [{ unit := 1, hour := 0, ce := 2 }] } }
     s.sec.firmware = true ∧ s.ras.history.length + s.ras.hourRecs.length ≤ 131071 ∧
     (nxt (exec .historyWrite s)).ras.history.map (fun h => (h.hour, h.ce)) = [(1, 2)]) ∧
    (let s : State := { cores := [(1152, { run := .running })] }
     mirState s ≠ 10 ∧ s.queues = [] ∧ mirState (nxt (exec (.parityHalt 1152) s)) = 10) ∧
    (let s := st sc0
     (s.core 0).run = .running ∧ (s.core 0).kernel = none ∧ ((nxt (exec (.parityHalt 0) s)).core 0).run = .parity ∧
     (s.core 0).wait.midway = false ∧
     ((nxt (exec (.parityHalt 1) s)).core 1).run = .idle) ∧
    (let l : Launch := { queue := 3, start := 0, idx := 0, cores := [0], left := [0], started := true }
     let s := { cmds 3 (fired 2) [] [(F.rasReplayCtl_en, 0, 8)] with launches := [l], cores := [(0, { run := .running, kernel := some (3, 0) })] }
     (s.core 0).kernel = some (3, 0) ∧ s.launches = [l] ∧ 0 ∈ l.left ∧ l.pairs = [] ∧ replayOn s 3 = true ∧
     (s.list 3 0).any (fun x => x.cut) = false ∧ (nxt (exec (.parityHalt 0) s)).launches.map (·.suspect) = [[0]]) ∧
    (let s : State := { regs [(F.rasFallowCtl_en, 0, 1)] {} with sec := { firmware := true } }
     s.flag F.rasFallowCtl_en = true ∧ s.sec.firmware = true ∧ fallowIdle s 0 = true ∧ fallowCore s (fieldOf 0) = some (localOf 0) ∧
     0 ∉ s.ras.retesting ∧ (nxt (exec (.fallowSegment 0 false true 0) s)).recs = [] ∧
     (nxt (exec (.fallowSegment 0 false false 0) s)).get F.rasFallowStat_state 0 = 2 ∧
     (nxt (exec (.fallowSegment 0 false false 0) s)).ras.retesting = [0] ∧
     (nxt (exec (.fallowSegment 0 true false 0) s)).recs.map (·.op) = [0x21] ∧
     (nxt (exec (.fallowSegment 0 false true 0) (s.set F.rasFallowCtl_segs 2))).ras.segs = [(0, 1)] ∧
     mget (nxt (exec (.fallowSegment 0 true true 0) (s.set F.rasFallowCtl_segs 1))).ras.next 0 0 = 1 ∧
     (nxt (exec (.fallowSegment 0 true true 0) {})).ras.next = []) ∧
    (let s : State := { ras := { retesting := [0], withheld := [0] } }
     0 ∈ s.ras.retesting ∧ s.launches = [] ∧ pastSteps s 0 (mget s.ras.passedAt 0 0) = [] ∧
     (nxt (exec (.fallowSegment 0 false false 0) s)).recs.map (·.op) = [0x21] ∧
     (nxt (exec (.fallowSegment 0 false false 0) s)).ras.withheld = [] ∧
     (nxt (exec (.fallowSegment 0 false false 3) s)).ras.withheld = [0] ∧
     (nxt (exec (.fallowSegment 0 false false 3) s)).recs.map (·.op) = [0x20]) ∧
    (let l : Launch := { queue := 3, start := 0, idx := 0, cores := [0], left := [], startedAt := 1 }
     let u := { cmds 3 { fired 2 with past := [l] } [] [(F.rasReplayCtl_en, 0, 8)] with ras := { retesting := [0], withheld := [0] } }
     pastSteps u 0 (mget u.ras.passedAt 0 0) = [(3, 0, l)] ∧ (u.list 3 0).isSome = true ∧ l.pairs = [] ∧ replayOn u (ctxOf 3) = true ∧
     (nxt (exec (.fallowSegment 0 true false 3) u)).launches.map (·.suspect) = [[0]]) := by decide +kernel

/-! ## Boot, management, resets -/

/-- What the checks of a sound image find. -/
def image0 : ImageReport := ⟨true, true, true, true⟩

/-- The header and table of an image of 192 bytes and security version v: one section of 64 bytes at offset 128, for
target 0 (19 R628). -/
def head0 (v : Nat) : List Byte :=
  leBytes 4 0x57465143 ++ [1, 0, 0, 0] ++ leBytes 4 v ++ leBytes 4 192 ++ List.replicate 8 0 ++ leBytes 4 1 ++ List.replicate 36 0
    ++ leBytes 4 128 ++ leBytes 4 64 ++ List.replicate 4 0 ++ leBytes 4 0

/-- The whole image, and its signature block with keys of zeros, whose digests the key slots hold at reset. -/
def body0 (v : Nat) : List Byte := head0 v ++ List.replicate 48 0 ++ [1, 2, 3] ++ List.replicate 61 0
def slot0 (v : Nat) : List Byte := body0 v ++ List.replicate 4096 0

/-- The same image as a recovery stream carries it, but for its last byte, a zero. -/
def stream0 (v : Nat) : List Byte := head0 v ++ List.replicate 4096 0 ++ (body0 v).take 191

/-- The rails up, with this of boot and these registers. -/
def booting (x : Sec) (more : List (Fld × Nat × Nat)) : State := { lit {} more with sec := x }

/-- With the machine code segment of every compute core installed. -/
def segmented (s : State) : State := { s with regs := s.regs ++ (List.range 1152).map (fun i => ((Reg.dbgMsegLimit, i), 1)) }

set_option maxRecDepth 100000 in
theorem met_BootChecksImages :
    (let s := booting {} []
     s.hearth.rails = 6 ∧ s.hearth.onDieFilled = true ∧ s.resets.warm = false ∧ s.pins.modResetN = true ∧
     s.get F.secBootStat_state = 0 ∧ s.flag F.secBootCtl_rcv_next = false ∧
     (nxt (exec .romStart s)).get F.secBootStat_state = 1 ∧
     (nxt (exec .romStart (booting {} [(F.secBootCtl_rcv_next, 0, 1)]))).get F.secBootStat_reason = 10 ∧
     (nxt (exec .romStart { s with pins := { s.pins with modResetN := false } })).get F.secBootStat_state = 0) ∧
    (let s := booting { checking := true, slot := slot0 1 } [(F.secBootStat_state, 0, 1)]
     let t := nxt (exec (.imageCheckDone image0) s)
     s.sec.checking = true ∧ s.get F.secBootStat_state = 1 ∧ s.hearth.nearFilled = true ∧ s.bad = [] ∧ memWf s.mem = true ∧
     imageFault image0 (slotImage s.sec.slot) s = 0 ∧ (slotImage s.sec.slot).sections = [⟨128, 64, 0, 0⟩] ∧
     t.bytes 0x0300_9001_0000 3 = [1, 2, 3] ∧ t.get F.secBootStat_state = 2 ∧
     (nxt (exec (.imageCheckDone { image0 with hssOk := false }) s)).get F.secBootStat_reason = 5 ∧
     (nxt (exec (.imageCheckDone { image0 with flashOk := false, hssOk := false }) s)).get F.secBootStat_reason = 1 ∧
     (nxt (exec (.imageCheckDone image0) (s.set F.secSvn_fused 2))).get F.secBootStat_reason = 6) ∧
    (let s := booting { checking := true } [(F.secBootStat_state, 0, 1)]
     imageFault image0 (slotImage s.sec.slot) s = 2 ∧ (nxt (exec (.imageCheckDone image0) s)).get F.secBootStat_reason = 2 ∧
     (nxt (exec (.imageCheckDone image0) { s with hearth := { s.hearth with nearFilled := false } })).get F.secBootStat_state = 1) ∧
    (let s := booting { checking := true, slot := slot0 1, keys := [⟨sha384 (List.replicate 96 0), [], false⟩] } [(F.secBootStat_state, 0, 1)]
     imageFault image0 (slotImage s.sec.slot) s = 3 ∧ (nxt (exec (.imageCheckDone image0) s)).get F.secBootStat_reason = 3)
     := by decide +kernel

set_option maxRecDepth 100000 in
theorem met_BootChecksImages_ready :
    (let s := booting { firmware := true, commit := true, distSet := true } [(F.secBootStat_state, 0, 3), (F.fmcGlbStat_fill, 0, 2), (F.secBootStat_svn, 0, 1)]
     s.pins.modResetN = true ∧ s.sec.firmware = true ∧ s.hearth.nearFilled = true ∧ s.get F.fmcGlbStat_fill = 2 ∧ segmentsIn (segmented s) = true ∧
     (segmented s).get F.secBootStat_state = 3 ∧ (segmented s).get F.fmcGlbStat_fill = 2 ∧
     (nxt (exec .ready (segmented s))).get F.secBootStat_state = 4 ∧ segmentsIn s = false ∧ nxt (exec .ready s) = s ∧
     (nxt (exec .ready (s.set F.fmcGlbStat_fill 3))).get F.secBootStat_state = 6 ∧
     (nxt (exec .ready (s.set F.fmcGlbStat_fill 1))).get F.secBootStat_state = 3) ∧
    (let s := booting { burning := true } [(F.secSvn_fused, 0, 63), (F.secBootStat_svn, 0, 64)]
     s.sec.burning = true ∧ s.get F.secSvn_fused < s.get F.secBootStat_svn ∧ s.get F.secBootStat_svn ≤ 64 ∧
     (nxt (exec .fuseBurn s)).get F.secSvn_fused = 64) ∧
    (let s := booting { firmware := true } [(F.secLmsLimit_limit, 0, 1024), (F.secLms_q, 0, 1024)]
     s.get F.secLmsLimit_limit ≤ s.get F.secLms_q ∧ (nxt (exec .lmsReservation s)).get F.secLmsLimit_limit = 2048 ∧
     lmsNewest s = none ∧ (nxt (exec .lmsReservation s)).sec.lms = [(0, lmsRecord 2048 1)] ∧
     (s.set F.secLms_q 1023).get F.secLms_q < (s.set F.secLms_q 1023).get F.secLmsLimit_limit) ∧
    (let s := booting { firmware := true, lms := [(0, lmsRecord 1024 1)] } [(F.secLmsLimit_limit, 0, 1024), (F.secLms_q, 0, 1024)]
     lmsNewest s = some (0, lmsRecord 1024 1) ∧
     (nxt (exec .lmsReservation s)).sec.lms = [(0, lmsRecord 1024 1), (1, lmsRecord 2048 2)]) := by decide +kernel

set_option maxRecDepth 100000 in
theorem met_BootChecksImages_recovery :
    (let s := booting { stream := stream0 1 } [(F.secBootStat_state, 0, 5)]
     let go := fun n : Nat => BitVec.ofNat 32 (n + 1)
     natBits (0 : Word32).toNat 16 0 = 0 ∧ (nxt (exec (.rcvGo 0 image0) s)).get F.secRcvStat_state = 3 ∧
     natBits (65536 : Word32).toNat 16 0 = 65536 ∧ s.sec.holder ≠ some true ∧ s.get F.secRcvStat_state ≠ 1 ∧
     (nxt (exec (.rcvGo 5 image0) s)).get F.secRcvStat_bytes = 5 ∧
     (nxt (exec (.rcvGo (go (2 ^ 30 + 2 ^ 29)) image0) s)).sec.reflashing = true ∧
     (nxt (exec (.rcvGo (go (2 ^ 30)) image0) s)).get F.secBootStat_state = 2 ∧
     (nxt (exec (.rcvGo (go (2 ^ 30)) { image0 with ecdsaOk := false }) s)).get F.secRcvStat_reason = 4 ∧
     (let x := { s with hearth := { s.hearth with nearFilled := false } }
      let t := nxt (exec (.rcvGo (go (2 ^ 30)) image0) x)
      x.hearth.nearFilled = false ∧ t.sec.checkWaits = true ∧ t.get F.secRcvStat_state = 1 ∧ t.sec.stream = stream0 1 ++ [0] ∧
      (nxt (exec (.imageCheckDone image0) t)).get F.secBootStat_state = 5) ∧
     (nxt (exec (.rcvGo 1 image0) (booting { holder := some true } [(F.secBootStat_state, 0, 5)]))).get F.secRcvStat_state = 3) ∧
    (let s := booting { stream := stream0 1 ++ [0], holder := some false, checkWaits := true } [(F.secBootStat_state, 0, 5)]
     s.hearth.nearFilled = true ∧ s.get F.secBootStat_state = 5 ∧ s.sec.checkWaits = true ∧
     imageFault { image0 with flashOk := true } (streamImage s.sec.stream) s = 0 ∧
     (nxt (exec (.imageCheckDone image0) s)).get F.secBootStat_state = 2) ∧
    (let m := slotImage (slot0 1)
     let s := booting { holder := some false, staged := some (m, true) } []
     s.sec.holder ≠ none ∧ s.sec.reflashing = false ∧ (nxt (exec .rcvAbort s)).sec.staged = none ∧
     (nxt (exec .rcvAbort (booting {} []))).sec.holder = none) ∧
    (let m := slotImage (slot0 1)
     let s := booting { firmware := true, staged := some (m, true), reflashing := true } []
     let u := booting { staged := some (m, true), reflashing := true, holder := some true } []
     s.sec.staged = some (m, true) ∧ s.sec.reflashing = true ∧ (nxt (exec .reflashDone s)).mgt.pendingActivation = true ∧
     (nxt (exec .reflashDone s)).sec.slot = slot0 1 ∧
     u.sec.holder = some true ∧ (nxt (exec .reflashDone u)).mgt.replies = [⟨1, 0x18, 0, []⟩]) ∧
    (let m := slotImage (slot0 1)
     let s := booting { staged := some (m, true), reflashing := true, holder := some false } []
     s.sec.firmware = false ∧ s.sec.holder ≠ some true ∧ m.svn ≤ 64 ∧ (nxt (exec .reflashDone s)).sec.firmware = true ∧
     (nxt (exec .reflashDone (booting {} []))).sec.firmware = false) := by decide +kernel

set_option maxRecDepth 100000 in
theorem met_BootChecksImages_debug :
    (let s := booting { nonceFresh := true } []
     s.get F.secDbgStat_state = 0 ∧ s.sec.nonceFresh = true ∧ (nxt (exec .submit s)).get F.secDbgStat_state = 1 ∧
     (nxt (exec .submit (booting {} []))).get F.secDbgStat_fails = 1 ∧ (nxt (exec .newNonce (booting {} []))).sec.nonceFresh = true ∧
     (nxt (exec .submit (booting {} [(F.secDbgStat_state, 0, 3)]))).get F.secDbgStat_state = 3 ∧
     (nxt (exec .submit (booting {} [(F.secDbgStat_state, 0, 2), (F.secDbgStat_scope, 0, 2)]))).get F.secDbgStat_state = 2) ∧
    (let w := leBytes 4 0x4B544244 ++ [1, 0, 0, 0] ++ List.replicate 48 0 ++ [3, 0, 0, 0] ++ List.replicate 4 0
     let s := booting { token := w.zipIdx.map (fun p => (p.2, p.1)) }
       ([(F.secDbgStat_state, 0, 1), (F.dbgCtl_halt, 5, 1)] ++ (List.range 4).map (fun i => (F.secDevid_id, i, 0)) ++ (List.range 8).map (fun i => (F.secDbgNonce_nonce, i, 0)))
     let T := fun lo k : Nat => ofLeBytes ((nats k lo 1).map (fun i => mget s.sec.token i 0))
     s.get F.secDbgStat_state = 1 ∧ T 0 4 = 0x4B544244 ∧ T 4 2 = 1 ∧ T 6 2 = 0 ∧ T 56 4 < 4 ∧ T 60 4 = 0 ∧
     (List.range 4).all (fun i => T (8 + 4 * i) 4 == s.get F.secDevid_id i) = true ∧
     (List.range 8).all (fun i => T (24 + 4 * i) 4 == s.get F.secDbgNonce_nonce i) = true ∧
     (nxt (exec (.tokenCheckDone true true) s)).get F.secDbgStat_scope = 3 ∧
     dbgAttached (nxt (exec (.tokenCheckDone true true) s)) = true ∧ s.flag F.dbgCtl_halt 5 = true ∧
     ((nxt (exec (.tokenCheckDone true true) s)).core 5).halted = true ∧ ((nxt (exec (.tokenCheckDone true true) s)).core 6).halted = false ∧
     (nxt (exec (.tokenCheckDone true false) s)).get F.secDbgStat_fails = 1 ∧
     (nxt (exec (.tokenCheckDone true true) (booting {} []))).get F.secDbgStat_state = 0) ∧
    (let s := { booting {} [(F.secDbgStat_state, 0, 2)] with cores := [(0, { run := .running, halted := true })] }
     s.get F.secDbgStat_state ≠ 3 ∧ ((nxt (exec .relock s)).core 0).halted = false ∧
     (nxt (exec .relock (booting {} [(F.secDbgStat_state, 0, 3)]))).get F.secDbgStat_state = 3) := by decide +kernel

set_option maxRecDepth 100000 in
theorem met_ManagementPortAnswers :
    (let s := booting {} [(F.mgtStat_i3c, 0, 1), (F.mgtStat_dyn_addr, 0, 9)]
     s.pins.pwrGood = true ∧ s.flag F.mgtStat_i3c = true ∧ (nxt (exec (.entdaa 3) s)).get F.mgtStat_dyn_addr = 9 ∧
     (nxt (exec .rstdaa s)).get F.mgtStat_dyn_addr = 0 ∧ (nxt (exec (.setEndpointId 254) s)).get F.mgtStat_eid = 254 ∧
     (nxt (exec (.setEndpointId 255) s)).mgt.replies = [⟨0, 1, 2, []⟩]) ∧
    (let s := booting {} []
     s.flag F.mgtStat_i3c = false ∧ (nxt (exec (.entdaa 3) s)).get F.mgtStat_dyn_addr = 3 ∧
     (nxt (exec (.entdaa 3) s)).mgt.replies = [⟨3, 7, 0, [0x58, 0x8F, 0, 0, 0, 0]⟩] ∧ (nxt (exec .setaasa s)).get F.mgtStat_dyn_addr = 0x60 + s.get F.glbSlot_slot_id ∧
     s.sec.firmware = false ∧ s.get F.secBootStat_state ≠ 5 ∧ (nxt (exec .getpldmtypes s)).mgt.replies.map (·.data.take 1) = [[1]] ∧
     (nxt (exec (.sensorReading 1) s)).mgt.replies = [⟨1, 0x11, 4, []⟩] ∧
     (nxt (exec (.getMctpVersionSupport 6) s)).mgt.replies.map (·.code) = [0x80] ∧
     (nxt (exec (.firmwareDataReceive [1] false image0) s)).mgt.replies.map (·.code) = [4]) ∧
    (let f : FifoRec := ⟨7, 2, [1, 2]⟩
     let s := { booting { firmware := true } [] with mgt := { fifo := [f], latch := [48000, 2, 3, 1], events := [5] } }
     s.mgt.fifo = f :: [] ∧ s.mgt.fifo.length ≤ 256 ∧ s.mgt.latch = [48000, 2, 3, 1] ∧
     (nxt (exec .pollforplatformeventmessage s)).mgt.replies = [⟨1, 0x0B, 0, [1, 2]⟩] ∧
     (nxt (exec (.seteventreceiver 8) s)).mgt.receiver = some 8 ∧
     (nxt (exec (.platformeventmessageAck (.record 7)) s)).mgt.fifo = [] ∧
     (nxt (exec (.platformeventmessageAck (.event 5)) s)).mgt.events = [] ∧
     (nxt (exec (.sensorReading 1) s)).mgt.replies.map (·.data) = [leBytes 2 48000] ∧
     (nxt (exec (.sensorReading 0x15F) s)).mgt.replies.map (·.code) = [0] ∧
     (nxt (exec (.sensorReading 0xFF) s)).mgt.replies.map (·.code) = [0x80] ∧
     (nxt (exec (.getpldmversion 1) s)).mgt.replies.map (·.code) = [0x83]) := by decide +kernel

set_option maxRecDepth 100000 in
theorem met_ManagementPortAnswers_update :
    (let s := booting { firmware := true, stream := stream0 1 } []
     let m := streamImage (stream0 1 ++ [0])
     s.sec.firmware = true ∧ s.sec.reflashing = false ∧ ([0] : List Byte).length ≤ 4096 ∧
     imageFault { image0 with flashOk := true } m s = 0 ∧
     (nxt (exec (.firmwareDataReceive [1, 2] false image0) s)).mgt.updBytes = 2 ∧
     (nxt (exec (.firmwareDataReceive [0] true image0) s)).sec.staged = some (m, true) ∧
     (nxt (exec (.firmwareDataReceive [] true image0) s)).mgt.replies = [⟨1, 0x17, 2, []⟩] ∧
     (nxt (exec .activatefirmware s)).mgt.replies = [⟨1, 0x1A, 1, []⟩] ∧ (nxt (exec .updateCancel s)).mgt.replies = [⟨1, 0x1D, 1, []⟩]) ∧
    (let s := booting { stream := stream0 1 } [(F.secBootStat_state, 0, 5)]
     s.sec.firmware = false ∧ s.get F.secBootStat_state = 5 ∧ s.sec.reflashing = false ∧ s.sec.checkWaits = false ∧
     s.sec.holder ≠ some false ∧ s.hearth.nearFilled = true ∧
     (nxt (exec (.firmwareDataReceive [1] false image0) s)).sec.holder = some true ∧
     (nxt (exec (.firmwareDataReceive [0] true image0) s)).sec.reflashing = true ∧
     (nxt (exec (.firmwareDataReceive [] true image0) s)).get F.secRcvStat_reason = 2 ∧
     (nxt (exec (.firmwareDataReceive [0] true image0) { s with hearth := { s.hearth with nearFilled := false } })).sec.checkWaits = true ∧
     (let u := booting { checkWaits := true } [(F.secBootStat_state, 0, 5)]
      u.sec.checkWaits = true ∧ nxt (exec (.firmwareDataReceive [0] true image0) u) = u)) ∧
    (let s := booting { holder := some false } [(F.secBootStat_state, 0, 5)]
     s.sec.holder = some false ∧ (nxt (exec (.firmwareDataReceive [1] false image0) s)).get F.secRcvStat_state = 3) ∧
    (let m := slotImage (slot0 1)
     let s := booting { holder := some true, staged := some (m, true) } [(F.secBootStat_state, 0, 5)]
     s.sec.holder = some true ∧ s.sec.staged = some (m, true) ∧ m.svn ≤ 64 ∧ s.sec.reflashing = false ∧
     (nxt (exec .activatefirmware s)).get F.secBootStat_state = 2 ∧ (nxt (exec .updateCancel s)).sec.staged = none) := by decide +kernel

set_option maxRecDepth 100000 in
theorem met_SpdmAnswersInOrder :
    ((nxt (exec .getVersion {})).mgt.replies = [] ∧ (nxt (exec (.challenge 0) (booting {} []))).mgt.replies = [⟨2, 0x83, 3, []⟩]) ∧
    (let s := booting { firmware := true } []
     s.pins.pwrGood = true ∧ s.sec.firmware = true ∧ s.mgt.spdm < 3 ∧ s.mgt.spdm + 1 < 2 ∧ 1 ≤ s.mgt.spdm + 1 ∧
     (nxt (exec .getVersion s)).mgt.spdm = 1 ∧ (nxt (exec .getCapabilities s)).mgt.replies = [⟨2, 0xE1, 4, []⟩] ∧
     (nxt (exec (.spdmUnsupportedRequest 0xFF) s)).mgt.replies = [⟨2, 0xFF, 7, []⟩] ∧
     (nxt (exec (.challenge 0) s)).mgt.replies = [⟨2, 0x83, 4, []⟩]) ∧
    (let s := { booting { firmware := true } [] with mgt := { spdm := 3 } }
     s.mgt.spdm = 3 ∧ s.flag F.secBootStat_id_valid = false ∧ (nxt (exec (.challenge 0) s)).mgt.replies = [⟨2, 0x83, 5, []⟩]) ∧
    (let s := { booting { firmware := true } [(F.secBootStat_id_valid, 0, 1), (F.secLmsLimit_limit, 0, 1)] with mgt := { spdm := 3, signed := some (4, [7]), envelopes := 15 } }
     s.flag F.secBootStat_id_valid = true ∧ s.get F.secDbgStat_state ≠ 2 ∧ s.mgt.signed ≠ none ∧
     (if s.mgt.envelopeSecond = s.now / 1000000000 then s.mgt.envelopes else 0) < 16 ∧ s.get F.secLms_q < s.get F.secLmsLimit_limit ∧
     (nxt (exec (.challenge 0) s)).freeCount = 1 ∧ (nxt (exec (.challenge 1) s)).mgt.replies = [⟨2, 0x83, 1, []⟩] ∧
     (nxt (exec (.getMeasurements 5) s)).mgt.replies = [⟨2, 0xE0, 1, []⟩] ∧
     (nxt (exec (.vendorDefinedRequest (.envelope false)) s)).mgt.envelopes = 16 ∧
     (nxt (exec (.vendorDefinedRequest (.envelope false)) s)).get F.secLms_q = 1 ∧
     (nxt (exec (.vendorDefinedRequest (.envelope true)) s)).mgt.replies = [⟨2, 0xFE, 3, []⟩] ∧
     (nxt (exec (.vendorDefinedRequest (.envelope true)) s)).get F.secGlitchCnt_count = 1 ∧
     (nxt (exec (.vendorDefinedRequest (.envelope false)) (s.set F.secLms_q 1))).mgt.replies = [⟨2, 0xFE, 3, []⟩] ∧
     (nxt (exec (.vendorDefinedRequest (.envelope false)) { s with mgt := { spdm := 3 } })).mgt.replies = [⟨2, 0xFE, 4, []⟩]) := by decide +kernel

set_option maxRecDepth 100000 in
theorem met_ResetsClearAndKeep :
    (let s : State := { lit {} [] with mem := [(0, 5)], recs := [rec0 1] }
     s.pins.modResetN = true ∧ s.hearth.rails = 6 ∧ s.resets.warm = false ∧ (nxt (exec .modResetAssert s)).resets.warm = true ∧
     (nxt (exec .modResetAssert s)).mem = [(0, 5)] ∧ (nxt (exec .modResetAssert s)).recs = []) ∧
    (let s : State := { lit {} [] with resets := { warm := true } }
     s.resets.warm = true ∧ s.resets.byPin = false ∧ (nxt (exec .modResetAssert s)).resets.byPin = true ∧
     (nxt (exec .rstResetEnd s)).resets.warm = false ∧ (nxt (exec .modResetAssert {})).pins.modResetN = false) ∧
    (let s : State := { lit {} [] with pins := { modResetN := false }, resets := { warm := true, byPin := true } }
     s.pins.modResetN = false ∧ s.resets.byPin = true ∧ (nxt (exec .rstResetEnd s)).resets.warm = true ∧
     (nxt (exec .modResetAssert s)).resets = s.resets ∧ (nxt (exec .modResetRelease s)).resets.warm = false) ∧
    (let s := regs [(F.vclCtl_rst_en, 0, 1)] {}
     s.flag F.vclCtl_rst_en = true ∧ (0xA55A : Word64).toNat = 0xA55A ∧ (nxt (exec (.rst ⟨1, none, 0⟩ 7 0xA55A) s)).resets.rstWaits = some 1 ∧
     (nxt (exec (.rst ⟨1, none, 0⟩ 7 0xA55B) s)).resets.rstWaits = none ∧ (nxt (exec .rstDelayExpiry s)).resets.warm = false) ∧
    (let s : State := { resets := { rstWaits := some 1 } }
     s.resets.warm = false ∧ s.resets.rstWaits ≠ none ∧ rstAcked s = true ∧ (nxt (exec .rstDelayExpiry s)).resets.warm = true) ∧
    (let s := regs [(F.secBootStat_state, 0, 4)] (kiln list0 [])
     s.get F.secBootStat_state = 4 ∧ natBit (1 : BitVec 11).toNat 0 = true ∧ natBit (s.get F.glbEngRst_eng) 0 = false ∧
     ((nxt (exec (.engineReset ⟨1, false⟩) s)).queue 3).lists = [] ∧ natBit (8 : BitVec 16).toNat 3 = true ∧
     ((nxt (exec (.contextReset ⟨8, false⟩) s)).queue 3).lists = []) ∧
    (let s := regs [(F.glbCtxRst_ctx, 0, 8), (F.glbEngRst_eng, 0, 8)] {}
     s.bundles = [] ∧ s.syncAns = [] ∧ s.syncOps = [] ∧ s.cores = [] ∧ s.upkeep.late = [] ∧ s.clash = [] ∧ natBit (s.get F.glbCtxRst_ctx) 3 = true ∧
     natBit (s.get F.glbEngRst_eng) 3 = true ∧ (nxt (exec (.engineResetDone true 3) s)).get F.glbCtxRst_ctx = 0 ∧
     (nxt (exec (.engineResetDone false 3) s)).get F.glbEngRst_eng = 0) ∧
    (let s := regs [(F.glbCtxRst_ctx, 0, 8), (F.glbEngRst_eng, 0, 8)] {}
     let t := nxt (exec (.registerWrite .service 0x40 false ⟨8, 8⟩) s)
     let u := nxt (exec (.registerWrite .service 0x44 false ⟨8, 8⟩) s)
     resolve (0x40 : BitVec 26).toNat = some (.glbEngRst, 0, 0) ∧ resolve (0x44 : BitVec 26).toNat = some (.glbCtxRst, 0, 0) ∧
     natBit (8 : Word64).toNat 3 = true ∧
     (nxt (exec (.engineResetDone false 3) t)).get F.glbEngRst_eng = 8 ∧ (nxt (exec (.engineResetDone true 3) u)).get F.glbCtxRst_ctx = 8)
     := by decide +kernel

/-! ## The queue of commands -/

theorem met_StepRunsFront : (let s : State := { pending := [.rstdaa, .setaasa] }
    s.pending = .rstdaa :: [.setaasa] ∧ (nxt (step s)).pending = [.setaasa]) := by decide +kernel

theorem met_EmptyQueueIdles : (let s : State := {}; s.pending = [] ∧ (nxt (step s)).clk = 1) := by decide +kernel

theorem met_StepKeepsMemory : (let s : State := { pending := [.setaasa], mem := [(0, 5)] }
    memWf s.mem = true ∧ step s = .next (nxt (step s))) := ⟨by decide +kernel, rfl⟩

theorem test_no_words : decodeTableWord 32 0 = none ∧ State.reset.withFetchWord 32 0 = State.reset := ⟨rfl, rfl⟩

/-- One close mark of every sender over bundle 0. -/
def oneMark : List ((Nat × Nat) × Nat) := (List.range 1184).map (fun x => ((0, x), 1))

/-- A primary with two closed frames, where every one of the 1,184 senders has marked the first. -/
def markedAll : State := mirr 3 { arrived := oneMark, closing := [(5, 6), (7, 8)] } []

theorem mirr_mirror (st : Nat) (m : Mirror) (more : List (Fld × Nat × Nat)) : (mirr st m more).mirror = m := rfl

theorem marked_all (x : Nat) (h : x < 1184) : mget markedAll.mirror.arrived (0, x) 0 = 1 := by
  simp only [markedAll, mirr_mirror, oneMark]
  exact mget_map_const (fun y => (0, y)) (List.range 1184) x 1 0 (List.mem_range.mpr h)

theorem met_MirrorTrafficApplies_close :
    isPrimary markedAll = true ∧ usable markedAll .mir 0 = true ∧ mget markedAll.mirror.arrived (0, 5) 0 = 1 ∧
    (∀ x, x < 1184 → 0 < mget (mput markedAll.mirror.arrived (0, 5) 2) (0, x) 0) ∧
    max (mget markedAll.mirror.marked 0 0) markedAll.mirror.gone = 0 ∧ markedAll.mirror.closing[0]? = some (5, 6) := by
  refine ⟨by decide +kernel, by decide +kernel, marked_all 5 (by decide), fun x h => ?_, rfl, rfl⟩
  rw [mget_mput]
  split
  · decide
  · rw [marked_all x h]; decide

/-! ## Further cases of the statements -/

theorem met_ExitEndsPart_cases : let w := word 0xF 0 0 0 2
    (let s := st sc0
     s.launches = [] ∧ ((nxt (exec (.exit 0 ⟨w, .clean⟩) s)).core 0).kernel = none) ∧
    (let l : Launch := { queue := 3, start := 0, idx := 0, cores := [0, 1], left := [0, 1], started := true }
     let s := { (core { run := .running, kernel := some (3, 0), sc := sc0 }) with launches := [l] }
     issuesControl 0 w s = true ∧ quiet 0 s = true ∧ (s.core 0).kernel = some (3, 0) ∧ 1 ∈ l.left ∧ (1 : Nat) ≠ 0 ∧
     (nxt (exec (.exit 0 ⟨w, .clean⟩) s)).launches.map (·.left) = [[1]]) ∧
    (let s := core { run := .running, sc := sc0, accs := [(1, { poison := 1 })] }
     issuesControl 0 w s = true ∧ quiet 0 s = true ∧ (mget (s.core 0).accs 1 {}).poison = 1 ∧
     (nxt (exec (.exit 0 ⟨w, .clean⟩) s)).recs.length = 1) ∧
    (let s := core { run := .running, sc := sc0, accs := [(0, { poison := 2 })] }
     issuesControl 0 w s = true ∧ quiet 0 s = true ∧ (mget (s.core 0).accs 0 {}).poison ≠ 1 ∧
     (mget (s.core 0).accs 1 {}).poison ≠ 1 ∧ (mget (s.core 0).accs 0 {}).poison = 2) ∧
    (let s := st { sc0 with pl := 3 }
     issuesControl 0 w s = true ∧ quiet 0 s = true ∧ (scalar s 0).pl = 3) := by decide +kernel

theorem met_SystemCallsEnterHandlers_words :
    reservedWord 0xFFFF_FFFF = true ∧ (Instr.add 0 (word 0 1 2 3 0)).wf = true ∧
    decodeCore 0 (word 0 1 2 3 0) = some (.add 0 (word 0 1 2 3 0)) := by decide +kernel

set_option maxRecDepth 100000 in
theorem met_GroupSendsReachTargets_records :
    (let r : DgRec := ⟨64, 5, [(1, none)]⟩
     let s := chs { dgRec := some r } (BitVec.ofNat 64 0x1001)
     let w := cword 6 5 7 9 0
     (s.core 0).chan.dgRec = some r ∧ r.targets.all (fun p => p.2.isSome) = false ∧ issues 0 w s = true ∧
     ((nxt (exec (.dgsend 0 w .clean) s)).core 0).wait = .retry) ∧
    (let r : DgRec := ⟨60, 5, [(1, some 0)]⟩
     let s := chs { dgRec := some r } (BitVec.ofNat 64 0x1001)
     let w := cword 6 5 7 9 0
     r.pc ≠ (scalar s 0).pc ∧ r.targets.all (fun p => p.2.isSome) = true ∧ issues 0 w s = true ∧
     (nxt (exec (.dgsend 0 w .clean) s)).msgs.length = 1) ∧
    (let s := (chs {} (BitVec.ofNat 64 0x1000)).updSc 0 (fun k => k.setG 8 (BitVec.ofNat 64 desc01))
     let w := cword 8 5 7 0xA 0
     (s.core 0).chan.dgRec = none ∧ (descCores (reads s 0 8).toNat).map (xlatCore s 0) ≠ [] ∧
     (nxt (exec (.dgsendm 0 w .clean) s)).msgs.map Msg.dst = [0, 1]) ∧
    (let r : DgRec := ⟨64, 5, [(0, some 0), (1, some 3)]⟩
     let s := (chs { dgRec := some r } (BitVec.ofNat 64 0x1000)).updSc 0 (fun k => k.setG 8 (BitVec.ofNat 64 desc01))
     let w := cword 8 5 7 0xA 0
     issues 0 w s = true ∧ (s.core 0).chan.dgRec = some r ∧ r.pc = (scalar s 0).pc ∧ r.handle = (scalar s 0).code.handle ∧
     r.targets.all (fun p => p.2.isSome) = true ∧ ((nxt (exec (.dgsendm 0 w .clean) s)).core 0).chan.dgRec = none) ∧
    (let s := (chs {} (BitVec.ofNat 64 0x1000)).updSc 0 (fun k => k.setG 8 (BitVec.ofNat 64 (2 ^ 16)))
     let w := cword 8 5 7 0xA 0
     issues 0 w s = true ∧ (s.core 0).chan.dgRec = none ∧
     (descOk (reads s 0 8).toNat = true → descCores (reads s 0 8).toNat = [] →
       mget (scalar (nxt (exec (.dgsendm 0 w .clean) s)) 0).g 8 0 = 0)) := by decide +kernel

theorem met_MessageArrivalsTakeEffect_channels :
    (let q : SendChan := { chan9 with dst := 7 }
     let s := arr1 { tx := [(4, q)] } (.space 4 32)
     chanAt s 1 4 = some q ∧ ¬(q.isOpen = true ∧ q.dst = 0) ∧ chanAt (nxt (exec (.spaceUpdateArrival 0 ⟨1, .clean⟩) s)) 1 4 = some q) ∧
    (let q : SendChan := { chan9 with dst := 0, isOpen := false, reply := some 0 }
     let s := arr1 { tx := [(4, q)] } (.closeNotice 4)
     chanAt s 1 4 = some q ∧ q.dst = 0 ∧ q.reply = some 0 ∧
     chanAt (nxt (exec (.closeNoticeArrival 0 ⟨1, .clean⟩) s)) 1 4 = some { q with broken := true }) := by decide +kernel

theorem met_CombinesMergeAndDeliver_order :
    let m : McWrite := ⟨0, 1, 0x300, [1, 2], 2, 1⟩
    let s := { arr1 {} (.dgAnswer 0) with mcs := [m] }
    takeFirst (fun m : McWrite => m.src == 0 && m.dst == 1) s.mcs = some (m, []) ∧ m.after ≠ 0 ∧
    (nxt (exec (.multicastWriteArrival 0 1 .clean {}) s)).mcs = [m] := by decide +kernel

theorem met_MatrixQueueWork_asked :
    let l : Landing := { landing0 with todo := [], asked := [⟨0x0300_0020_0000, 8, 0⟩] }
    let s := (mst []).updCore 0 (fun k => { k with landings := [l] })
    takeFirst (fun l => l.tile == 0) (s.core 0).landings = some (l, []) ∧ l.got = [] ∧ l.lost = [] ∧ l.asked ≠ [] ∧
    s.resps.any (fun r => respHere s 0 r && r.kind == .land 0) = false ∧
    ((nxt (exec (.landingComplete 0 0 .clean) s)).core 0).landings.map Landing.tile = [0] := by decide +kernel

theorem met_HomesServeRequests_kinds :
    (let s := home1 (.near 0) .fetch 0x0200_0000_0000 []
     atHome (.near 0) 0x0200_0000_0000 s = true ∧
     (nxt (exec (.nearMemoryRequest 0 1 {}) s)).resps.map (·.kind) = [.fetch]) ∧
    (let s := home1 (.spad 3) (.land 2) 0x0300_0060_0000 []
     atHome (.spad 3) 0x0300_0060_0000 s = true ∧
     (nxt (exec (.scratchpadRemoteAccess 3 1 {}) s)).resps.map (·.kind) = [.land 2]) ∧
    (let s := home1 (.near 0) (.writeBack []) 0x0200_0000_0000 (leBytes 8 0x77)
     atHome (.near 0) 0x0200_0000_0000 s = true ∧
     (nxt (exec (.nearMemoryRequest 0 1 {}) s)).mem = [(0x0200_0000_0000, 0x77)]) ∧
    (let s := { home1 (.near 0) .fetch 0x0200_0000_0000 [] with hearth := {} }
     homeServes s (.near 0) 0x0200_0000_0000 = false ∧ (nxt (exec (.nearMemoryRequest 0 1 {}) s)).reqs = s.reqs) := by
  decide +kernel

theorem met_CalibrationAndRepairRun_next :
    let s : State := { regs [(F.fmcStat_state, 3, 3), (F.fmcStat_state, 7, 3)] {} with
      upkeep := { cal := [(3, { slices := 2, late := true }), (7, { slices := 1, running := true })] } }
    (calOf s 7).running = true ∧ (calOf s 7).late = false ∧ 7 ∉ s.upkeep.granted ∧ sliceOwed s 3 = true ∧ 0 < (calOf s 3).slices ∧
    3 ∉ s.upkeep.granted ∧ (∀ r, r < 8 → r ≠ 7 → (calOf s r).running = false ∧ (r < 3 → (calOf s r).late = false)) ∧
    (calOf (nxt (exec (.retrainSliceEnd 7 false) s)) 3).running = true := by decide +kernel

theorem met_QueuesAndRingsRegisters_cases :
    (let l : CmdList := { list0 with fired := some 0, ended := some 0, stolen := 5 }
     let s := kiln l []
     recordDue s 3 = some l ∧ l.fired.isSome = true ∧ s.frame = 0 ∧
     (nxt (exec (.completionRecordWrite { queue := 3, ns := 9, cap := true }) s)).bytes 0x0200_0001_0000 32 =
       recordBytes s 3 { l with stolen := 9, capped := true } 1 ++ [0x80]) ∧
    (let s := { regs [(F.klnCrcoal_timer_us, 63, 1), (F.klnCrctl_irq_en, 63, 1), (F.vclBstat_state, 2, 6)] {} with
       rings := [(63, { written := 1, unsignalled := 1, covers := [listAgent 3 0] })]
       bundles := [((.vcl, 2), { unplaced := [(1, { kind := .mwr, agent := listAgent 3 0 })] })] }
     (s.ring 63).covers.all (hostQuiet s) = false ∧ s.pubs.any (fun p => p.kind == .ringMsg 63) = false ∧
     (nxt (exec (.coalesceTimerExpiry 63) s)).pubs.map (·.kind) = [.ringMsg 63]) ∧
    (let l : CmdList := { list0 with ended := some 5 }
     let s := kiln l []
     s.flag F.klnCrctl_en 0 = true ∧ s.queues = [(3, { fetch := 2, lists := [l] })] ∧ l.recording = false ∧ l.out = false ∧
     (List.range 64).all (fun k => k == 0 || !ringOwned s k 3) = true ∧
     ((nxt (exec (.ringDisable 0) s)).queue 3).lists = [] ∧ (nxt (exec (.ringDisable 0) s)).get F.engDbHead_head 3 = 2) := by
  decide +kernel

theorem met_RegisterAccessByCodes_resent :
    (let s := hosted [] |>.setBundle .vcl 2 { rxAny := true, rxSeq := 9 }
     (s.bundle .vcl 2).rxAny = true ∧ ((s.bundle .vcl 2).rxSeq + 4096 - (9 : BitVec 12).toNat) % 4096 < 2048 ∧
     (nxt (exec (.hwr ⟨1, some (2, 9), 0⟩ 1 0x100 [1, 2, 3, 4] false false {}) s)).mem = [] ∧
     (nxt (exec (.db ⟨1, some (2, 9), 0⟩ 3 16) s)).regs = s.regs ∧ (nxt (exec (.rst ⟨1, some (2, 9), 0⟩ 7 0) s)).bundles = s.bundles) ∧
    (let o : SyncOp := ⟨3, 9, .sig 1, 5, false⟩
     let s := { regs [(F.secDbgStat_state, 0, 2), (F.secDbgStat_scope, 0, 2), (F.dbgSynSel_phys, 0, 9)] {} with syncOps := [o] }
     synUnlocked s = true ∧ mget s.waiters 9 [] = [] ∧ (nxt (exec (.dbgSynSet ⟨7, [⟨3, .clean⟩]⟩) s)).get F.synCnt_count 9 = 8) := by decide +kernel

/-- The check value of CRC-64/WE, the CRC of 15 R503 by its published catalogue name, over the digits "123456789". -/
theorem test_crc : crc64 [0x31, 0x32, 0x33, 0x34, 0x35, 0x36, 0x37, 0x38, 0x39] = 0x62EC_59E3_F1A4_F00A := by decide +kernel

set_option maxRecDepth 100000 in
theorem met_LinksTrainAndReplay_refused :
    (let s := lnk .vcl 6 { nakSent := true, rxSeq := 5, rxAny := true } []
     let f := flitSealed ⟨9, 0, false, false, 0, 0, 0, [], 0⟩
     flitCrcGood f = true ∧ f.kind = 0 ∧ f.seq.toNat ≠ ((s.bundle .vcl 1).rxSeq + 1) % 4096 ∧ (s.bundle .vcl 1).waiting = [] ∧
     (nxt (exec (.flitReceive .vcl 1 f) s)).bundles = s.bundles ∧
     flitCrcGood { f with crc := f.crc + 1 } = false ∧
     ((nxt (exec (.flitReceive .vcl 1 { f with crc := f.crc + 1 }) s)).bundle .vcl 1).out = none) ∧
    (let s := lnk .vcl 6 {} []
     let f := flitSealed ⟨0, 0, false, false, 3, 9, 9, [], 0⟩
     flitCrcGood f = true ∧ 3 ≤ f.kind.toNat ∧ ((nxt (exec (.flitReceive .vcl 1 f) s)).bundle .vcl 1).nakSent = true) ∧
    (let s := lnk .vcl 6 { rxSeq := 4095 } []
     let f := flitSealed ⟨0, 0, false, false, 0, 0, 0, padTo 240 [0x7F], 0⟩
     flitCrcGood f = true ∧ f.kind = 0 ∧ f.seq.toNat = ((s.bundle .vcl 1).rxSeq + 1) % 4096 ∧
     (flitScan .vcl f (s.bundle .vcl 1).rxLeft).bad ≠ 0 ∧ (nxt (exec (.flitReceive .vcl 1 f) s)).flag F.vclEvtStat_proto_err = true) := by
  decide +kernel

set_option maxRecDepth 100000 in
theorem met_LinkTransactionsComplete_refused :
    let s := lnk .vcl 6 {} []
    s.resets.warm = false ∧ (5 : Word64).toNat ≠ 0xA55A ∧ usable s .vcl 1 = true ∧ (s.bundle .vcl 1).waiting.all (fun x => x.cls != 0) = true ∧
    (s.bundle .vcl 1).replay.length < 1024 ∧ ((nxt (exec (.rst ⟨1, none, 9⟩ 7 5) s)).bundle .vcl 1).replay.map (·.seq) = [0] := by decide +kernel

set_option maxRecDepth 100000 in
theorem met_RecordsAreNumberedAndKept_history :
    (let h : Hist := { unit := unitId 0 (coreXY 33) 0, hour := 0, fallow := 1 }
     let s : State := { sec := { firmware := true }, ras := { hourRecs := [h], withheld := [33] } }
     coreOfUnit h.unit = some 33 ∧ 0 < h.fallow ∧ natBit ((nxt (exec .historyWrite s)).get F.rasRetired_cores 1) 1 = true ∧
     (nxt (exec .historyWrite s)).ras.withheld = []) ∧
    (let h : Hist := { unit := 2 * 2 ^ 28 + 3, hour := 0, ue := 1, key := 0x0200_0000_0000 + 5 * 32768 + 3 * 2048 }
     let s : State := { sec := { firmware := true }, ras := { hours := 4, hourRecs := [h], history := [{ h with hour := 2 }] } }
     h.unit / 2 ^ 28 = 2 ∧ regionOf h.key = .near ∧ sliceOf h.key = 0 ∧ sliced h.key = h.key ∧ s.flag F.nmcRepair_go 0 = false ∧
     (nxt (exec .historyWrite s)).get F.nmcRepair_row 0 = 5 ∧ (nxt (exec .historyWrite s)).get F.nmcRepair_bank 0 = 3) ∧
    (let h : Hist := { unit := 2 * 2 ^ 28 + 3, hour := 0, ce := 1, key := 0x0200_0000_0000 + 5 * 32768 + 3 * 2048 }
     let s : State := { sec := { firmware := true }
                        ras := { hours := 74, hourRecs := [h], history := [{ h with hour := 4 }, { h with hour := 5 }] } }
     (75 : Nat) < 4 + 72 ∧ (nxt (exec .historyWrite s)).flag F.nmcRepair_go 0 = true) := by decide +kernel

theorem met_CommandsRun_notReady :
    let l := fired 2
    let s := cmds 3 l (cmd [0x10]) []
    startsB 3 l (cmd [0x10]) s = true ∧ leAt (cmd [0x10]) 0 1 = 0x10 ∧ s.get F.secBootStat_state ≠ 4 ∧
    (nxt (exec (.launch 3 {}) s)).queues = s.queues := by decide +kernel

theorem met_ResetsClearAndKeep_wider :
    (nxt (exec (.engineReset ⟨1, true⟩) (kiln list0 []))).queues = (kiln list0 []).queues ∧
    (nxt (exec (.contextReset ⟨8, true⟩) (kiln list0 []))).queues = (kiln list0 []).queues ∧
    ((nxt (exec (.engineReset ⟨1, false⟩) (kiln list0 []))).queue 3).lists = [] ∧
    (kiln list0 []).get F.secBootStat_state ≠ 4 ∧
    (let s : State := { lit {} [] with cores := [(0, { dcache := { lfsr := 5 } })] }
     s.swath.all (fun w => !w.written) = true ∧ ((nxt (exec .modResetAssert s)).core 0).dcache.lfsr = 5) := by decide +kernel

/-! ## Well-formed words (03 R118-R122)

Each row of an instruction with its own word, every other field 0. -/

/-- The rows, in pieces: the command that carries a word, and the word. -/
def rows0 : List ((Word32 → Instr) × Word32) :=
  [(fun w => .add 0 w, 0x00000000), (fun w => .sub 0 w, 0x00000001), (fun w => .and 0 w, 0x00000002),
   (fun w => .or 0 w, 0x00000003), (fun w => .xor 0 w, 0x00000004), (fun w => .andn 0 w, 0x00000005),
   (fun w => .slt 0 w, 0x00000006), (fun w => .sltu 0 w, 0x00000007), (fun w => .sll 0 w, 0x00000008),
   (fun w => .srl 0 w, 0x00000009), (fun w => .sra 0 w, 0x0000000A), (fun w => .slli 0 w, 0x0000000B),
   (fun w => .srli 0 w, 0x0000000C), (fun w => .srai 0 w, 0x0000000D), (fun w => .min 0 w, 0x0000000E),
   (fun w => .max 0 w, 0x0000000F), (fun w => .minu 0 w, 0x00000010), (fun w => .maxu 0 w, 0x00000011),
   (fun w => .clz 0 w, 0x00000012), (fun w => .ctz 0 w, 0x00000013), (fun w => .popc 0 w, 0x00000014),
   (fun w => .sextw 0 w, 0x00000015), (fun w => .zextw 0 w, 0x00000016), (fun w => .addi 0 w, 0x08000000),
   (fun w => .andi 0 w, 0x10000000), (fun w => .ori 0 w, 0x18000000), (fun w => .xori 0 w, 0x20000000),
   (fun w => .lui 0 w, 0x28000000), (fun w => .lsi 0 w, 0x30000000), (fun w => .slti 0 w, 0x38000000),
   (fun w => .mul 0 w, 0xA0000000), (fun w => .mulh 0 w, 0xA0000001), (fun w => .mulhu 0 w, 0xA0000002),
   (fun w => .div 0 w, 0xA0000003), (fun w => .divu 0 w, 0xA0000004), (fun w => .rem 0 w, 0xA0000005)]

/-- The next rows. -/
def rows1 : List ((Word32 → Instr) × Word32) :=
  [(fun w => .remu 0 w, 0xA0000006), (fun w => .beq 0 w, 0x50000000), (fun w => .bne 0 w, 0x50004000),
   (fun w => .blt 0 w, 0x50008000), (fun w => .bge 0 w, 0x5000C000), (fun w => .bltu 0 w, 0x50010000),
   (fun w => .bgeu 0 w, 0x50014000), (fun w => .j 0 w, 0x58000000), (fun w => .jal 0 w, 0x60000000),
   (fun w => .jr 0 w, 0x68000000), (fun w => .jalr 0 w, 0x68000001), (fun w => .ld 0 w .clean, 0x40000000),
   (fun w => .st 0 w .clean, 0x48000000), (fun w => .cget 0 w, 0x70000000), (fun w => .cput 0 ⟨w, false⟩, 0x70000400),
   (fun w => .cupd 0 ⟨w, false⟩, 0x70000800), (fun w => .sys 0 w, 0x78000000), (fun w => .mark 0 w, 0x78000001),
   (fun w => .exit 0 ⟨w, .clean⟩, 0x78000002), (fun w => .resume 0 ⟨w, false⟩, 0x78000003),
   (fun w => .idle 0 w, 0x78000004), (fun w => .sld 0 ⟨w, false⟩, 0x80000000), (fun w => .snarrow 0 w, 0x80000001),
   (fun w => .sdrop 0 w, 0x80000002), (fun w => .srdb 0 w, 0x80000003), (fun w => .srdl 0 w, 0x80000004),
   (fun w => .srda 0 w, 0x80000005), (fun w => .swr 0 w, 0x80000006), (fun w => .lpset 0 w, 0x88000000),
   (fun w => .blkMov 0 w 0 .clean, 0x90000000), (fun w => .blkFill 0 w 0 .clean, 0x90000200),
   (fun w => .blkCmp 0 w 0 .clean, 0x90000400), (fun w => .blkScan 0 w 0 .clean, 0x90000600),
   (fun w => .blkMac 0 w 0 .clean, 0x90000800), (fun w => .mac2mVector 0 w (.clean, .clean) false, 0x98000000),
   (fun w => .mac2mTile 0 w .clean .clean, 0x98000800)]

/-- The next rows. -/
def rows2 : List ((Word32 → Instr) × Word32) :=
  [(fun w => .tkInit 0 w, 0xE0000000), (fun w => .tkPush 0 w, 0xE0000001), (fun w => .tkPushv 0 w, 0xE0000002),
   (fun w => .tkRd 0 w, 0xE0000003), (fun w => .tkCnt 0 w, 0xE0000004), (fun w => .tkThr 0 w, 0xE0000005),
   (fun w => .skHam 0 w, 0xE8000000), (fun w => .skHam2 0 w, 0xE8000001), (fun w => .skHam4 0 w, 0xE8000002),
   (fun w => .skSign 0 w, 0xE8000010), (fun w => .hsCrc 0 w, 0xE8000020), (fun w => .hsCrcw 0 w, 0xE8000021),
   (fun w => .hsMix 0 w, 0xE8000030), (fun w => .vadd 0 w, 0xA8000000), (fun w => .vsub 0 w, 0xA8000040),
   (fun w => .vmul 0 w false, 0xA8000080), (fun w => .vfma 0 w false, 0xA80000C0), (fun w => .vfms 0 w false, 0xA8000100),
   (fun w => .vmax 0 w, 0xA8000140), (fun w => .vmin 0 w, 0xA8000180), (fun w => .vabs 0 w, 0xA80001C0),
   (fun w => .vneg 0 w, 0xA8000200), (fun w => .vand 0 w, 0xA8000240), (fun w => .vor 0 w, 0xA8000280),
   (fun w => .vxor 0 w, 0xA80002C0), (fun w => .vsll 0 w, 0xA8000300), (fun w => .vsrl 0 w, 0xA8000340),
   (fun w => .vsra 0 w, 0xA8000380), (fun w => .vcmp 0 w, 0xA8000400), (fun w => .vbsel 0 w, 0xA8000440),
   (fun w => .vperm 0 w, 0xA8000480), (fun w => .vslide 0 w, 0xA80004C0), (fun w => .vzip 0 w, 0xA8000500),
   (fun w => .vuzp 0 w, 0xA8000540), (fun w => .vsplat 0 w, 0xA8000580), (fun w => .vext 0 w, 0xA80005C0)]

/-- The next rows. -/
def rows3 : List ((Word32 → Instr) × Word32) :=
  [(fun w => .vins 0 w, 0xA8000600), (fun w => .vmov 0 w, 0xA8000640), (fun w => .vrsum 0 w, 0xA8000800),
   (fun w => .vrmax 0 w, 0xA8000840), (fun w => .vrmin 0 w, 0xA8000880), (fun w => .vrmaxa 0 w, 0xA80008C0),
   (fun w => .vrarg 0 w, 0xA8000900), (fun w => .vexp2 0 w, 0xA8000A00), (fun w => .vlog2 0 w, 0xA8000A40),
   (fun w => .vrcp 0 w, 0xA8000A80), (fun w => .vrsqrt 0 w, 0xA8000AC0), (fun w => .vscl 0 w, 0xA8000B00),
   (fun w => .vitof 0 w, 0xA8000B40), (fun w => .vftoi 0 w, 0xA8000B80), (fun w => .vectorConversion 0 w, 0xA8000C00),
   (fun w => .vld 0 w .clean, 0xB0000000), (fun w => .vst 0 w .clean, 0xB0001000), (fun w => .vlds 0 w .clean, 0xB0000800),
   (fun w => .vsts 0 w .clean, 0xB0000820), (fun w => .vldt 0 w .clean, 0xB0000840),
   (fun w => .vstt 0 w .clean, 0xB0000860), (fun w => .tld 0 w 0 .clean, 0xC0000000),
   (fun w => .tst 0 w 0 .clean, 0xC0000200), (fun w => .tldt 0 w 0 .clean, 0xC0000400),
   (fun w => .tldz 0 w 0 .clean, 0xC0000600), (fun w => .tland 0 w, 0xC0000800), (fun w => .tmma 0 w, 0xB8000000),
   (fun w => .aclr 0 w, 0xB8000100), (fun w => .trel 0 w, 0xB8000200), (fun w => .tacc2v 0 w, 0xB8000300),
   (fun w => .tv2acc 0 w, 0xB8000400), (fun w => .tocc 0 w, 0xB8000500), (fun w => .tstat 0 w, 0xB8000600),
   (fun w => .tcfg 0 w, 0xB8000700), (fun w => .rxopen 0 w, 0xC8000000), (fun w => .rxclose 0 w, 0xC8000100)]

/-- The next rows. -/
def rows4 : List ((Word32 → Instr) × Word32) :=
  [(fun w => .chopen 0 w, 0xC8000200), (fun w => .chclose 0 w, 0xC8000300), (fun w => .chsend 0 w .clean, 0xC8000400),
   (fun w => .chrecv 0 w, 0xC8000500), (fun w => .chdone 0 w, 0xC8000600), (fun w => .chsel 0 w, 0xC8000700),
   (fun w => .dgring 0 w, 0xC8000800), (fun w => .dgsend 0 w .clean, 0xC8000900),
   (fun w => .dgsendm 0 w .clean, 0xC8000A00), (fun w => .mcwr 0 w .clean, 0xC8000B00),
   (fun w => .cbsend 0 w .clean, 0xC8000C00), (fun w => .amoAdd 0 w .clean, 0xD0000800),
   (fun w => .amoSwap 0 w .clean, 0xD0000820), (fun w => .amoCas 0 w .clean, 0xD0000840),
   (fun w => .amoAnd 0 w .clean, 0xD0000860), (fun w => .amoOr 0 w .clean, 0xD0000880),
   (fun w => .amoXor 0 w .clean, 0xD00008A0), (fun w => .amoMax 0 w .clean, 0xD00008C0),
   (fun w => .amoMin 0 w .clean, 0xD00008E0), (fun w => .sig 0 ⟨w, .clean⟩, 0xD0000000), (fun w => .wait 0 w, 0xD0000100),
   (fun w => .dec 0 w, 0xD0000200), (fun w => .sread 0 w, 0xD0000300), (fun w => .fenceRel 0 ⟨w, .clean⟩, 0xD8000800),
   (fun w => .fenceAcq 0 ⟨w, .clean⟩, 0xD8000900), (fun w => .fenceAr 0 ⟨w, .clean⟩, 0xD8000A00),
   (fun w => .dcInv 0 w, 0xD8000000), (fun w => .dcClean 0 ⟨w, .clean⟩, 0xD8000100),
   (fun w => .dcFlush 0 ⟨w, .clean⟩, 0xD8000200), (fun w => .dcAll 0 ⟨w, .clean⟩, 0xD8000300),
   (fun w => .icAll 0 w, 0xD8000400), (fun w => .pf 0 w, 0xD8000500)]

/-- Each row takes its own word, and neither the word of the row after it nor one of a major opcode that is undefined. -/
def smoke (l : List ((Word32 → Instr) × Word32)) : Bool :=
  l.all (fun r => (r.1 r.2).wf && !(r.1 0xFFFFFFFF).wf) && (l.zip l.tail).all (fun p => !(p.1.1 p.2.2).wf)

theorem test_wf_rows0 : smoke rows0 = true := by decide +kernel

theorem test_wf_rows1 : smoke rows1 = true := by decide +kernel

theorem test_wf_rows2 : smoke rows2 = true := by decide +kernel

theorem test_wf_rows3 : smoke rows3 = true := by decide +kernel

theorem test_wf_rows4 : smoke rows4 = true := by decide +kernel

/-- The lists and lengths that a rule bounds. -/
theorem test_wf_lists :
    (Instr.hrd ⟨0, none, 0⟩ 0 0 0 0 false {}).wf = false ∧ (Instr.hwr ⟨0, none, 0⟩ 0 0 [] false false {}).wf = false ∧
    (Instr.mfwd ⟨0, none, 0⟩ 0 0 [] false).wf = false ∧ (Instr.mfwd ⟨0, none, 0⟩ 0 0 (List.replicate 257 0) false).wf = false ∧
    (Instr.thermalConversion [1]).wf = false ∧ (Instr.dramReading [1]).wf = false ∧ (Instr.idleLatchTimer []).wf = false ∧
    (Instr.flitReceive .vcl 0 ⟨0, 0, false, false, 0, 0, 0, [], 0⟩).wf = false ∧
    (Instr.messageArrival 0 0 (.poisoned 0 5)).wf = false ∧ (Instr.datagramArrival 0 0 (.corrected 0 0x22)).wf = false ∧
    (Instr.firmwareDataReceive [] true ⟨true, true, true, true⟩).wf = false := by decide +kernel

end Sys2Proof.Tests
end

section
/-! A ring's message that already waits keeps the coalescing timer from covering anything (02 R109). -/

namespace Sys2Proof.Machine

/-- A ring's message that waits for its placements is not asked for a second time. -/
theorem ringMessage_of_waiting {m : Nat} {s : State} (h : s.pubs.any (fun p => p.kind == .ringMsg m) = true) :
    ringMessage m s = s := if_pos h

/-- So a ring is judged to no effect while its message waits. -/
theorem judgeIrq_of_waiting {m : Nat} {s : State} (now : Bool)
    (h : s.pubs.any (fun p => p.kind == .ringMsg m) = true) : judgeIrq m now s = s := by
  unfold judgeIrq
  dsimp only
  split
  · exact ringMessage_of_waiting h
  · rfl

/-- And the expiry of its coalescing timer changes nothing. -/
theorem coalesceTimer_of_waiting {m : Nat} {s : State} (h : s.pubs.any (fun p => p.kind == .ringMsg m) = true) :
    coalesceTimer m s = s := by
  unfold coalesceTimer
  split
  · rfl
  · exact judgeIrq_of_waiting true h

/-- Ring 0 was disabled and enabled again while its message waited for the placement of an older record, and has since
taken one record, of queue 3's list at slot 2, which is placed. -/
def messageOfOldRing : State :=
  { ((({} : State).set F.klnCrctl_en 1).set F.klnCrctl_irq_en 1).set F.klnCrcoal_timer_us 10 with
    rings := [(0, { written := 1, unsignalled := 1, covers := [listAgent 3 2] })]
    pubs := [⟨[], .ringMsg 0, { kind := .msi }⟩] }

/-- Refutes O46 in its clause on the coalescing timer: with every covered record placed the clause asks that the timer's
expiry sends the ring's message, but where one waits already (`messageOfOldRing`) the expiry leaves the state as it is, and
the record stays unsignalled. That no message waits is a hypothesis of the clause's second half alone. -/
theorem not_queuesAndRingsRegisters : ¬ Obligations.QueuesAndRingsRegisters := by
  unfold Obligations.QueuesAndRingsRegisters
  intro h
  obtain ⟨-, -, -, -, -, -, timer, -⟩ := h messageOfOldRing
  obtain ⟨sent, -⟩ := timer 0 (by decide) (by decide) (by decide)
  obtain ⟨t, ht, hring, -⟩ := sent (by decide)
  have hsame : coalesceTimer 0 messageOfOldRing = messageOfOldRing := coalesceTimer_of_waiting (by decide)
  have hexec : exec (.coalesceTimerExpiry 0) messageOfOldRing = .next (coalesceTimer 0 messageOfOldRing) := rfl
  have hold : (messageOfOldRing.ring 0).unsignalled = 1 := rfl
  rw [hexec, hsame] at ht
  injection ht with ht
  subst ht
  have hnew := congrArg Ring.unsignalled hring
  exact absurd (hold.symm.trans hnew) (by decide)

end Sys2Proof.Machine
end

section
/-! The end of grace where a core that is stopped was the last of a replay of another launch (02 R101, 18 R599). -/

namespace Sys2Proof.Machine

/-- The launch of queue 0's list that the abort policy has reached: it has not started, and names core 8. -/
def waitingLaunch : Launch := { queue := 0, start := 0, idx := 0, cores := [8], left := [8] }

/-- The replay that core 8 runs for queue 1, with fields 1 and 2 exchanged. -/
def runningReplay : Launch :=
  { queue := 1, start := 0, idx := 0, cores := [8], left := [8], started := true, pairs := [(1, 2)] }

/-- The list of queue 0, aborting. -/
def abortingList : CmdList := { start := 0, count := 1, fired := some 0, aborting := true }

/-- Core 8 runs the replay for queue 1, whose exchange covers whole scratchpads (sp_kib16 = 64), while the launch of queue
0's aborting list waits for it. -/
def graceInReplay : State :=
  { ({} : State).set F.rasReplayCtl_sp_kib16 64 with
    queues := [(0, { lists := [abortingList] })]
    launches := [waitingLaunch, runningReplay]
    cores := [(8, { run := .running, kernel := some (1, 0) })] }

/-- The grace of queue 0 stops core 8, whose part was the replay's last: the fields swap back, and what the stop left
undefined lies in scratchpad 16. -/
theorem abortGrace_graceInReplay_undef :
    (abortGrace 0 graceInReplay).undef.any (fun u => u.pad == 8) = false := by decide +kernel

/-- Refutes O45 in its clause on the end of grace: a core left of the launch that runs a part of another launch, a replay
(`graceInReplay`), has no undefined content in its own scratchpad afterwards. The clause has a hypothesis on the exchanged
fields of the list's launch, and none on the launch whose kernel the core runs. That a run reaches this state is not claimed. -/
theorem not_ticksFireAndOverrun : ¬ Obligations.TicksFireAndOverrun := by
  unfold Obligations.TicksFireAndOverrun
  intro h
  obtain ⟨-, -, grace⟩ := h {} graceInReplay
  obtain ⟨t, ht, hleft⟩ := grace 0 abortingList waitingLaunch (by decide) (by decide) (by decide) rfl
  have hexec : exec (.abortGraceExpiry 0) graceInReplay = .next (abortGrace 0 graceInReplay) := rfl
  rw [hexec] at ht
  injection ht with ht
  subst ht
  obtain ⟨-, hundef⟩ := hleft 8 (by decide) (by decide)
  exact absurd (abortGrace_graceInReplay_undef.symm.trans hundef) (by decide)

end Sys2Proof.Machine
end

section
/-! How the meanings of the integer unit end where their word issues, and what its operations are on numbers (03 R120-R122). -/

namespace Sys2Proof.Machine

open Sys2Proof.Safety

variable {c : CoreId} {w : Word32} {s : State}

/-! ## The end of an instruction that issues -/

/-- A word that issues and whose fields are legal has the effect of its body. -/
theorem issue_legal (h : issues c w s = true) {b : Bool} (hb : b = true) (srcs : List Nat) (body : Core → State → Eff) :
    issue c w .plain srcs (legal b) body s = finish c s (body (s.core c) s) :=
  issue_plain h srcs _ body (by simp [legal, hb])

/-- The same for a word that may stand neither in a delay slot nor at an active loop's end. -/
theorem issue_control_legal (h : issuesControl c w s = true) {b : Bool} (hb : b = true) (srcs : List Nat)
    (body : Core → State → Eff) : issue c w .control srcs (legal b) body s = finish c s (body (s.core c) s) :=
  issue_control h srcs _ body (by simp [legal, hb])

theorem aluRR_of_issues (h : issues c w s = true) (h0 : fld w 11 6 = 0) {one : Bool} (hone : one = true → rbOf w = 0)
    (f : Word64 → Word64 → Word64) {v : Word64} (hv : f (reads s c (raOf w)) (reads s c (rbOf w)) = v) :
    Host.Outcome.next (ρ := Refusal) (φ := Fault) (aluRR c w one f s) = .next (wroteG c (rdOf w) v s) := by
  have hb : (fld w 11 6 == 0 && (!one || rbOf w == 0)) = true := by cases one <;> simp_all
  subst hv
  exact congrArg _ (issue_legal h hb _ _)

theorem aluShiftI_of_issues (h : issues c w s = true) (hrb : rbOf w = 0) (f : Word64 → Nat → Word64) {v : Word64}
    (hv : f (reads s c (raOf w)) (fld w 11 6) = v) :
    Host.Outcome.next (ρ := Refusal) (φ := Fault) (aluShiftI c w f s) = .next (wroteG c (rdOf w) v s) := by
  subst hv
  exact congrArg _ (issue_legal h (by simp [hrb]) _ _)

theorem aluI_of_issues (h : issues c w s = true) {raZero : Bool} (hra : raZero = true → raOf w = 0) (f : Word64 → Word64)
    {v : Word64} (hv : f (reads s c (raOf w)) = v) :
    Host.Outcome.next (ρ := Refusal) (φ := Fault) (aluI c w raZero f s) = .next (wroteG c (rdOf w) v s) := by
  have hb : (!raZero || raOf w == 0) = true := by cases raZero <;> simp_all
  subst hv
  exact congrArg _ (issue_legal h hb _ _)

theorem mulRR_of_issues (h : issues c w s = true) (f : Word64 → Word64 → Word64) {v : Word64}
    (hv : f (reads s c (raOf w)) (reads s c (rbOf w)) = v) :
    Host.Outcome.next (ρ := Refusal) (φ := Fault) (mulRR c w f s) = .next (wroteG c (rdOf w) v s) := by
  subst hv
  exact congrArg _ (issue_legal h rfl _ _)

/-! ## Words as numbers -/

theorem shiftLeft_eq_ofNat {n : Nat} (a : BitVec n) (k : Nat) : a <<< k = BitVec.ofNat n (a.toNat * 2 ^ k) :=
  BitVec.eq_of_toNat_eq (by simp [Nat.shiftLeft_eq])

theorem shiftRight_eq_ofNat {n : Nat} (a : BitVec n) (k : Nat) : a >>> k = BitVec.ofNat n (a.toNat / 2 ^ k) :=
  BitVec.eq_of_toNat_eq (by
    have hlt : a.toNat / 2 ^ k < 2 ^ n := (Nat.div_le_self _ _).trans_lt a.isLt
    simp [Nat.shiftRight_eq_div_pow, Nat.mod_eq_of_lt hlt])

theorem sshiftRight_eq_ofInt {n : Nat} (a : BitVec n) (k : Nat) : a.sshiftRight k = BitVec.ofInt n (a.toInt / 2 ^ k) := by
  rw [BitVec.sshiftRight, Int.shiftRight_eq_div_pow]; norm_cast

theorem bit64_slt (a b : Word64) : bit64 (a.slt b) = if a.toInt < b.toInt then 1 else 0 := by
  simp [bit64, BitVec.slt]

theorem bit64_ult (a b : Word64) : bit64 (a.ult b) = if a.toNat < b.toNat then 1 else 0 := by
  simp [bit64, BitVec.ult]

theorem add_eq_ofNat {n : Nat} (a b : BitVec n) : a + b = BitVec.ofNat n (a.toNat + b.toNat) := rfl

theorem sub_eq_ofInt {n : Nat} (a b : BitVec n) : a - b = BitVec.ofInt n (a.toInt - b.toInt) :=
  BitVec.eq_of_toInt_eq (by simp)

theorem mul_eq_ofNat {n : Nat} (a b : BitVec n) : a * b = BitVec.ofNat n (a.toNat * b.toNat) := rfl

/-- A choice by the strict order is the opposite choice by the order with its operands exchanged. -/
theorem ite_slt_swap {α : Type} (a b : Word64) (x y : α) : (if b.slt a then x else y) = if a.toInt ≤ b.toInt then y else x := by
  simp only [BitVec.slt, decide_eq_true_eq, ← not_le, ite_not]

theorem ite_ult_swap {α : Type} (a b : Word64) (x y : α) : (if b.ult a then x else y) = if a.toNat ≤ b.toNat then y else x := by
  simp only [BitVec.ult, decide_eq_true_eq, ← not_le, ite_not]

/-! ## Counts of bits -/

theorem clzNat_eq (n v : Nat) (h : v < 2 ^ n) : clzNat n v = if v = 0 then n else n - 1 - Nat.log2 v := by
  induction n with
  | zero => simp at h; simp [clzNat, h]
  | succ n ih =>
    have hd : v / 2 ^ n < 2 := by rw [Nat.div_lt_iff_lt_mul (Nat.two_pow_pos n)]; omega
    rw [clzNat, Nat.mod_eq_of_lt hd]
    rcases Nat.lt_or_ge v (2 ^ n) with hlt | hge
    · rw [Nat.div_eq_of_lt hlt, if_neg (by decide), ih hlt]
      split
      · rfl
      · rename_i hv
        have := (Nat.log2_lt hv).mpr hlt
        omega
    · have hp := Nat.two_pow_pos n
      have h1 : v / 2 ^ n = 1 := by
        have := Nat.div_pos hge hp
        omega
      have hv : v ≠ 0 := by omega
      have hlog : Nat.log2 v = n := (Nat.log2_eq_iff hv).mpr ⟨hge, h⟩
      rw [if_pos h1, if_neg hv, hlog]
      omega

theorem ctzNat_zero (n : Nat) : ctzNat n 0 = n := by
  induction n with
  | zero => rfl
  | succ n ih => simp [ctzNat, ih]

/-- The lowest set bit has its number of zeros below it. -/
theorem ctzNat_of_lowest {n v i : Nat} (hi : i < n) (hset : v.testBit i = true) (hlow : ∀ m, m < i → v.testBit m = false) :
    ctzNat n v = i := by
  induction n generalizing v i with
  | zero => omega
  | succ n ih =>
    rw [ctzNat]
    cases i with
    | zero => rw [if_pos (by simpa using hset)]
    | succ j =>
      have hodd : ¬v % 2 = 1 := by simpa using hlow 0 (by omega)
      have hrest : ctzNat n (v / 2) = j := ih (Nat.lt_of_succ_lt_succ hi) (by rwa [Nat.testBit_succ] at hset)
        (fun m hm => by rw [← Nat.testBit_succ]; exact hlow (m + 1) (Nat.succ_lt_succ hm))
      rw [if_neg hodd, hrest]

theorem popNat_eq_count (n v : Nat) : popNat n v = ((List.range n).filter (fun i => v.testBit i)).length := by
  induction n generalizing v with
  | zero => rfl
  | succ n ih =>
    have ht : (List.range n).filter ((fun i => v.testBit i) ∘ Nat.succ) = (List.range n).filter (fun i => (v / 2).testBit i) :=
      List.filter_congr (fun i _ => by simp [Nat.testBit_succ])
    rw [popNat, ih, List.range_succ_eq_map, List.filter_cons, List.filter_map, ht]
    rcases Nat.mod_two_eq_zero_or_one v with hv | hv <;> simp [hv, Nat.testBit_zero, Nat.add_comm]

theorem ofNat_clzNat (a : Word64) :
    BitVec.ofNat 64 (clzNat 64 a.toNat) = if a = 0 then 64 else BitVec.ofNat 64 (63 - Nat.log2 a.toNat) := by
  rw [clzNat_eq 64 a.toNat a.isLt]
  by_cases ha : a = 0
  · simp [ha]
  · have hn : a.toNat ≠ 0 := fun h => ha (BitVec.eq_of_toNat_eq h)
    rw [if_neg ha, if_neg hn]

/-! ## Extensions -/

theorem sext_eq_signExtend (a : Word64) : sext 32 a.toNat = (a.setWidth 32).signExtend 64 := rfl

theorem zext_eq_setWidth (a : Word64) : BitVec.ofNat 64 (a.toNat % 2 ^ 32) = (a.setWidth 32).setWidth 64 :=
  BitVec.eq_of_toNat_eq (by simp)

/-- The low n bits of a number, extended to the 64 of a word, as a signed number. -/
theorem signExtend_ofNat_toInt {n m v : Nat} (hn : 0 < n) (hm : n ≤ m) (hv : v < 2 ^ n) :
    ((BitVec.ofNat n v).signExtend m).toInt = signed n v := by
  rw [BitVec.toInt_signExtend_of_le hm, BitVec.toInt_eq_toNat_cond, BitVec.toNat_ofNat, Nat.mod_eq_of_lt hv, signed]
  have hp : 2 ^ n = 2 * 2 ^ (n - 1) := by rw [← Nat.pow_succ']; congr 1; omega
  have hc : 2 * v < 2 ^ n ↔ v < 2 ^ (n - 1) := by omega
  simp only [hc]
  norm_cast

theorem fld_lt (w : Word32) (hi lo : Nat) : fld w hi lo < 2 ^ (hi + 1 - lo) := natBits_lt _ _ _

/-- imm17 as a signed number (03 R121). -/
theorem immS_toInt (w : Word32) : (immS w).toInt = signed 17 (fld w 16 0) :=
  signExtend_ofNat_toInt (by decide) (by decide) (fld_lt w 16 0)

theorem add_eq_ofInt {n : Nat} (a b : BitVec n) : a + b = BitVec.ofInt n (a.toInt + b.toInt) :=
  BitVec.eq_of_toInt_eq (by simp)

theorem shiftLeft_eq_ofInt {n : Nat} (a : BitVec n) (k : Nat) : a <<< k = BitVec.ofInt n (a.toInt * 2 ^ k) := by
  rw [shiftLeft_eq_ofNat, BitVec.ofInt_mul, BitVec.ofInt_toInt, BitVec.ofNat_mul, BitVec.ofNat_toNat, BitVec.setWidth_eq]
  rfl

end Sys2Proof.Machine
end

section
/-! The register, product and immediate operations (03 R120-R122). -/

namespace Sys2Proof.Machine

/-- Settles O6: each operation's function of its operands, as the model writes it, is the one of 03 R120 or R122 on numbers. -/
theorem registerOperationsCompute : Obligations.RegisterOperationsCompute := by
  unfold Obligations.RegisterOperationsCompute
  refine ⟨fun c w s h h0 => ?twoOperands, fun c w s h h0 hrb => ?oneOperand, fun c w s h hrb => ?shifts, fun c w s h => ?products⟩
  case twoOperands =>
    intro a b out
    have rr (f : Word64 → Word64 → Word64) {v : Word64} (hv : f a b = v) : .next (aluRR c w false f s) = out v :=
      aluRR_of_issues (one := false) h h0 nofun f hv
    exact ⟨rr _ (add_eq_ofNat a b), rr _ (sub_eq_ofInt a b), rr _ rfl, rr _ rfl, rr _ rfl, rr _ rfl,
      rr _ (bit64_slt a b), rr _ (bit64_ult a b),
      rr _ (shiftLeft_eq_ofNat a _), rr _ (shiftRight_eq_ofNat a _), rr _ (sshiftRight_eq_ofInt a _),
      rr _ (ite_slt_swap a b _ _), rr _ (ite_slt_swap b a _ _), rr _ (ite_ult_swap a b _ _), rr _ (ite_ult_swap b a _ _)⟩
  case oneOperand =>
    intro a out
    have one (f : Word64 → Word64) {v : Word64} (hv : f a = v) : .next (aluRR c w true (fun a _ => f a) s) = out v :=
      aluRR_of_issues h h0 (fun _ => hrb) (fun a _ => f a) hv
    refine ⟨one (fun a => BitVec.ofNat 64 (clzNat 64 a.toNat)) (ofNat_clzNat a), fun ha => one _ ?_, fun n hn hset hlow => one _ ?_,
      one _ (congrArg (BitVec.ofNat 64) (popNat_eq_count 64 a.toNat)), one _ (sext_eq_signExtend a), one _ (zext_eq_setWidth a)⟩
    · rw [ha]; rfl
    · rw [ctzNat_of_lowest hn hset hlow]
  case shifts =>
    intro a n out
    have sh (f : Word64 → Nat → Word64) {v : Word64} (hv : f a n = v) : .next (aluShiftI c w f s) = out v :=
      aluShiftI_of_issues h hrb f hv
    exact ⟨sh _ (shiftLeft_eq_ofNat a n), sh _ (shiftRight_eq_ofNat a n), sh _ (sshiftRight_eq_ofInt a n)⟩
  case products =>
    exact ⟨mulRR_of_issues h _ (mul_eq_ofNat _ _), mulRR_of_issues h _ rfl, mulRR_of_issues h _ rfl⟩

/-- Settles O7: imm17 is read as a signed number (`immS_toInt`), or zero-extended by the bitwise operations and `lsi`. -/
theorem immediateOperationsCompute : Obligations.ImmediateOperationsCompute := by
  unfold Obligations.ImmediateOperationsCompute
  intro c w s h a k z i out
  have im (f : Word64 → Word64) {v : Word64} (hv : f a = v) : .next (aluI c w false f s) = out v :=
    aluI_of_issues (raZero := false) h nofun f hv
  have hi : (immS w).toInt = i := immS_toInt w
  refine ⟨im _ ?_, im _ rfl, im _ rfl, im _ rfl, im _ (congrArg (· ||| z) (shiftLeft_eq_ofNat a 17)), im _ ?_, 
    fun hra => aluI_of_issues h (fun _ => hra) _ ?_⟩
  · rw [← hi]; exact add_eq_ofInt a (immS w)
  · rw [← hi]; exact bit64_slt a (immS w)
  · rw [← hi]; exact shiftLeft_eq_ofInt (immS w) 17

end Sys2Proof.Machine
end

section
/-! Control transfer: displacements, links, and where an instruction's end leaves the pc and the loop counts (03 R125-R127,
R149, R150). -/

namespace Sys2Proof.Machine

open Sys2Proof.Safety

variable {c : CoreId} {w : Word32} {s : State}

/-! ## Branches and jumps -/

/-- A displacement counted in instructions is four times the signed field. -/
theorem signExtend_mul_four {n v : Nat} (hn : 0 < n) (hm : n ≤ 48) (hv : v < 2 ^ n) :
    (BitVec.ofNat n v).signExtend 48 * 4 = BitVec.ofInt 48 (4 * signed n v) := by
  rw [mul_comm, BitVec.ofInt_mul, ← signExtend_ofNat_toInt hn hm hv, BitVec.ofInt_toInt]
  rfl

theorem off14_eq (w : Word32) : off14 w = BitVec.ofInt 48 (4 * signed 14 (fld w 13 0)) :=
  signExtend_mul_four (by decide) (by decide) (fld_lt w 13 0)

theorem off27_eq (w : Word32) : off27 w = BitVec.ofInt 48 (4 * signed 27 (fld w 26 0)) :=
  signExtend_mul_four (by decide) (by decide) (fld_lt w 26 0)

theorem branchIf_of_issues (h : issuesControl c w s = true) (p : Word64 → Word64 → Bool) {q : Bool}
    (hq : p (reads s c (raOf w)) (reads s c (rdOf w)) = q) :
    Host.Outcome.next (ρ := Refusal) (φ := Fault) (branchIf c w p s) =
      .next (branched c (if q then some ((scalar s c).pc + BitVec.ofInt 48 (4 * signed 14 (fld w 13 0))) else none) s) := by
  subst hq
  rw [← off14_eq]
  exact congrArg _ (issue_control_legal h rfl _ _)

theorem jump_of_issues (h : issuesControl c w s = true) (link : Bool) :
    Host.Outcome.next (ρ := Refusal) (φ := Fault) (jump c w link s) =
      .next (branched c (some ((scalar s c).pc + BitVec.ofInt 48 (4 * signed 27 (fld w 26 0))))
        (if link then s.updSc c (fun k => k.setG 31 (((scalar s c).pc + 8).setWidth 64)) else s)) := by
  rw [← off27_eq]
  exact congrArg _ (issue_control_legal h rfl _ _)

theorem jumpReg_of_issues (h : issuesControl c w s = true) (link : Bool) (hm : minorOf w = if link then 1 else 0)
    (hb : rbOf w = 0) (hd : if link then rdOf w ≠ raOf w else rdOf w = 0) (h4 : (reads s c (raOf w)).toNat % 4 = 0) :
    Host.Outcome.next (ρ := Refusal) (φ := Fault) (jumpReg c w link s) =
      .next (branched c (some ((reads s c (raOf w)).setWidth 48))
        (if link then s.updSc c (fun k => k.setG (rdOf w) (((scalar s c).pc + 8).setWidth 64)) else s)) := by
  have hok : (minorOf w == (if link then 1 else 0) && rbOf w == 0 && (if link then rdOf w != raOf w else rdOf w == 0)) = true := by
    cases link <;> simp_all
  exact congrArg _ ((issue_control_legal h hok _ _).trans (congrArg (finish c s) (if_neg (not_not_intro h4))))

/-! ## Retirement and loops -/

@[simp] theorem scalar_retired (c : Nat) (s : State) : scalar (retired c s) c = retireSc none (scalar s c) :=
  congrArg Core.sc (State.core_updCore_self ..)

@[simp] theorem scalar_branched (c : Nat) (t : Option (BitVec 48)) (s : State) :
    scalar (branched c t s) c = branchSc t (scalar s c) :=
  congrArg Core.sc (State.core_updCore_self ..)

@[simp] theorem scalar_updSc (c : Nat) (f : Scalar → Scalar) (s : State) : scalar (s.updSc c f) c = f (scalar s c) :=
  congrArg Core.sc (State.core_updSc_self ..)

/-- The instruction of a delay slot goes to the branch's target. -/
theorem retireSc_of_slot {k : Scalar} {b : Slot} (sh : Option Shadow) (h : k.slot = some b) :
    (retireSc sh k).pc = b.target.getD (k.pc + 4) ∧ (retireSc sh k).slot = none := by
  obtain ⟨p, ip, hp⟩ := pctrScalar_frame 2 1 k
  simp [retireSc, hp, h]

/-- Outside a delay slot the loops choose the next offset. -/
theorem retireSc_of_noSlot {k : Scalar} (sh : Option Shadow) (h : k.slot = none) :
    (retireSc sh k).pc = (loopNext k).1 ∧ (retireSc sh k).lc = (loopNext k).2 := by
  obtain ⟨p, ip, hp⟩ := pctrScalar_frame 2 1 k
  simp [retireSc, hp, h, loopNext]

theorem branchSc_eq (t : Option (BitVec 48)) (k : Scalar) :
    (branchSc t k).pc = k.pc + 4 ∧ (branchSc t k).slot = some ⟨k.pc, t, k.shadow⟩ := by
  obtain ⟨p, ip, hp⟩ := pctrScalar_frame 2 1 k
  simp [branchSc, hp]

/-- The instruction at the pc is the last of loop i, which is active (03 R150). -/
abbrev EndsLoop (k : Scalar) (i : Nat) : Prop := mget k.lc i 0 ≠ 0 ∧ k.pc = mget k.le i 0

/-- Loop i ends at the pc with passes left. -/
abbrev Repeats (k : Scalar) (i : Nat) : Prop := EndsLoop k i ∧ mget k.lc i 0 - 1 ≠ 0

/-- The counts once loop 1 has been judged. -/
def countedOne (k : Scalar) : List (Nat × Word32) := if EndsLoop k 1 then mput k.lc 1 (mget k.lc 1 0 - 1) else k.lc

/-- Loop 1 is judged first; loop 0 is judged where loop 1 does not repeat. -/
theorem loopNext_eq (k : Scalar) : loopNext k =
    if Repeats k 1 then (mget k.ls 1 0, countedOne k)
    else if EndsLoop k 0 then
      (if mget k.lc 0 0 - 1 ≠ 0 then mget k.ls 0 0 else k.pc + 4, mput (countedOne k) 0 (mget k.lc 0 0 - 1))
    else (k.pc + 4, countedOne k) := rfl

theorem countedOne_one (k : Scalar) :
    mget (countedOne k) 1 0 = if EndsLoop k 1 then mget k.lc 1 0 - 1 else mget k.lc 1 0 := by
  unfold countedOne
  split
  · exact mget_mput_self ..
  · rfl

theorem countedOne_zero (k : Scalar) : mget (countedOne k) 0 0 = mget k.lc 0 0 := by
  unfold countedOne
  split
  · exact mget_mput_of_ne _ _ _ (by decide)
  · rfl

theorem loopNext_pc (k : Scalar) : (loopNext k).1 =
    if Repeats k 1 then mget k.ls 1 0 else if Repeats k 0 then mget k.ls 0 0 else k.pc + 4 := by
  rw [loopNext_eq]
  by_cases h1 : Repeats k 1
  · rw [if_pos h1, if_pos h1]
  · rw [if_neg h1, if_neg h1]
    by_cases h0 : EndsLoop k 0
    · rw [if_pos h0]
      exact if_congr ⟨fun hn => ⟨h0, hn⟩, And.right⟩ rfl rfl
    · rw [if_neg h0, if_neg (fun h => h0 h.1)]

theorem loopNext_countOne (k : Scalar) :
    mget (loopNext k).2 1 0 = if EndsLoop k 1 then mget k.lc 1 0 - 1 else mget k.lc 1 0 := by
  rw [loopNext_eq, ← countedOne_one]
  split
  · rfl
  · split
    · exact mget_mput_of_ne _ _ _ (by decide)
    · rfl

theorem loopNext_countZero (k : Scalar) :
    mget (loopNext k).2 0 0 = if ¬Repeats k 1 ∧ EndsLoop k 0 then mget k.lc 0 0 - 1 else mget k.lc 0 0 := by
  rw [loopNext_eq]
  by_cases h1 : Repeats k 1
  · rw [if_pos h1, if_neg (fun h => h.1 h1)]
    exact countedOne_zero k
  · rw [if_neg h1]
    by_cases h0 : EndsLoop k 0
    · have hboth : ¬Repeats k 1 ∧ EndsLoop k 0 := ⟨h1, h0⟩
      rw [if_pos h0, if_pos hboth]
      exact mget_mput_self ..
    · rw [if_neg h0, if_neg (fun h => h0 h.2)]
      exact countedOne_zero k

/-- Where no loop ends, the next offset is 4 on and the counts stay. -/
theorem loopNext_of_noEnd {k : Scalar} (h0 : ¬EndsLoop k 0) (h1 : ¬EndsLoop k 1) : loopNext k = (k.pc + 4, k.lc) := by
  rw [loopNext_eq, if_neg (fun h => h1 h.1), if_neg h0, countedOne, if_neg h1]

/-! ## `lpset` -/

theorem onlyCore_updCore (c : Nat) (f : Core → Core) (s : State) : onlyCore c s (s.updCore c f) :=
  ⟨rfl, rfl, rfl, fun k hk => by rw [State.core_updCore, if_neg hk]⟩

theorem onlyCore_trans {c : Nat} {s t u : State} (h1 : onlyCore c s t) (h2 : onlyCore c t u) : onlyCore c s u := by
  obtain ⟨hm, hb, hr, hc⟩ := h1
  obtain ⟨hm', hb', hr', hc'⟩ := h2
  exact ⟨hm'.trans hm, hb'.trans hb, hr'.trans hr, fun k hk => (hc' k hk).trans (hc k hk)⟩

/-- A new loop over a body of n instructions does not end at the instruction that starts it. -/
theorem pc_ne_loopEnd (pc : BitVec 48) {n : Nat} (h0 : n ≠ 0) (hn : n < 2 ^ 17) : pc ≠ pc + BitVec.ofNat 48 (4 * n) := by
  intro h
  have h48 := congrArg BitVec.toNat h
  rw [BitVec.toNat_add, BitVec.toNat_ofNat] at h48
  omega

/-- With loop i set anew to end elsewhere, and no loop ending here before, none ends here. -/
theorem setLoop_noEnd {k : Scalar} {i : Nat} {ls le : BitVec 48} {n : Word32} (hle : k.pc ≠ le) {j : Nat} (hj : ¬EndsLoop k j) :
    ¬EndsLoop (k.setLoop i ls le n) j := by
  rintro ⟨hc, he⟩
  by_cases hi : j = i
  · subst hi
    exact hle (by simpa [Scalar.setLoop] using he)
  · simp only [Scalar.setLoop, mget_mput_of_ne _ _ _ hi] at hc he
    exact hj ⟨hc, he⟩

/-- A word that may not end a loop and issues stands at no active loop's end, and in no delay slot. -/
theorem noEnd_of_issuesControl {c : Nat} {w : Word32} {s : State} (h : issuesControl c w s = true) :
    (scalar s c).slot = none ∧ ¬EndsLoop (scalar s c) 0 ∧ ¬EndsLoop (scalar s c) 1 := by
  simp only [issuesControl, Bool.and_eq_true, Bool.not_eq_true', Option.isNone_iff_eq_none] at h
  obtain ⟨⟨-, hslot⟩, hloop⟩ := h
  have hno : ¬(EndsLoop (scalar s c) 0 ∨ EndsLoop (scalar s c) 1) := by
    simpa [loopHazard, scalar] using hloop
  exact ⟨hslot, fun h0 => hno (.inl h0), fun h1 => hno (.inr h1)⟩

/-- The loop that `lpset` sets, in the scalar part of its core. -/
def lpsetLoop (c : CoreId) (w : Word32) (s : State) : Scalar :=
  let k := scalar s c
  k.setLoop (fld w 22 22) (k.pc + 4) (k.pc + BitVec.ofNat 48 (4 * fld w 16 0)) ((reads s c (raOf w)).setWidth 32)

theorem lpset_of_issues {c : CoreId} {w : Word32} {s : State} (h : issuesControl c w s = true) (hf : fld w 26 23 = 0)
    (hn : fld w 16 0 ≠ 0) (hb : (lpsetLoop c w s).badNest = false) : lpset c w s = finish c s
      (if (reads s c (raOf w)).setWidth 32 = (0 : Word32) then
        .goto ((scalar s c).pc + BitVec.ofNat 48 (4 * fld w 16 0) + 4) (s.updSc c (fun _ => lpsetLoop c w s))
      else .done (s.updSc c (fun _ => lpsetLoop c w s))) := by
  have hok : (fld w 26 23 == 0 && fld w 16 0 != 0) = true := by simp [hf, hn]
  exact (issue_control_legal h hok _ _).trans (congrArg (finish c s) (if_neg (Bool.eq_false_iff.mp hb)))

/-- A loop started with a count other than 0 does not end at its `lpset`: the pc goes on, and the loop stands as set. -/
theorem retireSc_lpsetLoop {c : CoreId} {w : Word32} {s : State} (h : issuesControl c w s = true) (hn : fld w 16 0 ≠ 0) :
    (retireSc none (lpsetLoop c w s)).pc = (scalar s c).pc + 4 ∧
      (retireSc none (lpsetLoop c w s)).lc = (lpsetLoop c w s).lc := by
  obtain ⟨hslot, h0, h1⟩ := noEnd_of_issuesControl h
  have hle := pc_ne_loopEnd (scalar s c).pc hn (fld_lt w 16 0)
  obtain ⟨hpc, hlc⟩ := retireSc_of_noSlot (k := lpsetLoop c w s) none hslot
  have hnext : loopNext (lpsetLoop c w s) = ((scalar s c).pc + 4, (lpsetLoop c w s).lc) :=
    loopNext_of_noEnd (setLoop_noEnd hle h0) (setLoop_noEnd hle h1)
  exact ⟨hpc.trans (congrArg Prod.fst hnext), hlc.trans (congrArg Prod.snd hnext)⟩

theorem retireSc_loops (sh : Option Shadow) (k : Scalar) : (retireSc sh k).ls = k.ls ∧ (retireSc sh k).le = k.le := by
  obtain ⟨_, _, _, _, _, _, hr⟩ := retireSc_frame sh k
  rw [hr]
  exact ⟨rfl, rfl⟩

/-- What an `lpset` that issues leaves. -/
theorem lpset_leaves {c : CoreId} {w : Word32} {s : State} (h : issuesControl c w s = true) (hf : fld w 26 23 = 0)
    (hn : fld w 16 0 ≠ 0) (hb : (lpsetLoop c w s).badNest = false) :
    onlyCore c s (lpset c w s) ∧ (scalar (lpset c w s) c).ls = (lpsetLoop c w s).ls ∧
      (scalar (lpset c w s) c).le = (lpsetLoop c w s).le ∧ (scalar (lpset c w s) c).lc = (lpsetLoop c w s).lc ∧
      (scalar (lpset c w s) c).pc = if (reads s c (raOf w)).setWidth 32 = (0 : Word32) then
        (scalar s c).pc + BitVec.ofNat 48 (4 * fld w 16 0) + 4 else (scalar s c).pc + 4 := by
  obtain ⟨hls, hle⟩ := retireSc_loops none (lpsetLoop c w s)
  have only (f : Core → Core) : onlyCore c s ((s.updSc c (fun _ => lpsetLoop c w s)).updCore c f) :=
    onlyCore_trans (onlyCore_updCore c (fun k => { k with sc := lpsetLoop c w s }) s) (onlyCore_updCore c f _)
  rw [lpset_of_issues h hf hn hb]
  split
  · have hsc : scalar (finish c s (.goto ((scalar s c).pc + BitVec.ofNat 48 (4 * fld w 16 0) + 4)
        (s.updSc c (fun _ => lpsetLoop c w s)))) c = { retireSc none (lpsetLoop c w s) with
          pc := (scalar s c).pc + BitVec.ofNat 48 (4 * fld w 16 0) + 4, lc := (lpsetLoop c w s).lc } := by
      simp [finish, scalar]
    rw [hsc]
    exact ⟨only _, hls, hle, rfl, rfl⟩
  · obtain ⟨hpc, hlc⟩ := retireSc_lpsetLoop h hn
    rw [finish_done, scalar_retired, scalar_updSc]
    exact ⟨only _, hls, hle, hlc, hpc⟩

end Sys2Proof.Machine
end

section
/-! Branches and jumps (03 R125-R127), and the next offset (03 R127, R149, R150). -/

namespace Sys2Proof.Machine

open Sys2Proof.Safety

/-- Settles O10: a branch and a jump retire with their target and link as the decision of the delay slot.
That a register's target is cut to 48 bits is the model's choice (log entry 16). -/
theorem branchesAndJumpsTransfer : Obligations.BranchesAndJumpsTransfer := by
  unfold Obligations.BranchesAndJumpsTransfer
  refine ⟨fun c w s h => ?branches, fun c w s h => ?jumps⟩
  case branches =>
    intro a b t out
    have br (p : Word64 → Word64 → Bool) {q : Bool} (hq : p a b = q) : .next (branchIf c w p s) = out q :=
      branchIf_of_issues h p hq
    exact ⟨br _ (beq_eq_decide a b), br _ (by simp only [bne, beq_eq_decide, ne_eq, decide_not]), br _ rfl,
      br _ (by simp only [BitVec.slt, ← decide_not, not_lt]), br _ rfl,
      br _ (by simp only [BitVec.ult, ← decide_not, not_lt])⟩
  case jumps =>
    exact ⟨jump_of_issues h false, jump_of_issues h true,
      fun h4 hb hm hd => jumpReg_of_issues h false hm hb hd h4, fun h4 hb hm hd => jumpReg_of_issues h true hm hb hd h4⟩

/-- Settles O9: loop 1 is judged before loop 0 (`loopNext_eq`), and a loop that `lpset` starts does not end at its own
`lpset` (`pc_ne_loopEnd`). -/
theorem nextOffsetFollowsLoops : Obligations.NextOffsetFollowsLoops := by
  unfold Obligations.NextOffsetFollowsLoops
  refine ⟨fun c s => ⟨fun b hb => ?slot, fun hslot => ?loops, fun t => ?branch⟩, fun c w s h hf hn => ?lpset⟩
  case slot =>
    rw [scalar_retired]
    exact retireSc_of_slot none hb
  case branch =>
    rw [scalar_branched]
    exact branchSc_eq t (scalar s c)
  case loops =>
    obtain ⟨hpc, hlc⟩ := retireSc_of_noSlot none hslot
    rw [scalar_retired, hpc, hlc, loopNext_pc, loopNext_countOne, loopNext_countZero]
    exact ⟨fun hr => if_pos hr, fun ⟨⟨hn1, hend⟩, hleft⟩ => (if_neg hn1).trans (if_pos ⟨hend, hleft⟩),
      fun hn1 hn0 => (if_neg hn1).trans (if_neg fun ⟨hend, hleft⟩ => hn0 ⟨⟨hn1, hend⟩, hleft⟩),
      fun he => if_pos he, fun hn => if_neg hn, fun he => if_pos he, fun hn => if_neg hn⟩
  case lpset =>
    intro k i n last hb
    obtain ⟨honly, hls, hle, hlc, hpc⟩ := lpset_leaves h hf hn hb
    refine ⟨lpset c w s, rfl, ?_, ?_, ?_, hpc, honly⟩
    · rw [hls]; exact mget_mput_self ..
    · rw [hle]; exact mget_mput_self ..
    · rw [hlc]; exact mget_mput_self ..

end Sys2Proof.Machine
end

section
/-! The segment instructions: their checks, and the handle entry that `sld` reads (03 R135-R137, 08 R309). -/

namespace Sys2Proof.Machine

open Sys2Proof.Safety

variable {c : CoreId} {w : Word32} {s : State}

/-! ## The end of an instruction -/

theorem noDivide_of_issues {c : Nat} {w : Word32} {s : State} (h : issues c w s = true) : (scalar s c).divide = none := by
  simp only [issues, Bool.and_eq_true, Option.isNone_iff_eq_none] at h
  obtain ⟨⟨⟨⟨⟨-, hdiv⟩, -⟩, -⟩, -⟩, -⟩ := h
  exact hdiv

/-- With no divide in flight a fault is taken. -/
theorem finish_trap_of_issues {c : Nat} {w : Word32} {s : State} (h : issues c w s = true) (f : Fail) (t : State) :
    finish c s (.trap f t) = (takeFault c f t).updCore c (fun k => { k with step := false }) := by
  have hdiv : (s.core c).sc.divide = none := noDivide_of_issues h
  simp [finish, hdiv]

/-- Of the state that an instruction began in, its end looks at the divide in flight alone. -/
theorem finish_of_noDivide {c : Nat} {s t : State} (hs : (scalar s c).divide = none) (ht : (scalar t c).divide = none) (e : Eff) :
    finish c s e = finish c t e := by
  have hs' : (s.core c).sc.divide = none := hs
  have ht' : (t.core c).sc.divide = none := ht
  cases e with
  | trap f u => simp [finish, hs', ht']
  | _ => rfl

/-! ## Bits of a number -/

theorem natBits_low (x hi : Nat) : natBits x hi 0 = x % 2 ^ (hi + 1) := by simp [natBits]

theorem natBit_eq_testBit (x i : Nat) : natBit x i = x.testBit i := by
  rw [natBit, Nat.testBit_eq_decide_div_mod_eq, beq_eq_decide]

theorem ofNat_mod_two_pow (n x : Nat) : BitVec.ofNat n (x % 2 ^ n) = BitVec.ofNat n x :=
  BitVec.eq_of_toNat_eq (by simp)

/-! ## Checks -/

/-- The fields of a segment instruction's word are legal. -/
def segLegal (w : Word32) (fn : Nat) (toSeg useRa useRb useSs : Bool) : Bool :=
  fld w 3 0 == fn && (!toSeg || fld w 26 25 == 0) && (useRa || raOf w == 0) && (useRb || rbOf w == 0) &&
    (useSs || fld w 6 4 == 0) && (if fn = 6 then fld w 11 11 == 0 else fld w 11 7 == 0)

/-- The decode check of a segment instruction: its fields, then, for `swr`, its level (03 R135, 04 R164). -/
def segDec (w : Word32) (fn : Nat) (toSeg useRa useRb useSs : Bool) (k : Core) : Option Fail :=
  if !segLegal w fn toSeg useRa useRb useSs then some ⟨1, 0⟩ else if fn = 6 ∧ k.sc.pl = 0 then some ⟨2, 0⟩ else none

theorem segInstr_eq_issue (c : CoreId) (w : Word32) (fn : Nat) (toSeg useRa useRb useSs : Bool) (body : Core → State → Eff)
    (s : State) : segInstr c w fn toSeg useRa useRb useSs body s =
      issue c w .plain ((if useRa then [raOf w] else []) ++ (if useRb then [rbOf w] else []))
        (segDec w fn toSeg useRa useRb useSs) body s := rfl

/-- A legal segment instruction at a level that may execute it has the effect of its body. -/
theorem segInstr_of_issues (h : issues c w s = true) {fn : Nat} {toSeg useRa useRb useSs : Bool}
    (hok : segLegal w fn toSeg useRa useRb useSs = true) (hpl : fn ≠ 6 ∨ (scalar s c).pl ≠ 0) {body : Core → State → Eff}
    {e : Eff} (he : body (s.core c) s = e) : segInstr c w fn toSeg useRa useRb useSs body s = finish c s e := by
  have hno : ¬(fn = 6 ∧ (s.core c).sc.pl = 0) := fun ⟨h6, h0⟩ => hpl.elim (· h6) (· h0)
  subst he
  rw [segInstr_eq_issue]
  exact issue_plain h _ _ body (by simp only [segDec, hok, Bool.not_true, Bool.false_eq_true, if_false, hno])

/-- A read of a segment register's field (03 R136). -/
theorem segRead_of_issues (h : issues c w s = true) {fn : Nat} (hn : fn ≠ 6) (hf : fld w 3 0 = fn) (hra : raOf w = 0)
    (hrb : rbOf w = 0) (hz : fld w 11 7 = 0) (f : Seg → Nat) : segRead c w fn f s =
      wroteG c (rdOf w) (BitVec.ofNat 64 (f ((scalar s c).sgm (fld w 6 4)))) s :=
  segInstr_of_issues h (by simp [segLegal, hf, hra, hrb, hz, hn]) (.inl hn) rfl

/-- At user level `swr` is not allowed (04 R164). -/
theorem swr_at_user (h : issues c w s = true) (hok : segLegal w 6 true true true false = true) (hpl : (scalar s c).pl = 0) :
    swr c w s = (takeFault c ⟨2, 0⟩ s).updCore c (fun k => { k with step := false }) := by
  have hu : (s.core c).sc.pl = 0 := hpl
  rw [swr, segInstr_eq_issue, issue_fault h _ _ _ ⟨2, 0⟩
    (by simp only [segDec, hok, Bool.not_true, Bool.false_eq_true, if_false, hu, and_self, if_true]),
    finish_trap_of_issues h]

/-! ## `sld` -/

/-- The end of `sld` of handle a: the entry of the core's copy, or the fault of an invalid one. -/
def sldEnd (c : CoreId) (w : Word32) (a : Nat) (s : State) : Eff :=
  match (if a < 64 then handleEntry (s.core c) a else none) with
  | some e => .done (setSeg c (sdOf w) (entrySeg e) s)
  | none => .trap ⟨4, sdOf w⟩ s

theorem sld_of_issues (h : issues c w s = true) (hok : segLegal w 0 true true false false = true) (parity : Bool) :
    sld c w parity s =
      finish c s (sldEnd c w (reads s c (raOf w)).toNat (readHandle c (reads s c (raOf w)).toNat parity s)) :=
  segInstr_of_issues h hok (.inl (by decide)) rfl

theorem sldEnd_of_entry {a : Nat} {e : Word64 × Word64} (ha : a < 64) (he : handleEntry (s.core c) a = some e) :
    sldEnd c w a s = .done (setSeg c (sdOf w) (entrySeg e) s) := by
  simp [sldEnd, ha, he]

/-- Whether a core issues a word does not depend on its copy of the handle table. -/
theorem issues_refetchHandle (c : Nat) (w : Word32) (a : Nat) (s : State) :
    issues c w (refetchHandle c a s) = issues c w s := by
  simp only [issues, fetchSettled, wantsNext, refetchHandle, State.core_updCore_self]
  rfl

@[simp] theorem scalar_refetchHandle (c a : Nat) (s : State) : scalar (refetchHandle c a s) c = scalar s c := by
  simp [scalar, refetchHandle]

/-- A parity error in the entry named is as if the core's copy had held what the table holds (08 R309). -/
theorem sld_parity (h : issues c w s = true) (hok : segLegal w 0 true true false false = true)
    (ha : (reads s c (raOf w)).toNat < 64) :
    sld c w true s = sld c w false (refetchHandle c (reads s c (raOf w)).toNat s) := by
  have hi : issues c w (refetchHandle c (reads s c (raOf w)).toNat s) = true := (issues_refetchHandle c w _ s).trans h
  have hsc : scalar (refetchHandle c (reads s c (raOf w)).toNat s) c = scalar s c :=
    scalar_refetchHandle ..
  have hr : reads (refetchHandle c (reads s c (raOf w)).toNat s) c (raOf w) = reads s c (raOf w) :=
    congrArg (fun k => k.gr (raOf w)) hsc
  rw [sld_of_issues h hok, sld_of_issues hi hok, hr]
  simp only [readHandle, ha, decide_true, Bool.and_self, Bool.false_and, if_true, Bool.false_eq_true, if_false]
  exact finish_of_noDivide (noDivide_of_issues h) (noDivide_of_issues hi) _

/-! ## The writes of a segment register -/

/-- `snarrow` within the limit of the segment it narrows. -/
theorem snarrow_of_issues (h : issues c w s = true) (hok : segLegal w 1 true true true true = true)
    (hle : (reads s c (raOf w)).toNat + (reads s c (rbOf w)).toNat ≤ ((scalar s c).sgm (fld w 6 4)).limit.toNat) :
    snarrow c w s = retired c (setSeg c (sdOf w) { (scalar s c).sgm (fld w 6 4) with
      base := BitVec.ofNat 48 (((scalar s c).sgm (fld w 6 4)).base.toNat + (reads s c (raOf w)).toNat)
      limit := BitVec.ofNat 48 (reads s c (rbOf w)).toNat } s) :=
  (segInstr_of_issues h hok (.inl (by decide)) rfl).trans (congrArg (finish c s) (if_neg (not_lt.mpr hle)))

theorem sdrop_of_issues (h : issues c w s = true) (hok : segLegal w 2 true true false false = true) :
    sdrop c w s = retired c (setSeg c (sdOf w) { (scalar s c).sgm (sdOf w) with
      r := ((scalar s c).sgm (sdOf w)).r && !(reads s c (raOf w)).toNat.testBit 0
      w := ((scalar s c).sgm (sdOf w)).w && !(reads s c (raOf w)).toNat.testBit 1 } s) := by
  simp only [← natBit_eq_testBit]
  exact segInstr_of_issues h hok (.inl (by decide)) rfl

/-- `swr` above user level, of a range within its class. -/
theorem swr_of_issues (h : issues c w s = true) (hok : segLegal w 6 true true true false = true) (hpl : (scalar s c).pl ≠ 0)
    (hin : inClass (fld w 10 9) ((reads s c (raOf w)).toNat % 2 ^ 48) ((reads s c (rbOf w)).toNat % 2 ^ 48) = true) :
    swr c w s = retired c (setSeg c (sdOf w) ⟨BitVec.ofNat 48 (reads s c (raOf w)).toNat,
      BitVec.ofNat 48 (reads s c (rbOf w)).toNat, BitVec.ofNat 2 (fld w 10 9), fld w 7 7 == 1, fld w 8 8 == 1⟩ s) := by
  rw [← ofNat_mod_two_pow 48 (reads s c (raOf w)).toNat, ← ofNat_mod_two_pow 48 (reads s c (rbOf w)).toNat]
  simp only [← natBits_low _ 47] at hin ⊢
  exact (segInstr_of_issues h hok (.inr hpl) rfl).trans (congrArg (finish c s) (if_pos (Bool.or_eq_true_iff.mpr (.inl hin))))

end Sys2Proof.Machine
end

section
/-! The segment instructions (03 R135, R136, 04 R164, 08 R309). -/

namespace Sys2Proof.Machine

open Sys2Proof.Safety

/-- Settles O14: `sld` with a parity error runs as on a copy that holds the table's entry (`sld_parity`), and every other
instruction writes what its body names. That the entry taken again is the table's present one is the model's choice (log
entry 6). -/
theorem segmentInstructionsWrite : Obligations.SegmentInstructionsWrite := by
  unfold Obligations.SegmentInstructionsWrite
  refine ⟨fun c w s h => ?writes, fun c w s h h6 hsd hss hz hpl =>
    congrArg Host.Outcome.next (swr_at_user h (by simp [segLegal, h6, hsd, hss, hz]) hpl)⟩
  intro k a b d g src put out
  refine ⟨fun e h0 hsd hrb hss hz ha he => ?sld, fun h0 hsd hrb hss hz ha => ?parity, fun h1 hsd hz hle => ?snarrow,
    fun h2 hsd hrb hss hz => ?sdrop, fun h3 hra hrb hz => ?srdb, fun h4 hra hrb hz => ?srdl, fun h5 hra hrb hz => ?srda,
    fun h6 hsd hss hz hpl hin => ?swr⟩ <;> refine congrArg Host.Outcome.next ?_
  case sld =>
    rw [sld_of_issues h (by simp [segLegal, h0, hsd, hrb, hss, hz])]
    exact congrArg (finish c s) (sldEnd_of_entry ha he)
  case parity => exact sld_parity h (by simp [segLegal, h0, hsd, hrb, hss, hz]) ha
  case snarrow => exact snarrow_of_issues h (by simp [segLegal, h1, hsd, hz]) hle
  case sdrop => exact sdrop_of_issues h (by simp [segLegal, h2, hsd, hrb, hss, hz])
  case srdb => exact segRead_of_issues h (by decide) h3 hra hrb hz _
  case srdl => exact segRead_of_issues h (by decide) h4 hra hrb hz _
  case srda =>
    rw [mul_comm 16]
    exact segRead_of_issues h (by decide) h5 hra hrb hz segBits
  case swr => exact swr_of_issues h (by simp [segLegal, h6, hsd, hss, hz]) hpl hin

end Sys2Proof.Machine
end

section
/-! The coprocessors: the top-k list under offers, and distances, signs and hashes (03 R158-R162). -/

namespace Sys2Proof.Machine

open Sys2Proof.Safety

variable {c : CoreId} {w : Word32} {s : State}

/-! ## The end of a coprocessor's instruction -/

/-- A legal word of a unit that service cores lack has the effect of its body at a compute core. -/
theorem issue_compute (h : issues c w s = true) (hc : isService c = false) {b : Bool} (hb : b = true) (srcs : List Nat)
    {body : Core → State → Eff} {e : Eff} (he : body (s.core c) s = e) :
    issue c w .plain srcs (computeOnly c b) body s = finish c s e := by
  subst he
  exact issue_legal h (by simp [hb, hc]) srcs body

/-- A function of the top-k selector, used after a successful `tk.init`. -/
theorem tk_of_issues (h : issues c w s = true) (hc : isService c = false) {t : TopK} (ht : (scalar s c).cp0 = some t)
    {rd ra rb : Bool} (hf : ((rd || rdOf w == 0) && (ra || raOf w == 0) && (rb || rbOf w == 0)) = true) (srcs : List Nat)
    {body : TopK → Core → State → Eff} {e : Eff} (he : body t (s.core c) s = e) :
    tk c w rd ra rb srcs body s = finish c s e := by
  have hcp : (s.core c).sc.cp0 = some t := ht
  refine issue_compute h hc hf srcs ?_
  simp only [hcp]
  exact he

/-- A function of the top-k selector that ends the list as `u`. -/
theorem tkSet_of_issues (h : issues c w s = true) (hc : isService c = false) {t : TopK} (ht : (scalar s c).cp0 = some t)
    (hrd : rdOf w = 0) (srcs : List Nat) (f : TopK → Core → TopK) {u : TopK} (hu : f t (s.core c) = u) :
    tk c w false true true srcs (fun t k s => .done (s.updSc c (fun x => { x with cp0 := some (f t k) }))) s =
      retired c (s.updSc c (fun k => { k with cp0 := some u })) := by
  subst hu
  exact tk_of_issues h hc ht (by simp [hrd]) srcs rfl

/-- A function of the top-k selector that answers `v`. -/
theorem tkAnswer_of_issues (h : issues c w s = true) (hc : isService c = false) {t : TopK} (ht : (scalar s c).cp0 = some t)
    {ra : Bool} (hra : (ra || raOf w == 0) = true) (hrb : rbOf w = 0) (srcs : List Nat) {body : TopK → Core → State → Eff}
    {v : Nat} (hv : body t (s.core c) s = writeG c (rdOf w) (BitVec.ofNat 64 v) s) :
    tk c w true ra false srcs body s = wroteG c (rdOf w) (BitVec.ofNat 64 v) s :=
  tk_of_issues h hc ht (by simp [hra, hrb]) srcs hv

theorem skOp_of_issues (h : issues c w s = true) (hc : isService c = false) {rb : Bool} (hb : (rb || rbOf w == 0) = true)
    (f : VReg → VReg → Nat) {v : Word64} (hv : BitVec.ofNat 64 (f (vreg s c (raOf w)) (vreg s c (rbOf w))) = v) :
    Host.Outcome.next (ρ := Refusal) (φ := Fault) (skOp c w rb f s) = .next (wroteG c (rdOf w) v s) := by
  subst hv
  exact congrArg _ (issue_compute h hc hb [] rfl)

theorem hsOp_of_issues (h : issues c w s = true) (hc : isService c = false) (f : Word64 → Word64 → Word64) :
    hsOp c w f s = wroteG c (rdOf w) (f (reads s c (raOf w)) (reads s c (rbOf w))) s :=
  issue_compute h hc rfl _ rfl

/-! ## The list of the top-k selector -/

/-- An offer keeps the list's length k, its mode, and its bound. -/
theorem tkOffer_frame (t : TopK) (key id : Word32) : (tkOffer t key id).k = t.k ∧ (tkOffer t key id).mode = t.mode ∧
    (t.entries.length ≤ t.k → (tkOffer t key id).entries.length ≤ t.k) := by
  unfold tkOffer
  split
  · exact ⟨rfl, rfl, fun hle => hle⟩
  · exact ⟨rfl, rfl, fun _ => List.length_take_le ..⟩

/-- The lanes of a register with their numbers. -/
theorem lanesOf_zipIdx (n : Nat) (v : VReg) :
    (lanesOf n v).zipIdx = (List.range (1024 / n)).map (fun i => (lane n v i, i)) :=
  List.ext_getElem (by simp) (fun i h _ => by simp [lanesOf_get])

theorem foldl_lanes {α : Type} (f : α → Nat × Nat → α) (n : Nat) (v : VReg) (a : α) :
    (lanesOf n v).zipIdx.foldl f a = (List.range (1024 / n)).foldl (fun a i => f a (lane n v i, i)) a := by
  rw [lanesOf_zipIdx, List.foldl_map]

/-- `tk.init` with a length of 1 to 64 and a key type that exists (03 R159). -/
theorem tkInit_of_issues (h : issues c w s = true) (hc : isService c = false) (hrd : rdOf w = 0) {n m : Nat}
    (hn : natBits (reads s c (raOf w)).toNat 6 0 = n) (hm : natBits (reads s c (rbOf w)).toNat 2 0 = m)
    (h1 : 1 ≤ n) (h64 : n ≤ 64) (h6 : m < 6) :
    tkInit c w s = retired c (s.updSc c (fun k => { k with cp0 := some ⟨n, BitVec.ofNat 3 m, []⟩ })) := by
  have hok : ¬(n = 0 ∨ 64 < n ∨ 6 ≤ m) := by omega
  subst hn hm
  exact (issue_compute h hc (beq_iff_eq.mpr hrd) _ rfl).trans (congrArg (finish c s) (if_neg hok))

/-! ## Distances -/

theorem popNat_mod (n v : Nat) : popNat n (v % 2 ^ n) = popNat n v := by
  simp only [popNat_eq_count]
  refine congrArg List.length (List.filter_congr fun i hi => ?_)
  simp [Nat.testBit_mod_two_pow, List.mem_range.mp hi]

theorem popNat_add (m n v : Nat) : popNat (m + n) v = popNat m v + popNat n (v / 2 ^ m) := by
  induction m generalizing v with
  | zero => simp [popNat]
  | succ m ih =>
    rw [Nat.succ_add, popNat, popNat, ih, Nat.div_div_eq_div_mul, ← Nat.pow_succ', Nat.add_assoc]

/-- The set bits of the bytes of a number are its set bits. -/
theorem popWide_eq (n v : Nat) : popWide n v = popNat (8 * n) v := by
  induction n generalizing v with
  | zero => rfl
  | succ n ih =>
    have hb : (BitVec.ofNat 8 v).toNat = v % 2 ^ 8 := BitVec.toNat_ofNat ..
    have ht : popWide n (v / 256) = ((leBytes n (v / 256)).map (fun b => popNat 8 b.toNat)).sum := rfl
    rw [popWide, leBytes, List.map_cons, List.sum_cons, ← ht, ih, hb, popNat_mod, Nat.mul_succ, Nat.add_comm (8 * n), popNat_add]
    rfl

/-- The distance of two registers over their n bits from bit lo. -/
def distance (a b : VReg) (lo n : Nat) : Nat := ((List.range n).filter (fun i => (a ^^^ b).getLsbD (lo + i))).length

/-- The set bits of a piece of the difference. -/
theorem popWide_piece (a b : VReg) (lo n : Nat) : popWide n ((a ^^^ b).toNat / 2 ^ lo % 2 ^ (8 * n)) = distance a b lo (8 * n) := by
  rw [popWide_eq, popNat_mod, popNat_eq_count]
  refine congrArg List.length (List.filter_congr fun i _ => ?_)
  rw [Nat.testBit_div_two_pow, Nat.add_comm]
  rfl

/-- The distances of n pieces, each of whole bytes. -/
theorem hamPieces_eq {n : Nat} (h8 : 8 * (1024 / n / 8) = 1024 / n) (a b : VReg) : hamPieces n a b =
    ((nats n 0 1).map (fun j => distance a b (1024 / n * j) (1024 / n) * 2 ^ (16 * j))).sum := by
  refine congrArg List.sum (List.map_congr_left fun j _ => ?_)
  have hp := popWide_piece a b (1024 / n * j) (1024 / n / 8)
  rw [h8] at hp
  rw [hp]

theorem hamPieces_one (a b : VReg) : hamPieces 1 a b = distance a b 0 1024 := by
  simp [hamPieces_eq (n := 1) (by decide), nats]

theorem hamPieces_two (a b : VReg) : hamPieces 2 a b = distance a b 0 512 + 2 ^ 16 * distance a b 512 512 := by
  simp [hamPieces_eq (n := 2) (by decide), nats, mul_comm]

theorem hamPieces_four (a b : VReg) : hamPieces 4 a b =
    distance a b 0 256 + 2 ^ 16 * distance a b 256 256 + 2 ^ 32 * distance a b 512 256 + 2 ^ 48 * distance a b 768 256 := by
  simp [hamPieces_eq (n := 4) (by decide), nats, mul_comm, add_assoc]

/-! ## Signs -/

/-- The number whose bit i is p i, for i < n. -/
def bitsOf (p : Nat → Bool) (n : Nat) : Nat := ((List.range n).map (fun i => if p i then 2 ^ i else 0)).sum

theorem bitsOf_succ (p : Nat → Bool) (n : Nat) : bitsOf p (n + 1) = 2 ^ n * (p n).toNat + bitsOf p n := by
  cases hp : p n <;> simp [bitsOf, List.range_succ, hp, Nat.add_comm]

theorem bitsOf_lt (p : Nat → Bool) (n : Nat) : bitsOf p n < 2 ^ n := by
  induction n with
  | zero => exact Nat.one_pos
  | succ n ih =>
    rw [bitsOf_succ, Nat.pow_succ]
    have hb := Nat.mul_le_mul_left (2 ^ n) (Bool.toNat_le (p n))
    omega

theorem testBit_bitsOf (p : Nat → Bool) (n i : Nat) : (bitsOf p n).testBit i = (decide (i < n) && p i) := by
  induction n with
  | zero => simp [bitsOf]
  | succ n ih =>
    rw [bitsOf_succ, Nat.testBit_two_pow_mul_add _ (bitsOf_lt p n)]
    rcases Nat.lt_trichotomy i n with hlt | rfl | hgt
    · rw [if_pos hlt, ih]
      simp [hlt, Nat.lt_succ_of_lt hlt]
    · cases p i <;> simp
    · have hd : i - n ≠ 0 := Nat.sub_ne_zero_of_lt hgt
      rw [if_neg (Nat.lt_asymm hgt), decide_eq_false (Nat.not_lt.mpr hgt), Bool.false_and]
      exact Nat.testBit_lt_two_pow ((Bool.toNat_lt _).trans_le (Nat.pow_le_pow_right Nat.two_pos (Nat.pos_of_ne_zero hd)))

theorem signBits_eq (a : VReg) : signBits a = bitsOf (fun i => Val.lt (.fin false 0 0) (dec32 (lane 32 a i))) 32 := by
  rw [signBits, lanesOf_zipIdx, List.map_map]
  rfl

theorem getLsbD_signBits (a : VReg) {i : Nat} (hi : i < 64) : (BitVec.ofNat 64 (signBits a)).getLsbD i =
    (decide (i < 32) && Val.lt (.fin false 0 0) (dec32 (lane 32 a i))) := by
  rw [BitVec.getLsbD_ofNat, signBits_eq, testBit_bitsOf, decide_eq_true hi, Bool.true_and]

end Sys2Proof.Machine
end

section
/-! The coprocessors' instructions (03 R159-R162). -/

namespace Sys2Proof.Machine

open Sys2Proof.Safety

/-- Settles O27: distances count the set bits of the difference piece by piece (`hamPieces_eq`), and `sk.sign` makes the
number whose bits are the lanes' signs (`testBit_bitsOf`). -/
theorem coprocessorsCompute : Obligations.CoprocessorsCompute := by
  unfold Obligations.CoprocessorsCompute
  refine ⟨fun c w s h hc => ?topK, fun c w s h hc => ?sketch⟩
  case topK =>
    intro a b put out
    refine ⟨fun hrd h1 h64 h6 => congrArg Host.Outcome.next ?init, fun t ht => ⟨fun hrd => ?pushes, fun hrb p hp => ?read,
      fun hra hrb => ⟨congrArg Host.Outcome.next ?count, fun l p hl => congrArg Host.Outcome.next ?last⟩, tkOffer_frame t⟩⟩
    case init =>
      rw [← ofNat_mod_two_pow 3 b.toNat]
      exact tkInit_of_issues h hc hrd (natBits_low _ 6) (natBits_low _ 2) h1 h64 h6
    case pushes =>
      exact ⟨congrArg Host.Outcome.next (tkSet_of_issues h hc ht hrd _ _ rfl),
        congrArg Host.Outcome.next (tkSet_of_issues h hc ht hrd _ _ (foldl_lanes _ 32 _ t))⟩
    case read =>
      have hp' : t.entries[((s.core c).sc.gr (raOf w)).toNat]? = some p := hp
      exact congrArg Host.Outcome.next (tkAnswer_of_issues h hc ht rfl hrb _ (by simp only [hp']))
    case count =>
      rw [mul_comm (2 ^ 8), mul_comm (2 ^ 16)]
      exact tkAnswer_of_issues h hc ht (by simp [hra]) hrb _ rfl
    case last =>
      exact tkAnswer_of_issues h hc ht (by simp [hra]) hrb _ (by simp [hl])
  case sketch =>
    intro a b x y d out z1 z2 z3
    have sk (f : VReg → VReg → Nat) {n : Nat} (hn : f a b = n) : .next (skOp c w true f s) = out (BitVec.ofNat 64 n) :=
      skOp_of_issues h hc rfl f (congrArg _ hn)
    have hs (f : Word64 → Word64 → Word64) : .next (hsOp c w f s) = out (f x y) := congrArg _ (hsOp_of_issues h hc f)
    exact ⟨sk _ (hamPieces_one a b), sk _ (hamPieces_two a b), sk _ (hamPieces_four a b),
      fun hrb => ⟨BitVec.ofNat 64 (signBits a), skOp_of_issues h hc (by simp [hrb]) _ rfl, fun i hi => getLsbD_signBits a hi⟩,
      hs _, hs _, hs hsMix⟩

end Sys2Proof.Machine
end

section
/-! The matrix unit at issue: entries to its queue, and the maps that `tocc`, `tstat` and `tcfg` read and write (06 R225-R227,
R241-R244, R250). -/

namespace Sys2Proof.Machine

open Sys2Proof.Safety

variable {c : CoreId} {w : Word32} {s : State}

/-! ## Entering the matrix queue -/

/-- A legal matrix instruction has the effect of its body at a compute core. -/
theorem issue_matrix (h : issues c w s = true) (hc : isService c = false) {fn : Nat} {ok : Bool} (hfn : fld w 11 8 = fn)
    (hok : ok = true) (srcs : List Nat) {body : Core → State → Eff} {e : Eff} (he : body (s.core c) s = e) :
    issue c w .plain srcs (matDec c w fn ok) body s = finish c s e :=
  issue_compute h hc (by simp [hfn, hok]) srcs he

/-- An instruction that passes its checks enters a queue with room, and waits at a full one (06 R242). -/
theorem queued_of_issues (h : issues c w s = true) (hc : isService c = false) {fn : Nat} {ok : Bool} (hfn : fld w 11 8 = fn)
    (hok : ok = true) (srcs : List Nat) {check : Core → Option Nat} (hcheck : check (s.core c) = none)
    {work : Core → MatWork} {m : MatWork} (hm : work (s.core c) = m) :
    ((s.core c).matq.length < 4 →
      Host.Outcome.next (ρ := Refusal) (φ := Fault) (queued c w srcs (matDec c w fn ok) check work s) =
        .next (retired c (enqueue c (s.core c) m s))) ∧
    (4 ≤ (s.core c).matq.length →
      Host.Outcome.next (ρ := Refusal) (φ := Fault) (queued c w srcs (matDec c w fn ok) check work s) =
        .next (waits c .retry s)) := by
  subst hm
  refine ⟨fun hroom => congrArg Host.Outcome.next ?room, fun hfull => congrArg Host.Outcome.next ?full⟩
  case room =>
    refine issue_matrix h hc hfn hok srcs (e := .done (enqueue c (s.core c) (work (s.core c)) s)) ?_
    rw [if_neg (Nat.not_le.mpr hroom), hcheck]
  case full => exact issue_matrix h hc hfn hok srcs (e := .stay .retry s) (if_pos hfull)

/-! ## Rows of an accumulator -/

/-- A row of an accumulator as the lanes of a register (06 R243). -/
theorem lane_row (a : Acc) (j : Nat) {i : Nat} (hi : i < 32) :
    lane 32 (ofLanes 32 (a.row j)) i = (mget a.words (32 * j + i) 0).toNat := by
  rw [lane_ofLanes 32 _ i (by simpa [Acc.row] using hi) (by simp [Acc.row])]
  simpa [Acc.row, nats_eq_range] using Nat.mod_eq_of_lt (mget a.words (32 * j + i) 0).isLt

theorem tacc2v_of_issues (h : issues c w s = true) (hc : isService c = false) (hfn : fld w 11 8 = 3) (h18 : fld w 21 18 = 0)
    (h0 : fld w 7 0 = 0) (hq : (s.core c).matq.any (fun m => m.acc == some (fld w 17 17)) = false)
    (hp : ((s.core c).acc (fld w 17 17)).poison = 0) : tacc2v c w s = retired c (s.setV c (rdOf w)
      (ofLanes 32 (((s.core c).acc (fld w 17 17)).row (natBits (reads s c (rbOf w)).toNat 4 0)))) := by
  refine issue_matrix h hc hfn (by simp [h18, h0]) _ (e := .done _) ?_
  simp only [hq, hp]
  rfl

/-! ## Occupancy -/

/-- A byte of a list as a number, 0 past its end. -/
theorem leAt_one (bs : List Byte) (j : Nat) : leAt bs j 1 = (bs[j]?.getD 0).toNat := by
  rw [leAt, List.take_one, List.head?_drop]
  cases bs[j]? <;> rfl

/-- Whether a piece of a list holds a byte other than 0. -/
theorem any_ne_zero_piece (bs : List Byte) (a n : Nat) :
    ((bs.drop a).take n).any (· != 0) = true ↔ ∃ b, b < n ∧ leAt bs (a + b) 1 ≠ 0 := by
  simp only [List.any_eq_true, List.mem_iff_getElem?, List.getElem?_take, List.getElem?_drop, leAt_one, bne_iff_ne]
  constructor
  · rintro ⟨x, ⟨b, hx⟩, hne⟩
    obtain ⟨hb, hx⟩ := Option.ite_none_right_eq_some.mp hx
    exact ⟨b, hb, by simpa [hx, ← BitVec.toNat_inj] using hne⟩
  · rintro ⟨b, hb, hne⟩
    cases hx : bs[a + b]? with
    | none => simp [hx] at hne
    | some x => exact ⟨x, ⟨b, by rw [if_pos hb, hx]⟩, by simpa [hx, ← BitVec.toNat_inj] using hne⟩

/-- Whether a byte of rows 8r to 8r + 7 and columns 4q to 4q + 3 of a tile is not 0 (06 R250). -/
def granuleUsed (t : Tile) (r q : Nat) : Bool :=
  (nats 8 (8 * r) 1).any (fun i => decide (i < t.rows) && (t.bytes i (4 * q) (min (4 * q + 4) t.bpr - 4 * q)).any (· != 0))

theorem granuleUsed_iff (t : Tile) (r q : Nat) : granuleUsed t r q = true ↔
    ∃ i b, 8 * r ≤ i ∧ i < 8 * r + 8 ∧ i < t.rows ∧ 4 * q ≤ b ∧ b < 4 * q + 4 ∧ b < t.bpr ∧
      leAt t.data (i * t.bpr + b) 1 ≠ 0 := by
  rw [granuleUsed, List.any_eq_true]
  simp only [Tile.bytes, mem_nats_one, Bool.and_eq_true, decide_eq_true_eq, any_ne_zero_piece]
  constructor
  · rintro ⟨i, ⟨hlo, hhi⟩, hrow, b, hb, hne⟩
    exact ⟨i, 4 * q + b, hlo, hhi, hrow, by omega, by omega, by omega, by rwa [← Nat.add_assoc]⟩
  · rintro ⟨i, b, hlo, hhi, hrow, hq, hq4, hbpr, hne⟩
    exact ⟨i, ⟨hlo, hhi⟩, hrow, b - 4 * q, by omega, by rwa [Nat.add_assoc, Nat.add_sub_cancel' hq]⟩

/-- The occupancy mask as the number of its 64 bits. -/
theorem occupancy_eq (t : Tile) : occupancy t = bitsOf (fun k => granuleUsed t (k / 16) (k % 16)) 64 := by
  have hrange : List.range 64 = (List.range 4).flatMap (fun r => (List.range 16).map (fun q => 16 * r + q)) := by decide
  rw [bitsOf, hrange, List.map_flatMap, List.flatMap_def, List.sum_flatten, List.map_map, occupancy,
    nats_eq_range, nats_eq_range]
  refine congrArg List.sum (List.map_congr_left fun r _ => ?_)
  rw [Function.comp, List.map_map]
  refine congrArg List.sum (List.map_congr_left fun q hq => ?_)
  have hlt := List.mem_range.mp hq
  have hdiv : (16 * r + q) / 16 = r := by omega
  have hmod : (16 * r + q) % 16 = q := by omega
  simp only [Function.comp, hdiv, hmod]
  rfl

theorem getLsbD_occupancy (t : Tile) {r q : Nat} (hr : r < 4) (hq : q < 16) :
    (BitVec.ofNat 64 (occupancy t)).getLsbD (16 * r + q) = granuleUsed t r q := by
  have hdiv : (16 * r + q) / 16 = r := by omega
  have hmod : (16 * r + q) % 16 = q := by omega
  have hlt : 16 * r + q < 64 := by omega
  rw [BitVec.getLsbD_ofNat, occupancy_eq, testBit_bitsOf, hdiv, hmod, decide_eq_true hlt, Bool.true_and, Bool.true_and]

/-- With nothing queued a tile stands as the instructions before leave it. -/
theorem tileState_of_empty {k : Core} (h : k.matq = []) (i : Nat) : tileState k i = (k.tile i).st := by
  simp [tileState, relQueued, h]

theorem tocc_of_issues (h : issues c w s = true) (hc : isService c = false) (hfn : fld w 11 8 = 5) (h20 : fld w 21 20 = 0)
    (h12 : fld w 16 12 = 0) (h0 : fld w 7 0 = 0) (hq : (s.core c).matq = [])
    (hst : ((s.core c).tile (fld w 19 17)).st = .full) :
    tocc c w s = wroteG c (rdOf w) (BitVec.ofNat 64 (occupancy ((s.core c).tile (fld w 19 17)))) s := by
  have hnow : tileState (s.core c) (fld w 19 17) = .full := (tileState_of_empty hq _).trans hst
  refine issue_matrix h hc hfn (by simp [h20, h12, h0]) [] (e := writeG _ _ _ _) ?_
  simp [hst, hnow]

/-! ## The snapshot -/

/-- The code of a tile's state (06 R244). -/
def stateCode : TileState → Nat
  | .empty => 0
  | .full => 1
  | .partialLoad => 2
  | .landing => 3

theorem stateCode_lt (st : TileState) : stateCode st < 4 := by cases st <;> decide

/-- The states of the eight tiles, two bits each. -/
def stateBits (k : Core) : Nat :=
  ((List.range 8).map (fun i => stateCode (k.tile i).st)).foldr (fun x a => a * 2 ^ 2 + x % 2 ^ 2) 0

theorem stateBits_lt (k : Core) : stateBits k < 2 ^ 16 :=
  foldr_lane_lt 2 ((List.range 8).map (fun i => stateCode (k.tile i).st))

theorem stateBits_get (k : Core) {i : Nat} (hi : i < 8) :
    natBits (stateBits k) (2 * i + 1) (2 * i) = stateCode (k.tile i).st := by
  have hw : 2 * i + 1 + 1 - 2 * i = 2 := by omega
  rw [natBits, hw, stateBits, foldr_lane 2 _ i (by simpa using hi), List.getElem_map, List.getElem_range]
  exact Nat.mod_eq_of_lt (stateCode_lt _)

/-- The poison marks of the eight tiles. -/
def poisonBits (k : Core) : Nat := bitsOf (fun i => (k.tile i).poison) 8

/-- The snapshot, field above field. -/
theorem tstatWord_eq (k : Core) : tstatWord k = 2 ^ 16 * (2 ^ 8 * ((k.acc 0).poison.toNat + 2 ^ 2 * ((k.acc 1).poison.toNat +
    2 ^ 2 * k.matq.length)) + poisonBits k) + stateBits k := by
  have hcode (i : Nat) : stateCode (k.tile i).st % 2 ^ 2 = stateCode (k.tile i).st := Nat.mod_eq_of_lt (stateCode_lt _)
  have hsum : tstatWord k = ((List.range 8).map (fun i => stateCode (k.tile i).st * 2 ^ (2 * i) +
      (if (k.tile i).poison then 2 ^ (16 + i) else 0))).sum +
      (k.acc 0).poison.toNat * 2 ^ 24 + (k.acc 1).poison.toNat * 2 ^ 26 + k.matq.length * 2 ^ 28 := rfl
  have hmark (i : Nat) : (if (k.tile i).poison then 2 ^ (16 + i) else 0) =
      2 ^ 16 * (if (k.tile i).poison then 2 ^ i else 0) := by
    rw [pow_add, mul_ite, mul_zero]
  have hstates : stateBits k = ((List.range 8).map (fun i => stateCode (k.tile i).st * 2 ^ (2 * i))).sum := by
    simp only [stateBits, show List.range 8 = [0, 1, 2, 3, 4, 5, 6, 7] from rfl, List.map_cons, List.map_nil, List.foldr_cons,
      List.foldr_nil, List.sum_cons, List.sum_nil, hcode]
    ring
  rw [hsum, hstates, poisonBits, bitsOf, List.sum_map_add]
  simp only [hmark, List.sum_map_mul_left]
  ring

/-- A field below 2^m does not see what lies above. -/
theorem natBits_of_high {m hi lo : Nat} (hlo : lo ≤ hi) (hm : hi < m) (x y : Nat) :
    natBits (2 ^ m * y + x) hi lo = natBits x hi lo := by
  obtain ⟨d, rfl⟩ : ∃ d, m = lo + (hi + 1 - lo + d) := ⟨m - (hi + 1), by omega⟩
  rw [natBits, natBits, pow_add 2 lo, pow_add, Nat.mul_assoc, Nat.mul_add_div (Nat.two_pow_pos _), Nat.mul_assoc,
    Nat.mul_add_mod]

/-- The fields of the snapshot (06 R244). -/
theorem tstatWord_fields {k : Core} (hlen : k.matq.length ≤ 4) : tstatWord k < 2 ^ 31 ∧
    (∀ i, i < 8 → natBits (tstatWord k) (2 * i + 1) (2 * i) = stateCode (k.tile i).st ∧
      natBit (tstatWord k) (16 + i) = (k.tile i).poison) ∧
    natBits (tstatWord k) 25 24 = (k.acc 0).poison.toNat ∧ natBits (tstatWord k) 27 26 = (k.acc 1).poison.toNat ∧
    natBits (tstatWord k) 30 28 = k.matq.length ∧ natBits (tstatWord k) 63 31 = 0 := by
  have hst := stateBits_lt k
  have hpo : poisonBits k < 2 ^ 8 := bitsOf_lt _ 8
  have h0 := (k.acc 0).poison.isLt
  have h1 := (k.acc 1).poison.isLt
  have hw := tstatWord_eq k
  refine ⟨by omega, fun i hi => ⟨?states, ?poison⟩, ?_, ?_, ?_, ?_⟩
  case states => rw [hw, natBits_of_high (by omega) (by omega), stateBits_get k hi]
  case poison =>
    have hlow : ¬16 + i < 16 := by omega
    rw [hw, natBit_eq_testBit, Nat.testBit_two_pow_mul_add _ hst, if_neg hlow, Nat.add_sub_cancel_left,
      Nat.testBit_two_pow_mul_add _ hpo, if_pos hi, poisonBits, testBit_bitsOf, decide_eq_true hi, Bool.true_and]
  -- The fields above are apart in numerals, so their quotients and remainders are linear.
  all_goals (simp only [natBits]; omega)

theorem tstat_of_issues (h : issues c w s = true) (hc : isService c = false) (hfn : fld w 11 8 = 6) (h12 : fld w 21 12 = 0)
    (h0 : fld w 7 0 = 0) : tstat c w s = wroteG c (rdOf w) (BitVec.ofNat 64 (tstatWord (s.core c))) s :=
  issue_matrix h hc hfn (by simp [h12, h0]) [] rfl

/-! ## Shapes -/

/-- A tile given a shape: one that has it keeps everything, any other becomes empty, without poison (06 R225, R227). -/
def Tile.reshaped (rows bpr free i : Nat) (t : Tile) : Tile :=
  if t.rows = rows ∧ t.bpr = bpr then t
  else { rows := rows, bpr := bpr, data := if rows = 0 then [] else if t.rows = 0 then freshBank free i else t.data }

theorem Tile.reshaped_of_shape {rows bpr : Nat} {t : Tile} (h : t.rows = rows ∧ t.bpr = bpr) (free i : Nat) :
    t.reshaped rows bpr free i = t := if_pos h

theorem Tile.reshaped_shape (rows bpr free i : Nat) (t : Tile) :
    (t.reshaped rows bpr free i).rows = rows ∧ (t.reshaped rows bpr free i).bpr = bpr := by
  unfold Tile.reshaped
  split
  · assumption
  · exact ⟨rfl, rfl⟩

/-- A tile whose shape changes is empty, without poison. -/
theorem Tile.reshaped_keeps_or_empties (rows bpr free i : Nat) (t : Tile) :
    if t.rows = rows ∧ t.bpr = bpr then t.reshaped rows bpr free i = t
    else (t.reshaped rows bpr free i).st = .empty ∧ (t.reshaped rows bpr free i).poison = false := by
  unfold Tile.reshaped
  split
  · rfl
  · exact ⟨rfl, rfl⟩

/-- Tile i of a table given a shape. -/
def reshapeAt (rows bpr free : Nat) (ts : List (Nat × Tile)) (i : Nat) : List (Nat × Tile) :=
  if (mget ts i {}).rows = rows ∧ (mget ts i {}).bpr = bpr then ts else mput ts i ((mget ts i {}).reshaped rows bpr free i)

theorem mget_reshapeAt (rows bpr free : Nat) (ts : List (Nat × Tile)) (i j : Nat) :
    mget (reshapeAt rows bpr free ts i) j {} = if j = i then (mget ts j {}).reshaped rows bpr free j else mget ts j {} := by
  unfold reshapeAt
  split
  · rename_i hshape
    split
    · rename_i hj
      rw [hj, Tile.reshaped_of_shape hshape]
    · rfl
  · rw [mget_mput]
    exact ite_congr rfl (fun hj => by rw [hj]) (fun _ => rfl)

/-- A list of tiles given a shape: each listed tile has it, and the others are as they were. -/
theorem mget_reshapeAll (rows bpr free : Nat) (l : List Nat) (ts : List (Nat × Tile)) (j : Nat) :
    mget (l.foldl (reshapeAt rows bpr free) ts) j {} = if j ∈ l then (mget ts j {}).reshaped rows bpr free j else mget ts j {} := by
  induction l generalizing ts with
  | nil => simp
  | cons i l ih =>
    rw [List.foldl_cons, ih, mget_reshapeAt]
    by_cases hi : j = i
    · simp [hi, Tile.reshaped_of_shape (Tile.reshaped_shape ..)]
    · simp [hi]

/-- The tiles that a value of `tcfg` names (06 R224). -/
def namedTiles (v : Nat) : List Nat := (nats 8 0 1).filter (fun i => natBit v (56 + i))

theorem mem_namedTiles {v i : Nat} : i ∈ namedTiles v ↔ i < 8 ∧ natBit v (56 + i) = true := by
  simp [namedTiles, mem_nats_one]

theorem tcfgApply_tiles (v free : Nat) (k : Core) : (tcfgApply v free k).tiles =
    (namedTiles v).foldl (reshapeAt (natBits v 21 16) (natBits v 6 0) free) k.tiles := by
  refine List.foldl_ext _ _ _ fun ts i _ => ite_congr rfl (fun _ => rfl) fun hchange => ?_
  rw [Tile.reshaped, if_neg hchange]

theorem tile_tcfgApply (v free : Nat) (k : Core) (i : Nat) : (tcfgApply v free k).tile i =
    if i ∈ namedTiles v then (k.tile i).reshaped (natBits v 21 16) (natBits v 6 0) free i else k.tile i := by
  rw [Core.tile, tcfgApply_tiles]
  exact mget_reshapeAll ..

/-- The values that `tcfg` takes: reserved bits 0, and, where it names tiles, a shape of 0 rows of 0 bytes or one within
the bank (06 R225). -/
theorem tcfgCheck_of_legal {v : Nat} (h55 : natBits v 55 51 = 0) (h47 : natBits v 47 22 = 0) (h15 : natBits v 15 7 = 0)
    (hshape : natBits v 63 56 = 0 ∨ (natBits v 21 16 = 0 ∧ natBits v 6 0 = 0) ∨ (1 ≤ natBits v 21 16 ∧ natBits v 21 16 ≤ 32 ∧
      4 ≤ natBits v 6 0 ∧ natBits v 6 0 ≤ 64 ∧ natBits v 6 0 % 4 = 0)) : tcfgCheck v = none := by
  unfold tcfgCheck
  rw [if_neg (by simp [h55, h47, h15])]
  rcases hshape with hset | ⟨hrows, hbpr⟩ | ⟨h1, h32, h4, h64, hmod⟩
  · exact if_pos hset
  · simp [hrows, hbpr]
  · have harea : natBits v 21 16 * natBits v 6 0 ≤ 32 * 64 := Nat.mul_le_mul h32 h64
    rw [if_neg (c := _ ∨ _) (by omega), ite_self]

theorem tcfg_of_issues (h : issues c w s = true) (hc : isService c = false) (hrd : rdOf w = 0) (hrb : rbOf w = 0)
    (h0 : fld w 7 0 = 0) (hcheck : tcfgCheck (reads s c (raOf w)).toNat = none) (hq : (s.core c).matq = [])
    (hl : (s.core c).landings = []) : tcfg c w s = retired c (tcfgDo c (reads s c (raOf w)).toNat s) := by
  have hgr : tcfgCheck ((s.core c).sc.gr (raOf w)).toNat = none := hcheck
  have hdec : thenDec (computeOnly c (rdOf w == 0 && rbOf w == 0 && fld w 7 0 == 0))
      (fun k => (tcfgCheck (k.sc.gr (raOf w)).toNat).filter (fun f => f.code == 1)) (s.core c) = none := by
    simp [thenDec, computeOnly, legal, hrd, hrb, h0, hc, hgr]
  have hbody : tcfgWrite c ((s.core c).sc.gr (raOf w)).toNat s = .done (tcfgDo c (reads s c (raOf w)).toNat s) := by
    simp [tcfgWrite, hgr, hq, hl, reads]
  exact (issue_plain h _ _ _ hdec).trans (congrArg (finish c s) hbody)

/-- What a `tcfg` leaves: the tiles it names have its shape, and all but the tiles and the selection is as it was. -/
theorem tcfgDo_retired (c v : Nat) (s : State) :
    ((retired c (tcfgDo c v s)).core c).tcfgSel = BitVec.ofNat 3 (natBits v 50 48) ∧
    (∀ i, ((retired c (tcfgDo c v s)).core c).tile i = if i ∈ namedTiles v then
      ((s.core c).tile i).reshaped (natBits v 21 16) (natBits v 6 0) s.freeCount i else (s.core c).tile i) ∧
    ((retired c (tcfgDo c v s)).core c).accs = (s.core c).accs ∧ onlyCore c s (retired c (tcfgDo c v s)) := by
  have hk : (retired c (tcfgDo c v s)).core c = { tcfgApply v s.freeCount (s.core c) with
      sc := retireSc none (s.core c).sc, wait := .none, step := false, parts := [], entered := none } := by
    simp only [retired, tcfgDo, State.core_updCore_self]
    rfl
  rw [hk]
  exact ⟨rfl, tile_tcfgApply v _ _, rfl, onlyCore_trans (onlyCore_updCore c (tcfgApply v s.freeCount) _) (onlyCore_updCore c _ _)⟩

end Sys2Proof.Machine
end

section
/-! The instructions of the matrix unit at issue (06 R225-R227, R241-R244, R250). -/

namespace Sys2Proof.Machine

open Sys2Proof.Safety

/-- Settles O30: the queue's four instructions share one end (`queued_of_issues`); the mask of `tocc` and the snapshot of
`tstat` are numbers put together field by field (`occupancy_eq`, `tstatWord_eq`), so that each field reads back; and `tcfg`
gives every tile it names its shape (`tile_tcfgApply`). -/
theorem matrixInstructionsIssue : Obligations.MatrixInstructionsIssue := by
  unfold Obligations.MatrixInstructionsIssue
  intro c w s h hc k fn tile enters gb v
  have hgb : natBits gb 4 0 = gb % 32 := natBits_low gb 4
  refine ⟨fun hfn h20 h15 h24 hf hchk => ?tmma, fun hfn h23 h12 h0 => ?aclr, fun hfn h12 => ?trel, fun hfn h23 h0 => ?tv2acc,
    fun hfn h18 h0 hq hp => ?tacc2v, fun hfn h20 h12 h0 hq hst => ?tocc, fun hfn h12 h0 hlen => ?tstat,
    fun hrd hrb h0 h55 h47 h15 hq hl hshape => ?tcfg⟩
  case tmma => exact queued_of_issues h hc hfn (by simp [h20, h15, h24, hf]) _ hchk rfl
  case aclr => exact queued_of_issues h hc hfn (by simp [h23, h12, h0]) _ rfl rfl
  case trel => exact queued_of_issues h hc hfn (by simp [h12]) _ rfl rfl
  case tv2acc => exact queued_of_issues h hc hfn (by simp [h23, h0]) _ rfl (congrArg (MatWork.tv2acc _ · _) hgb)
  case tacc2v =>
    refine ⟨_, congrArg _ (tacc2v_of_issues h hc hfn h18 h0 hq hp), fun i hi => ?_⟩
    rw [lane_row _ _ hi, hgb]
    rfl
  case tocc =>
    refine ⟨_, congrArg _ (tocc_of_issues h hc hfn h20 h12 h0 hq hst), fun r q hr hq => ?_⟩
    rw [getLsbD_occupancy _ hr hq]
    exact granuleUsed_iff _ r q
  case tstat =>
    refine ⟨_, congrArg _ (tstat_of_issues h hc hfn h12 h0), ?_⟩
    obtain ⟨hlt, hfields⟩ := tstatWord_fields hlen
    rw [BitVec.toNat_ofNat, Nat.mod_eq_of_lt (hlt.trans (by decide))]
    exact hfields
  case tcfg =>
    obtain ⟨hsel, htile, haccs, honly⟩ := tcfgDo_retired c v s
    refine ⟨retired c (tcfgDo c v s), congrArg Host.Outcome.next
        (tcfg_of_issues h hc hrd hrb h0 (tcfgCheck_of_legal h55 h47 h15 hshape) hq hl),
      hsel, fun i hi hv => ?named, fun i hi => ?others, haccs, honly⟩
    case named =>
      have hnew : tile (retired c (tcfgDo c v s)) i = (tile s i).reshaped (natBits v 21 16) (natBits v 6 0) s.freeCount i :=
        (htile i).trans (if_pos (mem_namedTiles.mpr ⟨hi, hv⟩))
      obtain ⟨hrows, hbpr⟩ := Tile.reshaped_shape (natBits v 21 16) (natBits v 6 0) s.freeCount i (tile s i)
      rw [hnew]
      exact ⟨hrows, hbpr, Tile.reshaped_keeps_or_empties ..⟩
    case others =>
      have hout : i ∉ namedTiles v := fun hmem => by
        obtain ⟨h8, hv⟩ := mem_namedTiles.mp hmem
        exact hi.elim (by simp [hv]) (Nat.not_le.mpr h8)
      exact (htile i).trans (if_neg hout)

end Sys2Proof.Machine
end

section
/-! Memory at good places of a scratchpad: what a read and a store of whole bytes leave there, and an atomic at its home
(08 R297-R299, 12 R439). -/

namespace Sys2Proof.Machine

open Sys2Proof.Safety

/-! ## Addresses of a scratchpad -/

/-- From the scratchpads up, an address is its own sliced address. -/
theorem sliced_of_le {a : Nat} (h : 0x0300_0000_0000 ≤ a) : sliced a = a :=
  if_neg (by omega)

theorem le_of_regionOf_spad {a k : Nat} (h : regionOf a = .spad k) : 0x0300_0000_0000 ≤ a := by
  by_contra hlt
  simp only [regionOf] at h
  split_ifs at h
  omega

theorem inReserve_of_spad {a k : Nat} (h : regionOf a = .spad k) : inReserve a = false := by
  simp only [inReserve, h]

theorem homeOf_of_spad {a k : Nat} (h : regionOf a = .spad k) (s : State) : homeOf s a = .spad k := by
  simp only [homeOf, h]

/-! ## Bytes stored and read back -/

theorem getElem_nats_one {n a i : Nat} (h : i < (nats n a 1).length) : (nats n a 1)[i] = a + i := by
  induction n generalizing a i with
  | zero => exact absurd h (Nat.not_lt_zero i)
  | succ n ih =>
    cases i with
    | zero => rfl
    | succ i => simp [nats, ih, Nat.add_comm, Nat.add_left_comm]

theorem State.getElem_bytes (s : State) {a n i : Nat} (h : i < (s.bytes a n).length) : (s.bytes a n)[i] = s.byte (a + i) := by
  simp [State.bytes, getElem_nats_one]

/-- Bytes stored at a scratchpad's address read back, and every byte elsewhere reads as before. -/
theorem State.byte_putBytes (s : State) (hm : memWf s.mem = true) {a : Nat} (ha : 0x0300_0000_0000 ≤ a) (bs : List Byte)
    (x : Nat) : (s.putBytes a bs).byte x = if a ≤ sliced x then (bs[sliced x - a]?).getD (s.byte x) else s.byte x := by
  induction bs generalizing s a with
  | nil => simp [State.putBytes]
  | cons b t ih =>
    rw [State.putBytes, ih _ (by rw [State.putByte_mem]; exact memPut_wf _ _ hm) (by omega), State.byte_putByte s hm,
      sliced_of_le ha]
    rcases Nat.lt_trichotomy (sliced x) a with hlt | heq | hgt
    · rw [if_neg (by omega), if_neg (by omega), if_neg (by omega)]
    · simp [heq]
    · have hpos : sliced x - a = (sliced x - (a + 1)) + 1 := by omega
      rw [if_pos (Nat.succ_le_of_lt hgt), if_pos hgt.le, if_neg hgt.ne', hpos, List.getElem?_cons_succ]

theorem State.bytes_putBytes (s : State) (hm : memWf s.mem = true) {a : Nat} (ha : 0x0300_0000_0000 ≤ a) (bs : List Byte) :
    (s.putBytes a bs).bytes a bs.length = bs := by
  apply List.ext_getElem
  · simp
  · intro i hi hi'
    rw [State.getElem_bytes, s.byte_putBytes hm ha, sliced_of_le (by omega), if_pos (by omega), Nat.add_sub_cancel_left,
      List.getElem?_eq_getElem hi', Option.getD_some]

theorem State.bytesKept_putBytes (s : State) (hm : memWf s.mem = true) {a : Nat} (ha : 0x0300_0000_0000 ≤ a)
    (bs : List Byte) : bytesKept a bs.length s (s.putBytes a bs) := by
  intro x hx
  rw [s.byte_putBytes hm ha]
  rcases hx with hlt | hge
  · rw [if_neg (by omega)]
  · rw [if_pos (by omega), List.getElem?_eq_none (by omega), Option.getD_none]

theorem State.core_putBytes (s : State) (a : Nat) (bs : List Byte) (c : Nat) : (s.putBytes a bs).core c = s.core c := by
  obtain ⟨m, z, hput, -⟩ := s.putBytes_frame a bs
  rw [hput]
  rfl

theorem State.regs_putBytes (s : State) (a : Nat) (bs : List Byte) : (s.putBytes a bs).regs = s.regs := by
  obtain ⟨m, z, hput, -⟩ := s.putBytes_frame a bs
  rw [hput]

/-! ## Memory through its code, with nothing uncorrectable -/

theorem eccFind_clean (gs : List Nat) (req : Nat) (s : State) : eccFind .clean gs req s = s := rfl

/-- A read where no granule is uncorrectable answers the bytes and changes nothing (08 R298). -/
theorem memRead_of_good {a n k : Nat} {s : State} (ha : regionOf a = .spad k) (hg : ∀ g ∈ granules a n, g ∉ s.bad) (req : Nat) :
    memRead a n .clean req s = (s, some (s.bytes a n)) := by
  have hnone : (granules a n).filter (· ∈ s.bad) = [] := List.filter_eq_nil_iff.mpr fun g h => by simpa using hg g h
  unfold memRead
  dsimp only
  rw [eccFind_clean, hnone, homeOf_of_spad ha]
  rfl

/-- A store where no granule is uncorrectable puts the bytes and changes nothing else (08 R299). -/
theorem memWrite_of_good {a k : Nat} {bs : List Byte} {s : State} (ha : regionOf a = .spad k)
    (hg : ∀ g ∈ granules a bs.length, g ∉ s.bad) (req : Nat) :
    memWrite a bs .clean req s = (s.putBytes a bs, true) := by
  have hpart : (partGranules a bs.length).filter (· ∈ s.bad) = [] := List.filter_eq_nil_iff.mpr fun g h => by
    simpa using hg g (List.mem_of_mem_filter h)
  have hbad : s.bad.filter (· ∉ granules a bs.length) = s.bad := List.filter_eq_self.mpr fun g h => by
    simpa using fun h' => hg g h' h
  obtain ⟨m, z, hput, -⟩ := s.putBytes_frame a bs
  unfold memWrite
  dsimp only
  rw [eccFind_clean, hpart, hbad, homeOf_of_spad ha, hput]
  rfl

/-- Outside states 3 and 4 of the mirror a store is neither forwarded nor marked (16 R529, R533, R541). -/
theorem afterStore_of_notMirroring {s : State} (h3 : s.get F.mirStat_state ≠ 3) (h4 : s.get F.mirStat_state ≠ 4) (a n : Nat)
    (poison : Bool) : afterStore a n poison s = s := by
  simp [afterStore, h3, h4]

theorem homeStore_of_good {a k : Nat} {bs : List Byte} {s : State} (ha : regionOf a = .spad k)
    (hg : ∀ g ∈ granules a bs.length, g ∉ s.bad) (h3 : s.get F.mirStat_state ≠ 3) (h4 : s.get F.mirStat_state ≠ 4)
    (req : Nat) (trusted : Bool) : homeStore a bs .clean req trusted s = (s.putBytes a bs, true) := by
  have hdead : homeDead s a = false := by simp only [homeDead, homeOf_of_spad ha]
  have hwords : storeBad a [] (s.putBytes a bs) = s.putBytes a bs := by simp [storeBad]
  obtain ⟨m, z, hput, -⟩ := s.putBytes_frame a bs
  have hmirror : ∀ f : Fld, (s.putBytes a bs).get f = s.get f := fun f => by rw [hput]; rfl
  simp [homeStore, homeStoreWords, inReserve_of_spad ha, memWrite_of_good ha hg, hdead, hwords,
    afterStore_of_notMirroring (s := s.putBytes a bs) (by rwa [hmirror]) (by rwa [hmirror])]

/-- An atomic at a good place of a scratchpad puts the function's value there and answers the old bytes (12 R439). -/
theorem homeAmo_of_good {a n k : Nat} {s : State} (ha : regionOf a = .spad k) (hg : ∀ g ∈ granules a n, g ∉ s.bad)
    (h3 : s.get F.mirStat_state ≠ 3) (h4 : s.get F.mirStat_state ≠ 4) (fn b cmp req : Nat) (trusted : Bool) :
    homeAmo fn n a b cmp .clean req trusted s =
      (s.putBytes a (leBytes n (amoNew fn n (ofLeBytes (s.bytes a n)) b cmp)), some (s.bytes a n)) := by
  have hload : homeLoad a n .clean req trusted s = (s, some (s.bytes a n)) := by
    simp [homeLoad, inReserve_of_spad ha, memRead_of_good ha hg]
  simp only [homeAmo, hload]
  rw [homeStore_of_good ha (by rwa [leBytes_length]) h3 h4]

end Sys2Proof.Machine
end

section
/-! The end of an operation that is answered: what a core with nothing outstanding does before it and after it, and what a
written register leaves (12 R430, R431, R450, R453). -/

namespace Sys2Proof.Machine

open Sys2Proof.Safety

/-! ## A core with nothing outstanding -/

/-- What an operation's release and its checks look at in a core with nothing outstanding. -/
theorem quiet_spec {c : Nat} {s : State} (h : quiet c s = true) :
    (s.core c).dcache.miss = [] ∧ (∀ l ∈ (s.core c).dcache.lines, l.dirty = false) ∧ (s.core c).landings = [] ∧
    (s.core c).unacked = 0 ∧ (s.core c).deferredUe = false ∧ (s.core c).deferredOvf = false ∧ (s.core c).kept = none ∧
    (s.syncAns.any fun r => r.agent == c && r.isGrant && r.fate == .kept) = false := by
  simp only [quiet, Bool.and_eq_true, Bool.not_eq_true', List.isEmpty_iff, Option.isNone_iff_eq_none, beq_iff_eq,
    List.all_eq_true] at h
  obtain ⟨⟨⟨⟨⟨⟨⟨⟨⟨⟨hmiss, hdirty⟩, hland⟩, -⟩, hunacked⟩, hue⟩, hovf⟩, hkept⟩, -⟩, -⟩, hgrants⟩ := h
  exact ⟨hmiss, hdirty, hland, hunacked, hue, hovf, hkept, List.any_eq_false.mpr fun r hr => by simpa using hgrants r hr⟩

/-- Where no line is dirty, none is written back. -/
theorem cleanLines_of_clean {c : Nat} {s : State} (h : ∀ l ∈ (s.core c).dcache.lines, l.dirty = false) (p : Line → Bool)
    (e : Ecc) : cleanLines c p s e = s := by
  have hnone : (s.core c).dcache.lines.filter (fun l => l.dirty && p l) = [] :=
    List.filter_eq_nil_iff.mpr fun l hl => by simp [h l hl]
  simp [cleanLines, hnone]

/-- A release at core scope waits for nothing more once stores, landings and acknowledgements are through (12 R430). -/
theorem releaseStep_core {c : Nat} {s : State} (hmiss : (s.core c).dcache.miss = []) (hland : (s.core c).landings = [])
    (hunacked : (s.core c).unacked = 0) (hue : (s.core c).deferredUe = false) (p : Line → Bool) (e : Ecc) :
    releaseStep c 0 p s e = (s, .done) := by
  simp [releaseStep, hmiss, hland, hunacked, hue]

/-- With no deferred overflow and no grant kept or on its way, a sync operation begins at once (12 R450, R453). -/
theorem beforeSync_of_quiet {c : Nat} {s : State} (h : quiet c s = true) (keep : Bool) (body : State → Eff) :
    beforeSync c keep s body = body s := by
  obtain ⟨-, -, -, -, -, hovf, hkept, hgrants⟩ := quiet_spec h
  simp [beforeSync, hovf, returnKept, setFate, hgrants, hkept]

/-! ## The acquire of an answered operation -/

@[simp] theorem core_waits (c : Nat) (w : Wait) (s : State) : (waits c w s).core c = { s.core c with wait := w } :=
  State.core_updCore_self ..

/-- An answer that acquires at core scope is written and its instruction retires, once no landing is under way (12 R431). -/
theorem settleAcquire_core {c : Nat} {rd : BitVec 5} {v : Word64} {s : State} (hw : (s.core c).wait = .acquire rd (some v) 0)
    (hland : (s.core c).landings = []) : settleAcquire c s = wroteG c rd.toNat v s := by
  simp [settleAcquire, hw, acquireStep, hland, finish_done, wroteG]

/-! ## What a written register leaves -/

theorem wait_wroteG (c rd : Nat) (v : Word64) (s : State) : ((wroteG c rd v s).core c).wait = .none := by
  simp [wroteG, retired]

theorem onlyCore_wroteG (c rd : Nat) (v : Word64) (s : State) : onlyCore c s (wroteG c rd v s) :=
  onlyCore_trans (onlyCore_updCore c (fun k => { k with sc := k.sc.setG rd v }) s) (onlyCore_updCore c _ _)

/-- The general registers once g[rd] is written: retiring moves none. -/
theorem g_wroteG (c rd : Nat) (v : Word64) (s : State) : (scalar (wroteG c rd v s) c).g = ((scalar s c).setG rd v).g := by
  obtain ⟨pc, lc, slot, r, p, ip, hret⟩ := retireSc_frame none ((scalar s c).setG rd v)
  simp [wroteG, hret]

theorem g_wroteG_self {rd : Nat} (hrd : rd ≠ 0) (c : Nat) (v : Word64) (s : State) :
    mget (scalar (wroteG c rd v s) c).g rd 0 = v := by
  rw [g_wroteG, Scalar.setG_g _ _ _ hrd, if_pos rfl]

theorem gBut_wroteG (c rd : Nat) (v : Word64) (s : State) : gBut c [rd] s (wroteG c rd v s) := by
  intro r hr
  rw [g_wroteG]
  by_cases hrd : rd = 0
  · rw [hrd, Scalar.setG_zero]
  · rw [Scalar.setG_g _ _ _ hrd, if_neg (by simpa using hr)]

/-- An answer that acquires at core scope, from its arrival on: its register is written and its core alone moves. -/
theorem answered_core {c : Nat} {s : State} (hland : (s.core c).landings = []) (rd : BitVec 5) (v : Word64) :
    let t := answered c rd (some v) 0 s
    t.resps = s.resps ∧ (t.core c).wait = .none ∧ (rd ≠ 0 → mget (scalar t c).g rd.toNat 0 = v) ∧
      gBut c [rd.toNat] s t ∧ onlyCore c s t := by
  have hwaits : answered c rd (some v) 0 s = settleAcquire c (waits c (.acquire rd (some v) 0) s) := rfl
  rw [hwaits, settleAcquire_core (by rw [core_waits]) (by rw [core_waits]; exact hland)]
  refine ⟨rfl, wait_wroteG .., fun hrd => g_wroteG_self (fun h => hrd (BitVec.eq_of_toNat_eq h)) .., fun r hr => ?_,
    onlyCore_trans (onlyCore_updCore c _ s) (onlyCore_wroteG ..)⟩
  rw [gBut_wroteG _ _ _ _ r hr, scalar, core_waits]
  rfl

end Sys2Proof.Machine
end

section
/-! Atomics on chip: their functions on words, and an atomic at core scope on the core's own scratchpad (12 R438, R439). -/

namespace Sys2Proof.Machine

open Sys2Proof.Safety

/-! ## The functions -/

section
variable {n : Nat} (old b cmp : BitVec (8 * n))

theorem amoNew_add : amoNew 0 n old.toNat b.toNat cmp.toNat = (old + b).toNat := (BitVec.toNat_add ..).symm

theorem amoNew_swap : amoNew 1 n old.toNat b.toNat cmp.toNat = b.toNat := rfl

theorem amoNew_cas : amoNew 2 n old.toNat b.toNat cmp.toNat = (if old = cmp then b else old).toNat := by
  simp only [amoNew, BitVec.toNat_inj, apply_ite BitVec.toNat]

theorem amoNew_and : amoNew 3 n old.toNat b.toNat cmp.toNat = (old &&& b).toNat := rfl

theorem amoNew_or : amoNew 4 n old.toNat b.toNat cmp.toNat = (old ||| b).toNat := rfl

theorem amoNew_xor : amoNew 5 n old.toNat b.toNat cmp.toNat = (old ^^^ b).toNat := rfl

theorem amoNew_max : amoNew 6 n old.toNat b.toNat cmp.toNat = (if old.toInt < b.toInt then b else old).toNat := by
  simp only [amoNew, BitVec.ofNat_toNat, BitVec.setWidth_eq, decide_eq_true_eq, apply_ite BitVec.toNat]

theorem amoNew_min : amoNew 7 n old.toNat b.toNat cmp.toNat = (if old.toInt < b.toInt then old else b).toNat := by
  simp only [amoNew, BitVec.ofNat_toNat, BitVec.setWidth_eq, decide_eq_true_eq, apply_ite BitVec.toNat]

end

/-- The number of a list of n bytes, as a word of n bytes. -/
theorem toNat_ofLeBytes {n : Nat} {bs : List Byte} (h : bs.length = n) :
    (BitVec.ofNat (8 * n) (ofLeBytes bs)).toNat = ofLeBytes bs := by
  have hlt : ofLeBytes bs < 2 ^ (8 * n) := by
    rw [pow_mul, ← h]
    exact ofLeBytes_lt bs
  rw [BitVec.toNat_ofNat, Nat.mod_eq_of_lt hlt]

/-! ## The own scratchpad -/

theorem ownClean_spec {c a n : Nat} {s : State} (h : ownClean c a n s = true) :
    regionOf a = .spad c ∧ xlatAddr s c a = a ∧ ∀ g ∈ granules a n, g ∉ s.bad := by
  simp only [ownClean, Bool.and_eq_true, beq_iff_eq, List.all_eq_true, decide_eq_true_eq] at h
  obtain ⟨⟨hreg, hx⟩, hg⟩ := h
  exact ⟨hreg, hx, hg⟩

/-- The scratchpad that an address names for a core does not depend on its data cache. -/
theorem xlatAddr_updDc (s : State) (c : Nat) (f : Cache → Cache) (a : Nat) : xlatAddr (s.updDc c f) c a = xlatAddr s c a := by
  unfold xlatAddr xlatCore
  rw [State.updDc, State.core_updCore_self]
  rfl

/-! ## What an atomic on the own scratchpad leaves -/

theorem discardLines_core (c : Nat) (p : Line → Bool) (s : State) :
    ∃ k, (discardLines c p s).core c = { s.core c with dcache := k } ∧ k.miss = (s.core c).dcache.miss :=
  ⟨_, State.core_updCore_self .., rfl⟩

/-- What an atomic at a leaves of the state beside its answer: the line of a out of the core's cache, and the bytes stored. -/
def amoStored (c a : Nat) (bs : List Byte) (s : State) : State := (discardLines c (fun x => x.addr == a / 64) s).putBytes a bs

/-- In its core an atomic's store changes the data cache alone. -/
theorem amoStored_core (c a : Nat) (bs : List Byte) (s : State) :
    ∃ k, (amoStored c a bs s).core c = { s.core c with dcache := k } := by
  obtain ⟨k, hk, -⟩ := discardLines_core c (fun x => x.addr == a / 64) s
  exact ⟨k, (State.core_putBytes ..).trans hk⟩

theorem amoStored_landings (c a : Nat) (bs : List Byte) (s : State) :
    ((amoStored c a bs s).core c).landings = (s.core c).landings := by
  obtain ⟨k, hk⟩ := amoStored_core c a bs s
  rw [hk]

theorem amoStored_core_of_ne {c k : Nat} (hk : k ≠ c) (a : Nat) (bs : List Byte) (s : State) :
    (amoStored c a bs s).core k = s.core k := by
  rw [amoStored, State.core_putBytes, discardLines, State.updDc, State.core_updCore, if_neg hk]

/-- The end of an atomic on n bytes at a of the core's own scratchpad: `new` is stored, and g[rd] takes the old value. -/
def amoRetired (c rd n a new : Nat) (s : State) : State :=
  let old := sext (8 * n) (ofLeBytes (s.bytes a n))
  wroteG c rd old (waits c (.acquire (BitVec.ofNat 5 rd) (some old) 0) (amoStored c a (leBytes n new) s))

section
variable {c n a : Nat} {s : State} (rd new : Nat)

theorem amoRetired_bytes (hm : memWf s.mem = true) (ha : regionOf a = .spad c) :
    (amoRetired c rd n a new s).bytes a n = leBytes n new := by
  have hput := (discardLines c (fun x => x.addr == a / 64) s).bytes_putBytes hm (le_of_regionOf_spad ha) (leBytes n new)
  rw [leBytes_length] at hput
  exact hput

theorem amoRetired_bytesKept (hm : memWf s.mem = true) (ha : regionOf a = .spad c) :
    bytesKept a n s (amoRetired c rd n a new s) := by
  have hput := (discardLines c (fun x => x.addr == a / 64) s).bytesKept_putBytes hm (le_of_regionOf_spad ha) (leBytes n new)
  rw [leBytes_length] at hput
  exact hput

theorem amoRetired_regs : (amoRetired c rd n a new s).regs = s.regs := State.regs_putBytes ..

theorem amoRetired_coresBut : coresBut [c] s (amoRetired c rd n a new s) := by
  intro k hk
  have hne : k ≠ c := by simpa using hk
  obtain ⟨-, -, -, hothers⟩ := onlyCore_trans (onlyCore_updCore c _ (amoStored c a (leBytes n new) s)) (onlyCore_wroteG c rd _ _)
  exact (hothers k hne).trans (amoStored_core_of_ne hne ..)

theorem amoRetired_g_self (hrd : rd ≠ 0) :
    mget (scalar (amoRetired c rd n a new s) c).g rd 0 = sext (8 * n) (ofLeBytes (s.bytes a n)) :=
  g_wroteG_self hrd ..

theorem amoRetired_gBut : gBut c [rd] s (amoRetired c rd n a new s) := by
  intro r hr
  obtain ⟨k, hk⟩ := amoStored_core c a (leBytes n new) s
  rw [amoRetired, gBut_wroteG c rd _ _ r hr, scalar, core_waits, hk]
  rfl

end

/-! ## An atomic at core scope -/

section
variable {c : CoreId} {w : Word32} {s : State} {n : Nat}

/-- The access of an atomic to the core's own scratchpad: the bytes are stored, and the old ones wait for the acquire. -/
theorem amoAccess_own {a : Nat} (hown : ownClean c a n s = true) (h3 : s.get F.mirStat_state ≠ 3)
    (h4 : s.get F.mirStat_state ≠ 4) (fn b cmp : Nat) :
    amoAccess fn c w n a b cmp .clean (discardLines c (fun x => x.addr == a / 64) s) =
      .stay (.acquire (BitVec.ofNat 5 (rdOf w)) (some (sext (8 * n) (ofLeBytes (s.bytes a n)))) (fld w 1 0))
        (amoStored c a (leBytes n (amoNew fn n (ofLeBytes (s.bytes a n)) b cmp)) s) := by
  obtain ⟨hreg, hx, hgood⟩ := ownClean_spec hown
  have hx' : xlatAddr (discardLines c (fun x => x.addr == a / 64) s) c a = a := (xlatAddr_updDc ..).trans hx
  simp only [amoAccess, hx', hreg, if_true]
  rw [homeAmo_of_good (s := discardLines c (fun x => x.addr == a / 64) s) hreg hgood h3 h4]
  rfl

/-- An atomic at core scope on a good place of the core's own scratchpad, from a core with nothing outstanding: it stores
its function's value and writes the old one to g[rd] (12 R438, R439). -/
theorem amo_own (h : issues c w s = true) (hq : quiet c s = true) (h0 : fld w 1 0 = 0)
    (hn : (if fld w 11 8 = 9 then 8 else 4) = n)
    (hchk : checkAmo c (scalar s c) (fld w 4 2) (reads s c (raOf w)).toNat n = none) {a : Nat}
    (ha : segAddr (scalar s c) (fld w 4 2) (reads s c (raOf w)).toNat = a) (hown : ownClean c a n s = true)
    (h3 : s.get F.mirStat_state ≠ 3) (h4 : s.get F.mirStat_state ≠ 4) (fn : Nat) :
    amo fn c w .clean s = amoRetired c (rdOf w) n a (amoNew fn n (ofLeBytes (s.bytes a n))
      ((reads s c (rbOf w)).toNat % 2 ^ (8 * n)) ((reads s c (rdOf w)).toNat % 2 ^ (8 * n))) s := by
  obtain ⟨hmiss, hclean, hland, hunacked, hue, -⟩ := quiet_spec hq
  obtain ⟨k, hk, hkmiss⟩ := discardLines_core c (fun x => x.addr == a / 64) s
  have hrel := releaseStep_core (s := discardLines c (fun x => x.addr == a / 64) s) (by rw [hk]; exact hkmiss.trans hmiss)
    (by rw [hk]; exact hland) (by rw [hk]; exact hunacked) (by rw [hk]; exact hue) allLines .clean
  have hrd : (BitVec.ofNat 5 (rdOf w)).toNat = rdOf w := Nat.mod_eq_of_lt (fld_lt w 26 22)
  unfold amo
  rw [issue_legal h rfl]
  simp only [scalar, reads] at hchk ha ⊢
  simp only [hn, ha, hchk, beforeSync_of_quiet hq, hmiss, List.any_nil, Bool.false_eq_true, if_false,
    cleanLines_of_clean hclean, h0, hrel, amoAccess_own hown h3 h4, finish_stay]
  rw [settleAcquire_core (by rw [core_waits]) (by rw [core_waits]; exact (amoStored_landings ..).trans hland), hrd]
  rfl

end

end Sys2Proof.Machine
end

section
/-! Atomics on the own scratchpad, and the answers of other homes (12 R438, R439). -/

namespace Sys2Proof.Machine

open Sys2Proof.Safety

/-- Settles O39: on the own scratchpad the eight instructions differ in their function alone (`amo_own`), which is the one
of 12 R438 on words (`amoNew_add` and the lemmas beside it). -/
theorem atomicsUpdateLocation : Obligations.AtomicsUpdateLocation := by
  unfold Obligations.AtomicsUpdateLocation
  refine ⟨fun c w s h hm hq h0 _ => ?own, fun c rd n r rest s hw hland htake hgood => ?answer⟩
  case own =>
    intro n a old b cmp hchk hown h3 h4 does
    obtain ⟨hreg, -, -⟩ := ownClean_spec hown
    have hold : old.toNat = ofLeBytes (s.bytes a n) := toNat_ofLeBytes (State.bytes_length ..)
    have leaves : ∀ (fn : Nat) (v : BitVec (8 * n)), amoNew fn n old.toNat b.toNat cmp.toNat = v.toNat →
        does (.next (amo fn c w .clean s)) v := by
      intro fn v hv
      have hamo : amo fn c w .clean s = amoRetired c (rdOf w) n a v.toNat s := by
        rw [← hv, hold]
        exact amo_own h hq h0 rfl hchk rfl hown h3 h4 fn
      exact ⟨_, congrArg _ hamo, amoRetired_bytes _ _ hm hreg, amoRetired_bytesKept _ _ hm hreg, amoRetired_g_self _ _,
        amoRetired_gBut _ _, wait_wroteG .., amoRetired_regs _ _, amoRetired_coresBut _ _⟩
    exact ⟨leaves 0 _ (amoNew_add ..), leaves 1 _ (amoNew_swap ..), leaves 2 _ (amoNew_cas ..), leaves 3 _ (amoNew_and ..),
      leaves 4 _ (amoNew_or ..), leaves 5 _ (amoNew_xor ..), leaves 6 _ (amoNew_max ..), leaves 7 _ (amoNew_min ..)⟩
  case answer =>
    refine ⟨_, congrArg Host.Outcome.next ?_, answered_core (s := { s with resps := rest }) hland rd _⟩
    unfold atomicReturn
    rw [hw]
    dsimp only
    split
    next hnone => exact absurd (htake.symm.trans hnone) (Option.some_ne_none _)
    next hsome =>
      cases htake.symm.trans hsome
      exact if_neg (ne_true_of_eq_false hgood)

end Sys2Proof.Machine
end
